-- ==== Sys2Proof/Word.lean ====
section
/-! DEFINITION. The words of the machine and their plainest arithmetic. -/

namespace Sys2Proof

/-- A dword: what an x register, a CSR and an address hold (R10, R18). -/
abbrev Word := BitVec 64

/-- A byte (R10). -/
abbrev Byte := BitVec 8

/-- The number of an x or v register, 0 to 31 (R104). -/
abbrev Reg := Fin 32

/-- The number of a distribution register, 0 to 7 (R104). -/
abbrev DReg8 := Fin 8

/-- The number of an accumulator tile, 0 to 3 (R104). -/
abbrev TileNo := Fin 4

/-- The bits of a vector register: a grant is at most 16,384 bits (R27). -/
abbrev VReg := BitVec 16384

/-- One 128-byte line, byte 0 in the low bits (R10). -/
abbrev Line := BitVec 1024

/-- A 16-bit tick (R322). -/
abbrev Tick := BitVec 16

/-- A finite table: entries with keys strictly rising; what an unlisted key reads as is said where it is read. -/
abbrev Tab (α : Type) := List (Nat × α)

end Sys2Proof
end

