-- ==== Sys2Proof/Config.lean ====
section
/-! DEFINITION. What an implementation fixes, and the free values: constants without a body, of which nothing can be
proved, for what the spec leaves open. -/

namespace Sys2Proof.Config

/-- A fresh value each time it is drawn, for a value the spec leaves open (log 14): State.fresh numbers the draws. -/
opaque freeWord : Nat → Word

/-- A byte of a key (R455; log 14): by the key's number and its place. -/
opaque freeByte : Nat → Nat → Byte

/-- A byte of a signature over a digest by a key (R455; log 14): by its place. -/
opaque signature : Nat → List Byte → Nat → Byte

/-- What the header of a firmware image says (R454; log 14): the version, the security version, and whether its digest is
that of the body; and the errata mask of a part that runs it (R442). -/
opaque imageVersion : List Byte → BitVec 32
/-- The security version in an image's header (R454). -/
opaque imageSvn : List Byte → BitVec 16
/-- Whether the digest in an image's header is that of its body (R454). -/
opaque imageWhole : List Byte → Bool
/-- The errata that a part has while it runs an image (R442). -/
opaque imageErrata : List Byte → Word

/-- The supply of a die in mV at an operating point, from its fused characteristic (R456): by die and point. -/
opaque dieSupply : Nat → Nat → Nat

/-- The draw of a die in W over a period of 1 ms, as its sensor gives it (R458): by die and period. -/
opaque dieDraw : Nat → Nat → Nat

/-- Whether another module accepts a write that this one sends (R397; log 56): by the draw's number. -/
opaque podAccepts : Nat → Bool

/-- How a dword is folded into the 64-bit hash of shadow execution (R437; log 14). -/
opaque hashFold : Word → Word → Word

/-- Whether a signature verifies (R452, R454; log 14): by the key, 0 Toquemen's release key and 1 the provisioning key, the
signed bytes and the signature. -/
opaque signatureOk : Nat → List Byte → List Byte → Bool

/-- The number of cc that hyield holds a hardware context back at most (R271). -/
def yieldCc : Nat := 11

/-- The period of a core's tick and of the horizon broadcast, in cc (R322, R328). -/
def tickPeriod : Nat := 1024

/-- The entries of a store buffer (R1, R318). -/
def storeEntries : Nat := 16

/-- The entries of a micro-TLB (R1). -/
def microEntries : Nat := 16

/-- The entries of a lane's TLB bank (R1). -/
def bankEntries : Nat := 4

/-- The entries of a quad TLB (R1). -/
def quadEntries : Nat := 256

/-- The entries of a last-level TLB (R1). -/
def lastEntries : Nat := 16384

/-- The lines of an instruction cache: 8 KiB (R1). -/
def icacheLines : Nat := 64

/-- The entries of a matrix command queue (R196). -/
def matrixEntries : Nat := 8

/-- The number of 2 MiB frames of a die's stack (R1, R314). -/
def framesPerDie : Nat := 32768

end Sys2Proof.Config
end

