-- ==== Sys2Proof/Machine/Tab.lean ====
section
/-! DEFINITION. Finite tables in their canonical form: keys strictly rising. -/

namespace Sys2Proof

/-- The entry at a key. -/
def Tab.get? {α : Type} : Tab α → Nat → Option α
  | [], _ => none
  | (k, a) :: t, n => if n = k then some a else Tab.get? t n

/-- The entry at a key, or a default. -/
def Tab.getD {α : Type} (t : Tab α) (n : Nat) (d : α) : α := (Tab.get? t n).getD d

/-- The table with one entry replaced or added in its place. -/
def Tab.set {α : Type} : Tab α → Nat → α → Tab α
  | [], n, b => [(n, b)]
  | (k, a) :: t, n, b =>
    if n < k then (n, b) :: (k, a) :: t
    else if n = k then (n, b) :: t
    else (k, a) :: Tab.set t n b

/-- The table without the entries at a key. -/
def Tab.erase {α : Type} : Tab α → Nat → Tab α
  | [], _ => []
  | (k, a) :: t, n => if n = k then Tab.erase t n else (k, a) :: Tab.erase t n

/-- Replaces or erases the entry at a key. -/
def Tab.put {α : Type} (t : Tab α) (n : Nat) : Option α → Tab α
  | some a => Tab.set t n a
  | none => Tab.erase t n

/-- Changes an entry that is there. -/
def Tab.modify {α : Type} (t : Tab α) (n : Nat) (f : α → α) : Tab α :=
  match Tab.get? t n with
  | some a => Tab.set t n (f a)
  | none => t

/-- The entries whose key and value satisfy a test. -/
def Tab.keep {α : Type} (t : Tab α) (p : Nat → α → Bool) : Tab α := t.filter (fun e => p e.1 e.2)

/-- Changes every entry's value. -/
def Tab.mapVal {α β : Type} (t : Tab α) (f : Nat → α → β) : Tab β := t.map (fun e => (e.1, f e.1 e.2))

/-- The keys, rising. -/
def Tab.keys {α : Type} (t : Tab α) : List Nat := t.map Prod.fst

/-- The canonical form: keys strictly rising. -/
def Tab.wf {α : Type} : Tab α → Bool
  | [] => true
  | [_] => true
  | (k, _) :: (l, b) :: t => decide (k < l) && Tab.wf ((l, b) :: t)

end Sys2Proof
end

