-- ==== Sys2Proof/Syntax.lean ====
section
/-! DEFINITION. The instruction set and the steps of the other agents: one constructor of Instr per row of
spec/opcode_table.json. Operand fields are those of R84 to R100; a step that is no instruction carries what names
the unit it happens in and what comes to it from outside the module. -/

namespace Sys2Proof

/-- A hardware context: the physical core (die * 16,384 + core within the die) and its hidx (R17, R395). -/
structure HartId where
  core : Nat
  h : Nat
deriving DecidableEq, Repr

/-- What a write over a pod port is bound for: the coordinate of a module in the pod, and a context there (R397, R449). -/
structure PodDest where
  x : Nat
  y : Nat
  z : Nat
  tag : Nat
deriving DecidableEq, Repr

/-- The second operand of a VA instruction, by its kind field (R87). -/
inductive VaSrc where
  | vv (vs1 : Reg)
  | vx (rs1 : Reg)
  | vi (imm : BitVec 5)
deriving DecidableEq, Repr

/-- The operand fields of a two-source VA instruction (R87). -/
structure VaArgs where
  m : Bool
  agn : Bool
  vd : Reg
  vs2 : Reg
  s : VaSrc
deriving DecidableEq, Repr

/-- The operand fields of a VA instruction whose second source can only be a vector register (R88). -/
structure VvArgs where
  m : Bool
  agn : Bool
  vd : Reg
  vs2 : Reg
  vs1 : Reg
deriving DecidableEq, Repr

/-- The operand fields of a vunary sub-operation, vbexp and vbpack (R89, R171, R172). -/
structure VuArgs where
  m : Bool
  agn : Bool
  vd : Reg
  vs2 : Reg
deriving DecidableEq, Repr

/-- The operand fields of vcvt; `t` is the target code (R90). -/
structure VcArgs where
  m : Bool
  agn : Bool
  vd : Reg
  vs2 : Reg
  t : BitVec 5
deriving DecidableEq, Repr

/-- The operand fields of a VM load or store; `b` is [24:20] by mode (R92, R93). -/
structure VmArgs where
  l : BitVec 4
  ovt : Bool
  ord : Bool
  m : Bool
  b : Reg
  a : Reg
  d : Reg
deriving DecidableEq, Repr

/-- The operand fields of a vamo instruction (R93). -/
structure VamoArgs where
  l : BitVec 4
  m : Bool
  b : Reg
  a : Reg
  d : Reg
deriving DecidableEq, Repr

/-- The path a context command took (R374). -/
inductive CmdPath where
  | host
  | window
deriving DecidableEq, Repr

/-- A context command as the firmware read it (R374): its path, tag and seq, its 48 argument bytes (byte 16 of the
record in the low bits), and for a window command the hardware context that submitted it with its sstatus then. -/
structure Cmd where
  path : CmdPath
  tag : Nat
  seq : Word
  args : BitVec 384
  src : HartId
  sstatus : Word
deriving DecidableEq, Repr

/-- A register named by an instruction, by class and number (R42, R31). -/
inductive RegName where
  | x (n : Nat)
  | v (n : Nat)
  | d (n : Nat)
deriving DecidableEq, Repr

/-- The rows of the opcode table (R84 to R100 for encodings; spec/95 for the steps of other agents). A compressed
row, HINT and ILLEGAL_INSTRUCTION carry no operands: their meaning reads the instruction's bits, which the machine
holds while the instruction executes (State.ir). -/
inductive Instr where
  /-- LUI (R116): Loads the 20-bit upper immediate into rd. -/
  | lui (d : Reg) (i : BitVec 20)
  /-- AUIPC (R116): Adds the upper immediate to pc and writes rd. -/
  | auipc (d : Reg) (i : BitVec 20)
  /-- JAL (R116): Jumps pc-relative and links rd. -/
  | jal (d : Reg) (off : BitVec 20)
  /-- JALR (R117): Jumps to rs1 plus immediate with bit 0 cleared and links rd. -/
  | jalr (d a : Reg) (i : BitVec 12)
  /-- BEQ (R116): Branches if rs1 equals rs2. -/
  | beq (a b : Reg) (off : BitVec 12)
  /-- BNE (R116): Branches if rs1 differs from rs2. -/
  | bne (a b : Reg) (off : BitVec 12)
  /-- BLT (R116): Branches if rs1 is less than rs2, signed. -/
  | blt (a b : Reg) (off : BitVec 12)
  /-- BGE (R116): Branches if rs1 is at least rs2, signed. -/
  | bge (a b : Reg) (off : BitVec 12)
  /-- BLTU (R116): Branches if rs1 is less than rs2, unsigned. -/
  | bltu (a b : Reg) (off : BitVec 12)
  /-- BGEU (R116): Branches if rs1 is at least rs2, unsigned. -/
  | bgeu (a b : Reg) (off : BitVec 12)
  /-- LB (R117): Loads a sign-extended byte. -/
  | lb (d a : Reg) (i : BitVec 12)
  /-- LH (R117): Loads a sign-extended half, trapping if misaligned. -/
  | lh (d a : Reg) (i : BitVec 12)
  /-- LW (R117): Loads a sign-extended word, trapping if misaligned. -/
  | lw (d a : Reg) (i : BitVec 12)
  /-- LD (R117): Loads a dword, trapping if misaligned. -/
  | ld (d a : Reg) (i : BitVec 12)
  /-- LBU (R117): Loads a zero-extended byte. -/
  | lbu (d a : Reg) (i : BitVec 12)
  /-- LHU (R117): Loads a zero-extended half. -/
  | lhu (d a : Reg) (i : BitVec 12)
  /-- LWU (R117): Loads a zero-extended word. -/
  | lwu (d a : Reg) (i : BitVec 12)
  /-- SB (R117): Stores a byte. -/
  | sb (a b : Reg) (i : BitVec 12)
  /-- SH (R117): Stores a half, trapping if misaligned. -/
  | sh (a b : Reg) (i : BitVec 12)
  /-- SW (R117): Stores a word, trapping if misaligned. -/
  | sw (a b : Reg) (i : BitVec 12)
  /-- SD (R117): Stores a dword, trapping if misaligned. -/
  | sd (a b : Reg) (i : BitVec 12)
  /-- ADDI (R116): Adds an immediate. -/
  | addi (d a : Reg) (i : BitVec 12)
  /-- SLTI (R116): Sets rd if rs1 is less than the immediate, signed. -/
  | slti (d a : Reg) (i : BitVec 12)
  /-- SLTIU (R116): Sets rd if rs1 is less than the immediate, unsigned. -/
  | sltiu (d a : Reg) (i : BitVec 12)
  /-- XORI (R116): Exclusive-or with an immediate. -/
  | xori (d a : Reg) (i : BitVec 12)
  /-- ORI (R116): Or with an immediate. -/
  | ori (d a : Reg) (i : BitVec 12)
  /-- ANDI (R116): And with an immediate. -/
  | andi (d a : Reg) (i : BitVec 12)
  /-- SLLI (R116): Shifts left logically by a 6-bit amount. -/
  | slli (d a : Reg) (h : BitVec 6)
  /-- SRLI (R116): Shifts right logically by a 6-bit amount. -/
  | srli (d a : Reg) (h : BitVec 6)
  /-- SRAI (R116): Shifts right arithmetically by a 6-bit amount. -/
  | srai (d a : Reg) (h : BitVec 6)
  /-- ADDIW (R116): Adds an immediate in 32 bits, sign-extending. -/
  | addiw (d a : Reg) (i : BitVec 12)
  /-- SLLIW (R116): 32-bit logical left shift by immediate. -/
  | slliw (d a : Reg) (h : BitVec 5)
  /-- SRLIW (R116): 32-bit logical right shift by immediate. -/
  | srliw (d a : Reg) (h : BitVec 5)
  /-- SRAIW (R116): 32-bit arithmetic right shift by immediate. -/
  | sraiw (d a : Reg) (h : BitVec 5)
  /-- ADD (R116): Adds two registers. -/
  | add (d a b : Reg)
  /-- SLL (R116): Shifts left logically by a register. -/
  | sll (d a b : Reg)
  /-- SLT (R116): Signed set-less-than. -/
  | slt (d a b : Reg)
  /-- SLTU (R116): Unsigned set-less-than. -/
  | sltu (d a b : Reg)
  /-- XOR (R116): Exclusive-or of two registers. -/
  | xor (d a b : Reg)
  /-- SRL (R116): Shifts right logically by a register. -/
  | srl (d a b : Reg)
  /-- OR (R116): Or of two registers. -/
  | or (d a b : Reg)
  /-- AND (R116): And of two registers. -/
  | and (d a b : Reg)
  /-- SUB (R116): Subtracts two registers. -/
  | sub (d a b : Reg)
  /-- SRA (R116): Shifts right arithmetically by a register. -/
  | sra (d a b : Reg)
  /-- MUL (R116): Low 64 bits of a product. -/
  | mul (d a b : Reg)
  /-- MULH (R116): High half of a signed product. -/
  | mulh (d a b : Reg)
  /-- MULHSU (R116): High half of a signed-by-unsigned product. -/
  | mulhsu (d a b : Reg)
  /-- MULHU (R116): High half of an unsigned product. -/
  | mulhu (d a b : Reg)
  /-- DIV (R117): Signed division with BX1 results for zero and overflow. -/
  | div (d a b : Reg)
  /-- DIVU (R117): Unsigned division. -/
  | divu (d a b : Reg)
  /-- REM (R117): Signed remainder. -/
  | rem (d a b : Reg)
  /-- REMU (R117): Unsigned remainder. -/
  | remu (d a b : Reg)
  /-- ADDW (R116): 32-bit add, sign-extended. -/
  | addw (d a b : Reg)
  /-- SLLW (R116): 32-bit logical left shift. -/
  | sllw (d a b : Reg)
  /-- SRLW (R116): 32-bit logical right shift. -/
  | srlw (d a b : Reg)
  /-- SUBW (R116): 32-bit subtract, sign-extended. -/
  | subw (d a b : Reg)
  /-- SRAW (R116): 32-bit arithmetic right shift. -/
  | sraw (d a b : Reg)
  /-- MULW (R116): 32-bit multiply, sign-extended. -/
  | mulw (d a b : Reg)
  /-- DIVW (R117): 32-bit signed division. -/
  | divw (d a b : Reg)
  /-- DIVUW (R117): 32-bit unsigned division. -/
  | divuw (d a b : Reg)
  /-- REMW (R117): 32-bit signed remainder. -/
  | remw (d a b : Reg)
  /-- REMUW (R117): 32-bit unsigned remainder. -/
  | remuw (d a b : Reg)
  /-- FENCE (R118): Orders as ofence.sys sv, sv, or is a no-op hint if pred or succ is empty. -/
  | fence (d a : Reg) (i : BitVec 12)
  /-- FENCE_I (R118): Makes earlier stores visible to own fetches and discards touched instruction cache lines. -/
  | fenceI (d a : Reg) (i : BitVec 12)
  /-- ECALL (R119): Takes an environment-call trap by privilege. -/
  | ecall
  /-- EBREAK (R119): Takes a breakpoint trap with xtval = pc. -/
  | ebreak
  /-- SRET (R49): Returns from S-mode trap, re-running any recorded chain and continuing at vrpc or sepc. -/
  | sret
  /-- MRET (R49): Returns from M-mode trap on a die manager core, re-running any recorded chain. -/
  | mret
  /-- WFI (R119): Waits until an interrupt is pending, a qsel queue becomes non-empty, or a helper retires. -/
  | wfi
  /-- SFENCE_VMA (R119): Discards matching micro-TLB and lane-bank entries and orders page-table stores before translations. -/
  | sfenceVma (a b : Reg)
  /-- CSRRW (R135): Atomically reads and writes a CSR. -/
  | csrrw (d a : Reg) (c : BitVec 12)
  /-- CSRRS (R135): Reads a CSR and sets bits. -/
  | csrrs (d a : Reg) (c : BitVec 12)
  /-- CSRRC (R135): Reads a CSR and clears bits. -/
  | csrrc (d a : Reg) (c : BitVec 12)
  /-- CSRRWI (R135): Reads a CSR and writes an immediate. -/
  | csrrwi (d : Reg) (u : BitVec 5) (c : BitVec 12)
  /-- CSRRSI (R135): Reads a CSR and sets immediate bits. -/
  | csrrsi (d : Reg) (u : BitVec 5) (c : BitVec 12)
  /-- CSRRCI (R135): Reads a CSR and clears immediate bits. -/
  | csrrci (d : Reg) (u : BitVec 5) (c : BitVec 12)
  /-- LR_W (R123): Loads a word and places a reservation on its line. -/
  | lrW (d a : Reg) (aq rl : Bool)
  /-- LR_D (R123): Loads a dword and places a reservation on its line. -/
  | lrD (d a : Reg) (aq rl : Bool)
  /-- SC_W (R123): Stores a word if the reservation holds and reports success in rd. -/
  | scW (d a b : Reg) (aq rl : Bool)
  /-- SC_D (R123): Stores a dword if the reservation holds and reports success in rd. -/
  | scD (d a b : Reg) (aq rl : Bool)
  /-- AMOSWAP_W (R122): Atomic word swap at the home. -/
  | amoswapW (d a b : Reg) (aq rl : Bool)
  /-- AMOSWAP_D (R122): Atomic dword swap at the home. -/
  | amoswapD (d a b : Reg) (aq rl : Bool)
  /-- AMOADD_W (R122): Atomic word add. -/
  | amoaddW (d a b : Reg) (aq rl : Bool)
  /-- AMOADD_D (R122): Atomic dword add. -/
  | amoaddD (d a b : Reg) (aq rl : Bool)
  /-- AMOXOR_W (R122): Atomic word exclusive-or. -/
  | amoxorW (d a b : Reg) (aq rl : Bool)
  /-- AMOXOR_D (R122): Atomic dword exclusive-or. -/
  | amoxorD (d a b : Reg) (aq rl : Bool)
  /-- AMOCAS_W (R124): Atomic word compare-and-swap, rd being both compare value and result. -/
  | amocasW (d a b : Reg) (aq rl : Bool)
  /-- AMOCAS_D (R124): Atomic dword compare-and-swap. -/
  | amocasD (d a b : Reg) (aq rl : Bool)
  /-- AMOAND_W (R122): Atomic word and. -/
  | amoandW (d a b : Reg) (aq rl : Bool)
  /-- AMOAND_D (R122): Atomic dword and. -/
  | amoandD (d a b : Reg) (aq rl : Bool)
  /-- AMOOR_W (R122): Atomic word or. -/
  | amoorW (d a b : Reg) (aq rl : Bool)
  /-- AMOOR_D (R122): Atomic dword or. -/
  | amoorD (d a b : Reg) (aq rl : Bool)
  /-- AMOMIN_W (R122): Atomic word signed minimum. -/
  | amominW (d a b : Reg) (aq rl : Bool)
  /-- AMOMIN_D (R122): Atomic dword signed minimum. -/
  | amominD (d a b : Reg) (aq rl : Bool)
  /-- AMOMAX_W (R122): Atomic word signed maximum. -/
  | amomaxW (d a b : Reg) (aq rl : Bool)
  /-- AMOMAX_D (R122): Atomic dword signed maximum. -/
  | amomaxD (d a b : Reg) (aq rl : Bool)
  /-- AMOMINU_W (R122): Atomic word unsigned minimum. -/
  | amominuW (d a b : Reg) (aq rl : Bool)
  /-- AMOMINU_D (R122): Atomic dword unsigned minimum. -/
  | amominuD (d a b : Reg) (aq rl : Bool)
  /-- AMOMAXU_W (R122): Atomic word unsigned maximum. -/
  | amomaxuW (d a b : Reg) (aq rl : Bool)
  /-- AMOMAXU_D (R122): Atomic dword unsigned maximum. -/
  | amomaxuD (d a b : Reg) (aq rl : Bool)
  /-- BSUBNZ (R133): Subtracts xv from xs and branches if the result is positive. -/
  | bsubnz (a b : Reg) (off : BitVec 12)
  /-- VSETL (R131): Grants a strip length with block rounding and padding and sets FMT and BLK. -/
  | vsetl (d a : Reg) (fmt : BitVec 6) (blk : BitVec 3) (hint : BitVec 3)
  /-- VCFG (R27): Declares registers and grants VLEN, slots and annex from the pool share, resetting all vector state. -/
  | vcfg (d a : Reg) (nv : BitVec 3) (nd : BitVec 4) (w : BitVec 2)
  /-- VADD (R144): Element-wise add, kinds VV, VX, VI. -/
  | vadd (o : VaArgs)
  /-- VSUB (R144): Element-wise subtract. -/
  | vsub (o : VaArgs)
  /-- VRSUB (R144): Element-wise reverse subtract. -/
  | vrsub (o : VaArgs)
  /-- VMUL (R144): Element-wise multiply. -/
  | vmul (o : VaArgs)
  /-- VMULH (R145): High half of the integer product. -/
  | vmulh (o : VaArgs)
  /-- VDIV (R146): Element-wise division with defined zero and overflow results. -/
  | vdiv (o : VaArgs)
  /-- VREM (R146): Element-wise integer remainder. -/
  | vrem (o : VaArgs)
  /-- VMIN (R147): Element-wise minimum. -/
  | vmin (o : VaArgs)
  /-- VMAX (R147): Element-wise maximum. -/
  | vmax (o : VaArgs)
  /-- VSADD (R148): Saturating add. -/
  | vsadd (o : VaArgs)
  /-- VSSUB (R148): Saturating subtract. -/
  | vssub (o : VaArgs)
  /-- VAND (R149): Bitwise and. -/
  | vand (o : VaArgs)
  /-- VOR (R149): Bitwise or. -/
  | vor (o : VaArgs)
  /-- VXOR (R149): Bitwise exclusive-or. -/
  | vxor (o : VaArgs)
  /-- VSLL (R149): Logical left shift. -/
  | vsll (o : VaArgs)
  /-- VSRL (R149): Logical right shift. -/
  | vsrl (o : VaArgs)
  /-- VSRA (R149): Arithmetic right shift. -/
  | vsra (o : VaArgs)
  /-- VFMA (R150): Fused multiply-add with vd as addend, one rounding. -/
  | vfma (o : VaArgs)
  /-- VFMS (R150): Fused multiply-subtract. -/
  | vfms (o : VaArgs)
  /-- VFNMA (R150): Negated fused multiply-add. -/
  | vfnma (o : VaArgs)
  /-- VSGNJ (R151): Sign injection from b. -/
  | vsgnj (o : VaArgs)
  /-- VSGNJN (R151): Sign injection from inverted b. -/
  | vsgnjn (o : VaArgs)
  /-- VSGNJX (R151): Sign injection by exclusive-or. -/
  | vsgnjx (o : VaArgs)
  /-- VCEQ (R152): Writes mask bits for equality. -/
  | vceq (o : VaArgs)
  /-- VCNE (R152): Writes mask bits for inequality. -/
  | vcne (o : VaArgs)
  /-- VCLT (R152): Writes mask bits for less-than. -/
  | vclt (o : VaArgs)
  /-- VCLE (R152): Writes mask bits for less-or-equal. -/
  | vcle (o : VaArgs)
  /-- VCGT (R152): Writes mask bits for greater-than. -/
  | vcgt (o : VaArgs)
  /-- VCGE (R152): Writes mask bits for greater-or-equal. -/
  | vcge (o : VaArgs)
  /-- VMERGE (R153): Selects s or vs2 per element by v0. -/
  | vmerge (o : VaArgs)
  /-- VMV (R154): Copies s into active elements. -/
  | vmv (o : VaArgs)
  /-- VSLIDEUP (R156): Slides vs2 up by an offset. -/
  | vslideup (o : VaArgs)
  /-- VSLIDEDOWN (R156): Slides vs2 down by an offset, reading zeros beyond the data. -/
  | vslidedown (o : VaArgs)
  /-- VGATHER (R157): Gathers elements of vs2 by index. -/
  | vgather (o : VaArgs)
  /-- VCOMPRESS (R158): Packs elements selected by the mask in vs1. -/
  | vcompress (o : VvArgs)
  /-- VMAND (R159): Mask and. -/
  | vmand (o : VvArgs)
  /-- VMOR (R159): Mask or. -/
  | vmor (o : VvArgs)
  /-- VMXOR (R159): Mask exclusive-or. -/
  | vmxor (o : VvArgs)
  /-- VMANDN (R159): Mask and-not. -/
  | vmandn (o : VvArgs)
  /-- VSQRT (R161): Correctly rounded square root. -/
  | vsqrt (o : VuArgs)
  /-- VRCP (R161): Correctly rounded reciprocal. -/
  | vrcp (o : VuArgs)
  /-- VRSQRT (R161): Correctly rounded reciprocal square root. -/
  | vrsqrt (o : VuArgs)
  /-- VEXP2 (R161): Correctly rounded 2^x. -/
  | vexp2 (o : VuArgs)
  /-- VLOG2 (R161): Correctly rounded log2 x. -/
  | vlog2 (o : VuArgs)
  /-- VSIN (R161): Correctly rounded sin(pi x). -/
  | vsin (o : VuArgs)
  /-- VCOS (R161): Correctly rounded cos(pi x). -/
  | vcos (o : VuArgs)
  /-- VTANH (R161): Correctly rounded tanh x. -/
  | vtanh (o : VuArgs)
  /-- VCLASS (R162): Writes a one-hot class mask per element. -/
  | vclass (o : VuArgs)
  /-- VABS (R163): Absolute value. -/
  | vabs (o : VuArgs)
  /-- VNEG (R163): Negation. -/
  | vneg (o : VuArgs)
  /-- VID (R164): Writes each active element's index. -/
  | vid (o : VuArgs)
  /-- VMPOP (R165): Counts set mask bits into an x register. -/
  | vmpop (o : VuArgs)
  /-- VMFIRST (R165): Writes the index of the first set mask bit, or -1. -/
  | vmfirst (o : VuArgs)
  /-- VMVXS (R166): Moves element 0 to an x register. -/
  | vmvxs (o : VuArgs)
  /-- VMVSX (R166): Moves an x register into element 0. -/
  | vmvsx (o : VuArgs)
  /-- VCVT (R167): Converts each element from vtype's format to the target format. -/
  | vcvt (o : VcArgs)
  /-- VBDOT (R173): Block-scaled dot product accumulated into vd bits [31:0]. -/
  | vbdot (o : VvArgs)
  /-- VBEXP (R171): Computes block scales of FP32 data. -/
  | vbexp (o : VuArgs)
  /-- VBPACK (R172): Quantises FP32 data into block-scaled elements and companion scales. -/
  | vbpack (o : VuArgs)
  /-- VREDSUM (R192): Sum reduction in normal or canonical order into vd[0]. -/
  | vredsum (o : VaArgs)
  /-- VREDMIN (R192): Minimum reduction. -/
  | vredmin (o : VaArgs)
  /-- VREDMAX (R192): Maximum reduction. -/
  | vredmax (o : VaArgs)
  /-- VSCAN (R193): Inclusive running sums in sequential order. -/
  | vscan (o : VaArgs)
  /-- VLD (R179): Unit-stride vector load. -/
  | vld (o : VmArgs)
  /-- VLD_ST (R179): Strided vector load using vstride. -/
  | vldSt (o : VmArgs)
  /-- VLD_IX (R179): Indexed vector load after a probe pass. -/
  | vldIx (o : VmArgs)
  /-- VAMOADD (R189): Per-element atomic add at the home, returning old values. -/
  | vamoadd (o : VamoArgs)
  /-- VAMOMIN (R189): Per-element atomic minimum. -/
  | vamomin (o : VamoArgs)
  /-- VAMOMAX (R189): Per-element atomic maximum. -/
  | vamomax (o : VamoArgs)
  /-- VAMOSWAP (R189): Per-element atomic swap. -/
  | vamoswap (o : VamoArgs)
  /-- VST (R179): Unit-stride vector store, optionally notifying a progress word. -/
  | vst (o : VmArgs)
  /-- VST_ST (R179): Strided vector store, optionally notifying. -/
  | vstSt (o : VmArgs)
  /-- VST_IX (R179): Indexed vector store after a probe pass. -/
  | vstIx (o : VmArgs)
  /-- MCFG (R198): Sets the core's matrix configuration in queue order, or faults. -/
  | mcfg (l : BitVec 4) (a : Reg)
  /-- MOPA (R201): Queues an 8x8 outer-product accumulation into a tile. -/
  | mopa (l : BitVec 4) (t : TileNo) (a b : Reg)
  /-- MZERO (R206): Queues zeroing of a tile. -/
  | mzero (l : BitVec 4) (t : TileNo)
  /-- MLD (R207): Queues a tile load from scratchpad rows. -/
  | mld (l : BitVec 4) (t : TileNo) (a b : Reg)
  /-- MST (R208): Queues a tile store to scratchpad rows. -/
  | mst (l : BitVec 4) (t : TileNo) (a b : Reg)
  /-- MST_REL (R208): Queues a tile store and frees the tile at issue. -/
  | mstRel (l : BitVec 4) (t : TileNo) (a b : Reg)
  /-- MRELEASE (R206): Frees a tile, zeroing it in queue order. -/
  | mrelease (l : BitVec 4) (t : TileNo)
  /-- MWAIT (R209): Waits until earlier commands naming the tile have finished. -/
  | mwait (l : BitVec 4) (t : TileNo)
  /-- MWEXP (R200): Sets block lengths and scale offset in queue order. -/
  | mwexp (l : BitVec 4) (a b : Reg)
  /-- DADD (R224): Adds distributions with independent or dependent coupling and condenses. -/
  | dadd (l : BitVec 4) (d a b : DReg8)
  /-- DSUB (R224): Subtracts distributions. -/
  | dsub (l : BitVec 4) (d a b : DReg8)
  /-- DMUL (R224): Multiplies distributions. -/
  | dmul (l : BitVec 4) (d a b : DReg8)
  /-- DMAX (R224): Maximum of distributions. -/
  | dmax (l : BitVec 4) (d a b : DReg8)
  /-- DMIN (R224): Minimum of distributions. -/
  | dmin (l : BitVec 4) (d a b : DReg8)
  /-- DMIX (R225): Mixes dd and da with probability from x[xb]. -/
  | dmix (l : BitVec 4) (d a : DReg8) (b : Reg)
  /-- DSCALE (R226): Applies a·X + b to each element. -/
  | dscale (l : BitVec 4) (d : DReg8) (a b : Reg)
  /-- DCOND (R227): Conditions da on X at or below vb. -/
  | dcond (l : BitVec 4) (d a : DReg8) (b : Reg)
  /-- DTAG (R228): Writes a register's tag set. -/
  | dtag (l : BitVec 4) (d : DReg8) (a : Reg)
  /-- DPOINT (R229): Makes point masses from a vector. -/
  | dpoint (l : BitVec 4) (d : DReg8) (a : Reg)
  /-- DGAUSS (R230): Makes eight-point Gaussians from mean and deviation. -/
  | dgauss (l : BitVec 4) (d : DReg8) (a b : Reg)
  /-- DMOM (R231): Writes the mean or a central moment. -/
  | dmom (l : BitVec 4) (d : Reg) (a : DReg8) (k : BitVec 2)
  /-- DQNT (R232): Writes a quantile. -/
  | dqnt (l : BitVec 4) (d : Reg) (a : DReg8) (b : Reg)
  /-- DCDF (R233): Writes cumulative weight at or below vb. -/
  | dcdf (l : BitVec 4) (d : Reg) (a : DReg8) (b : Reg)
  /-- DLD (R235): Loads distribution elements from memory. -/
  | dld (l : BitVec 4) (d : DReg8) (a : Reg)
  /-- DST (R235): Stores distribution elements to memory. -/
  | dst (l : BitVec 4) (d : DReg8) (a : Reg)
  /-- XBOX (R243): Conservative ray-box slab tests per record. -/
  | xbox (l : BitVec 4) (d a b : Reg)
  /-- XTRI (R244): Exact ray-triangle tests per record. -/
  | xtri (l : BitVec 4) (d a b : Reg)
  /-- XEDGE (R245): Edge-equation coverage of an 8x8 tile into a mask. -/
  | xedge (l : BitVec 4) (d a b : Reg)
  /-- VDEDUP (R246): Groups samples by shading slot into plane records. -/
  | vdedup (l : BitVec 4) (d a b : Reg)
  /-- TFETCH (R249): Filtered texture fetch per record through a descriptor. -/
  | tfetch (l : BitVec 4) (d a b : Reg)
  /-- TGRAD (R251): Computes level of detail, anisotropy and axis for tfetch records. -/
  | tgrad (l : BitVec 4) (d a b : Reg)
  /-- GFEAT (R253): Feature-grid lookup writing block-scaled panel rows to scratchpad. -/
  | gfeat (l : BitVec 4) (d a b : Reg)
  /-- ZCOMMIT (R256): Offers one colour commit to the owner's commit unit and completes on acceptance. -/
  | zcommit (l : BitVec 4) (a b : Reg)
  /-- TRACE (R259): Allocates a ray slot and starts traversal or records DEPTH_REFUSED. -/
  | trace (l : BitVec 4) (d a b : Reg)
  /-- RWAIT (R263): Returns the slot of the oldest unreturned completion, waiting if rays are outstanding. -/
  | rwait (l : BitVec 4) (d : Reg)
  /-- RGET (R263): Reads a slot's completion record and frees the slot. -/
  | rget (l : BitVec 4) (d a : Reg)
  /-- RHIT (R261): Returns a verdict for a candidate named by token. -/
  | rhit (l : BitVec 4) (a b : Reg)
  /-- RCANCEL (R264): Cancels an outstanding ray. -/
  | rcancel (l : BitVec 4) (a : Reg)
  /-- HSTART (R267): Starts a helper from a task record on a hardware context, or returns a refusal status. -/
  | hstart (l : BitVec 4) (d a b : Reg)
  /-- HJOIN (R269): Waits for helper retirement by selector. -/
  | hjoin (l : BitVec 4) (a : Reg)
  /-- HEXIT (R270): Marks the task done if needed, drains, cancels rays and retires the helper. -/
  | hexit (l : BitVec 4)
  /-- HYIELD (R271): Passes the hardware context over in issue selection for a while. -/
  | hyield (l : BitVec 4)
  /-- QPUT (R272): Queues a task record, forwards it, or refuses it. -/
  | qput (l : BitVec 4) (d a : Reg)
  /-- QTAKE (R273): Takes the first eligible task by search order, waiting if none. -/
  | qtake (l : BitVec 4) (d a : Reg)
  /-- QSTEAL (R274): Makes one stealing pass without waiting. -/
  | qsteal (l : BitVec 4) (d a : Reg)
  /-- QDONE (R275): Marks the task done, releases continuations and reports its code. -/
  | qdone (l : BitVec 4) (a : Reg)
  /-- BAR (R277): Arrives if not pending and waits for the phase. -/
  | bar (l : BitVec 4) (a : Reg) (scope : BitVec 3)
  /-- BARR (R277): Arrives at a barrier domain without waiting. -/
  | barr (l : BitVec 4) (a : Reg) (scope : BitVec 3)
  /-- BARW (R277): Waits until the pending arrival's phase completes. -/
  | barw (l : BitVec 4) (a : Reg) (scope : BitVec 3)
  /-- RINIT (R278): Initialises a ring from a scratchpad descriptor. -/
  | rinit (l : BitVec 4) (a b : Reg)
  /-- RAWAIT (R280): Waits until the read slot is filled and returns its address. -/
  | rawait (l : BitVec 4) (d a : Reg)
  /-- RREL (R281): Releases the read slot and advances rptr. -/
  | rrel (l : BitVec 4) (a : Reg)
  /-- SBIND (R284): Binds a pattern descriptor to a port queue. -/
  | sbind (l : BitVec 4) (a b : Reg)
  /-- SJOB (R286): Submits a job card to the footprint table and returns its number. -/
  | sjob (l : BitVec 4) (d a : Reg)
  /-- SWAIT (R287): Waits for a job's completion as an acquire. -/
  | swait (l : BitVec 4) (a : Reg)
  /-- SCOLL (R288): Submits a collective job card. -/
  | scoll (l : BitVec 4) (d a : Reg)
  /-- LDACQ (R126): Acquire load at a scope, draining lazy releases at .mod and wider. -/
  | ldacq (l : BitVec 4) (d a : Reg) (w : BitVec 2) (scope : BitVec 3)
  /-- STREL (R127): Release store at a scope, lazy at .mod and wider. -/
  | strel (l : BitVec 4) (d a : Reg) (w : BitVec 2) (scope : BitVec 3)
  /-- OFENCE (R129): Orders predecessor access kinds before successor kinds at a scope. -/
  | ofence (l : BitVec 4) (pred succ : BitVec 4) (scope : BitVec 3)
  /-- C_ADDI4SPN (R120): Compressed add of scaled immediate to sp. -/
  | cAddi4spn
  /-- C_LW (R120): Compressed word load. -/
  | cLw
  /-- C_LD (R120): Compressed dword load. -/
  | cLd
  /-- C_SW (R120): Compressed word store. -/
  | cSw
  /-- C_SD (R120): Compressed dword store. -/
  | cSd
  /-- C_ADDI (R120): Compressed add immediate. -/
  | cAddi
  /-- C_NOP (R120): Compressed no-op. -/
  | cNop
  /-- C_ADDIW (R120): Compressed 32-bit add immediate. -/
  | cAddiw
  /-- C_LI (R120): Compressed load immediate. -/
  | cLi
  /-- C_ADDI16SP (R120): Compressed adjust of sp. -/
  | cAddi16sp
  /-- C_LUI (R120): Compressed load upper immediate. -/
  | cLui
  /-- C_SRLI (R120): Compressed logical right shift. -/
  | cSrli
  /-- C_SRAI (R120): Compressed arithmetic right shift. -/
  | cSrai
  /-- C_ANDI (R120): Compressed and immediate. -/
  | cAndi
  /-- C_SUB (R120): Compressed subtract. -/
  | cSub
  /-- C_XOR (R120): Compressed exclusive-or. -/
  | cXor
  /-- C_OR (R120): Compressed or. -/
  | cOr
  /-- C_AND (R120): Compressed and. -/
  | cAnd
  /-- C_SUBW (R120): Compressed 32-bit subtract. -/
  | cSubw
  /-- C_ADDW (R120): Compressed 32-bit add. -/
  | cAddw
  /-- C_J (R120): Compressed jump. -/
  | cJ
  /-- C_BEQZ (R120): Compressed branch if zero. -/
  | cBeqz
  /-- C_BNEZ (R120): Compressed branch if non-zero. -/
  | cBnez
  /-- C_SLLI (R120): Compressed left shift. -/
  | cSlli
  /-- C_LWSP (R120): Compressed sp-relative word load. -/
  | cLwsp
  /-- C_LDSP (R120): Compressed sp-relative dword load. -/
  | cLdsp
  /-- C_JR (R120): Compressed jump to register. -/
  | cJr
  /-- C_MV (R120): Compressed register move. -/
  | cMv
  /-- C_EBREAK (R120): Compressed breakpoint. -/
  | cEbreak
  /-- C_JALR (R120): Compressed jump and link to register. -/
  | cJalr
  /-- C_ADD (R120): Compressed add. -/
  | cAdd
  /-- C_SWSP (R120): Compressed sp-relative word store. -/
  | cSwsp
  /-- C_SDSP (R120): Compressed sp-relative dword store. -/
  | cSdsp
  /-- HINT (R85): A RISC-V HINT encoding executes as a no-op without reading sources. -/
  | hint
  /-- ILLEGAL_INSTRUCTION (R101): An undefined, reserved or malformed encoding takes an illegal-instruction trap with the word in xtval. -/
  | illegalInstruction
  /-- ANNEX_SWAP (R30): After in-flight work drains, victims are written to the annex and named registers swapped in before the instruction issues; operand: the registers named by the instruction about to issue. -/
  | annexSwap (h : HartId) (names : List RegName)
  /-- ELEMENT_GROUP_EXECUTE (R39): The sequencer executes the next ready element group of the oldest chain member in one cycle. -/
  | elementGroupExecute (h : HartId)
  /-- MATRIX_COMMAND_EXECUTE (R203): The matrix unit, on the arbiter's visit, executes one queued tile operation of a core. -/
  | matrixCommandExecute (core : Nat)
  /-- DISTRIBUTION_ELEMENT (R237): The core's condenser processes one element of a distribution instruction in its round-robin turn. -/
  | distributionElement (h : HartId)
  /-- COMMIT_REOFFER (R256): A back-pressured zcommit offers its commit again when a reorder entry frees or a ticket is blended or voided. -/
  | commitReoffer (h : HartId)
  /-- RAY_TRAVERSAL (R260): The traversal unit advances a ray depth-first through nodes, testing candidates and queuing shader tasks. -/
  | rayTraversal (h : HartId) (slot : Nat)
  /-- QTAKE_WAKE (R305): A waiting qtake restarts its search when a searched queue gains an eligible task. -/
  | qtakeWake (h : HartId)
  /-- OWNED_LINE_DRAIN (R332): At the home's request a releasing die writes back its owned dirty lines up to the record tick and reports. -/
  | ownedLineDrain (die : Nat) (tick : Tick)
  /-- INTERRUPT (R290): The control context takes a pending enabled interrupt at an instruction boundary, stopping in-flight work. -/
  | interrupt (core : Nat)
  /-- STORE_PERFORMED (R318): A pending store leaves the store buffer and is performed in the die's coherent memory. -/
  | storePerformed (core : Nat)
  /-- LINE_WRITEBACK (R327): An owning die writes an owned line back to its home on eviction or recall, ending ownership. -/
  | lineWriteback (line : Nat)
  /-- DIRTY_LINE_TIMEOUT (R327): A line dirty for 16,384 cc is written back to its home. -/
  | dirtyLineTimeout (line : Nat)
  /-- TICK_ADVANCE (R322): Every 1,024 cc each core's program tick advances by one. -/
  | tickAdvance
  /-- HORIZON_BROADCAST (R328): Every 1,024 cc dies report ticks and the module horizon is computed, broadcast and ticks clamped. -/
  | horizonBroadcast
  /-- CXLMEM_READ (R339): A host CXL.mem read is performed at the line's home. -/
  | cxlmemRead (pa : Nat) (bytes : Nat)
  /-- CXLMEM_WRITE (R339): A host CXL.mem write is performed at the home and then completed. -/
  | cxlmemWrite (pa : Nat) (data : List Byte)
  /-- POD_WRITE_ARRIVAL (R397): A write over a pod port is accepted and performed or dropped; operand: the sender's coordinate and tag, and the write, with the module and context it is bound for. -/
  | podWriteArrival (x y z : Nat) (srcTag : Nat) (dest : PodDest) (va : Word) (data : List Byte)
  /-- PATTERN_START (R341): The dispatcher starts the oldest queued pattern of a free port, ending it RING_UNSET if its ring is uninitialised. -/
  | patternStart (core port : Nat)
  /-- TILE_DELIVER (R343): The streamer reads, fills and writes one tile, filling a ring slot or fabric bytes, and posts progress. -/
  | tileDeliver (core port : Nat)
  /-- JOB_START (R350): An idle streamer takes a ready job card by its stealing order and starts it. -/
  | jobStart (die quad : Nat)
  /-- JOB_COMPLETE (R287): A job whose writes are performed writes its done dword and releases its footprint. -/
  | jobComplete (die tag : Nat) (job : Word)
  /-- COLLECTIVE_ROUND (R351): The collective unit combines a round's member inputs and writes outputs. -/
  | collectiveRound (tag group : Nat)
  /-- ENGINE_FAULT_SERVICE (R392): Firmware services an engine or traversal translation fault, retrying or ending the work FAULTED. -/
  | engineFaultService (die : Nat)
  /-- PRIMITIVE_ACCEPT (R356): The pass accepts or discards a submitted primitive record and advances closure. -/
  | primitiveAccept (h : HartId)
  /-- INBOX_RELEASE (R358): An owner's inbox releases the next record into its ring slot. -/
  | inboxRelease (tag pass owner : Nat)
  /-- COMMIT_LOG_POLL (R360): The commit unit reads lwp and takes published log entries, at least every 64 cc. -/
  | commitLogPoll (tag pass owner : Nat)
  /-- LAUNCH_DELIVERY (R408): Root tasks of a launch are queued, waiting while partitions are full. -/
  | launchDelivery (tag : Nat) (launch : Nat)
  /-- LAUNCH_COMPLETE (R409): When a launch's outstanding count returns to zero after close, the done record and LAUNCH_DONE are written. -/
  | launchComplete (tag : Nat) (launch : Nat)
  /-- SLICE_END (R400): A resident cluster reaching its slice lets the sequencer pre-empt and reassign it. -/
  | sliceEnd (die cluster : Nat)
  /-- CLUSTER_IDLE (R400): A cluster idle for 4,096 cc may be saved and freed for a waiting context. -/
  | clusterIdle (die cluster : Nat)
  /-- CONTEXT_RUNNABLE (R400): A context becoming runnable on a die gets a free cluster or pre-empts a lower-priority one. -/
  | contextRunnable (tag die : Nat)
  /-- IMAGE_RESTORE (R402): After the outgoing save, a saved image is restored onto a qualifying cluster of its die. -/
  | imageRestore (tag image die cluster : Nat)
  /-- CONTEXT_FAULT (R440): Uncorrectable data owned by a context but not consumed faults the context, saving its images. -/
  | contextFault (tag kind die lcore : Nat) (value : Word)
  /-- CORE_FAILED (R434): A core whose corrected or uncorrectable error count reaches its limit is marked failed and its image moved. -/
  | coreFailed (core : Nat)
  /-- SENTINEL_RUN (R435): Every 6 hours each class of each core is tested, fencing on failure and restoring after three passes; operand: whether the part computed the stored answers. -/
  | sentinelRun (core cls : Nat) (passed : Bool)
  /-- QUARANTINE_SENTINEL (R435): Within 10 minutes of a quarantine, sentinels fence or lift the quarantined classes; operand: whether the part computed the stored answers. -/
  | quarantineSentinel (core cls : Nat) (passed : Bool)
  /-- SHADOW_DROP (R437): A shadow copy not taken within 2^20 resident cc is dropped. -/
  | shadowDrop (die : Nat)
  /-- SHADOW_SEED_CHANGE (R437): Firmware changes each die's shadow selection seed every hour; operand: the seed firmware picked. -/
  | shadowSeedChange (die : Nat) (seed : Nat)
  /-- HBM_SCRUB (R438): Each die scrubs its HBM stack every 12 hours; operand: corrected errors it met. -/
  | hbmScrub (die : Nat) (corrected : Nat)
  /-- L2_SCRUB (R438): Each die scrubs its L2 every hour; operand: corrected errors it met. -/
  | l2Scrub (die : Nat) (corrected : Nat)
  /-- LINK_RETRY (R438): A flit with a CRC error on a die-to-die or pod link is retransmitted. -/
  | linkRetry (link : Nat)
  /-- LINK_DOWN (R441): After 16 failed retries of a flit the link is taken down and traffic rerouted. -/
  | linkDown (link : Nat)
  /-- CXL_LINK_DOWN (R438): An unrecoverable CXL link error is reported down to the host. -/
  | cxlLinkDown
  /-- CREATE (R381): Creates a context from a template and parameter block. -/
  | create (c : Cmd)
  /-- DESTROY (R382): Destroys a context, discarding its work, lines and frames. -/
  | destroy (c : Cmd)
  /-- LAUNCH (R407): Opens or extends a launch with root tasks. -/
  | launch (c : Cmd)
  /-- SETSCHED (R377): Sets a context's priority and slice. -/
  | setsched (c : Cmd)
  /-- OPEN_PASS (R353): Opens a render pass from a pass descriptor. -/
  | openPass (c : Cmd)
  /-- CLOSE_PASS (R377): Closes a render pass, releasing the inbox ring lock. -/
  | closePass (c : Cmd)
  /-- ALLOC_DOMAIN (R308): Allocates a barrier domain or sets N. -/
  | allocDomain (c : Cmd)
  /-- FREE_DOMAIN (R308): Frees a barrier domain with zero arrivals. -/
  | freeDomain (c : Cmd)
  /-- ALLOC_GROUP (R398): Allocates a collective group from a member list. -/
  | allocGroup (c : Cmd)
  /-- FREE_GROUP (R377): Frees a collective group. -/
  | freeGroup (c : Cmd)
  /-- MAP (R388): Maps a range with attributes, physical or allocated. -/
  | map (c : Cmd)
  /-- UNMAP (R388): Removes whole leaves in a range. -/
  | unmap (c : Cmd)
  /-- PROTECT (R388): Changes permissions of whole leaves in a range. -/
  | protect (c : Cmd)
  /-- PAGE (R391): Services a page fault by backing, copying on write, or replying FATAL or NO_MEMORY. -/
  | page (c : Cmd)
  /-- NOTIFY (R377): Sets SSIP on a logical core's control context. -/
  | notify (c : Cmd)
  /-- TEMPLATE_MAKE (R379): Turns an idle source context into a template. -/
  | templateMake (c : Cmd)
  /-- TEMPLATE_DROP (R379): Drops a template with no derived context. -/
  | templateDrop (c : Cmd)
  /-- ATTEST (R455): Draws a challenge and writes a signed attestation report. -/
  | attest (c : Cmd)
  /-- FW_STAGE (R454): Verifies and stages a firmware image for the next reset. -/
  | fwStage (c : Cmd)
  /-- LIFECYCLE (R452): Performs an authorised life-cycle transition as a reset. -/
  | lifecycle (c : Cmd)
  /-- RESET (R446): Writing CONTROL.RESET resets the module. -/
  | reset
  /-- RESYNC (R450): Writing CONTROL.RESYNC drains commands, writes the inventory and zeroes the ring pointers. -/
  | resync
  /-- QEN (R448): Writing CONTROL.QEN enables or disables command-ring reading and completion posting. -/
  | qen (on : Bool)
  /-- START (R447): Writing CONTROL.START negotiates features, reads the pod map and sets STARTED. -/
  | start
  /-- POWERCAP (R443): A POWERCAP write stores the power cap clamped to 50–300. -/
  | powercap (v : Word)
  /-- REGISTER_WRITE (R443): A write to another management register stores its field or is ignored as the register's access allows. -/
  | registerWrite (off : Nat) (v : Word)
  /-- POWER_ON (R446): Power-on resets the module. -/
  | powerOn
  /-- CXL_RESET (R446): A CXL reset of the link resets the module. -/
  | cxlReset
  /-- RESET_COMPLETE (R446): After wipe, self test, record load and link training, READY becomes 1. -/
  | resetComplete
  /-- POWER_CONTROL (R456): Every 1 ms firmware lowers or raises the operating point against POWERCAP; operand: the module draw in units of 10 W. -/
  | powerControl (draw : Nat)
  /-- THERMAL_THROTTLE (R457): A die above 95 °C runs at 425 MHz until below 90 °C; operand: the temperature in 1/16 degree C. -/
  | thermalThrottle (die : Nat) (temp : Nat)
  /-- THERMAL_STOP (R457): A die above 105 °C stops the module and faults every context; operand: the temperature in 1/16 degree C. -/
  | thermalStop (die : Nat) (temp : Nat)
  /-- GRAPHICS_RECORD_EXECUTE (R241): The quad's traversal unit or texture and feature-grid unit completes one record of an xbox, xtri, tfetch, tgrad or gfeat instruction. -/
  | graphicsRecordExecute (h : HartId)
  /-- CXL_CACHE_SNOOP (R338): A host access to a host-memory line held in the I/O die's host-line cache is served through CXL.cache, keeping one order of stores to the line; operand: the bytes the host stores there; none for a host load. -/
  | cxlCacheSnoop (pa : Nat) (data : List Byte)
  /-- DIE_TEMPERATURE_FALL (R457): A die's temperature falls below 90 °C, ending its 425 MHz throttle, or below 70 °C, letting a reset end a thermal stop; operand: the temperature in 1/16 degree C. -/
  | dieTemperatureFall (die : Nat) (temp : Nat)
  /-- CORR_HOUR_END (R432): At the end of each hour, firmware starts a new count in each core record's corr field of corrected errors for the current hour. -/
  | corrHourEnd
deriving DecidableEq, Repr

/-- A step of another agent, as the agenda holds it: the rows of Instr that are no instruction, each with its own
operands. -/
inductive Event where
  | annexSwap (h : HartId) (names : List RegName)
  | elementGroupExecute (h : HartId)
  | matrixCommandExecute (core : Nat)
  | distributionElement (h : HartId)
  | commitReoffer (h : HartId)
  | rayTraversal (h : HartId) (slot : Nat)
  | qtakeWake (h : HartId)
  | ownedLineDrain (die : Nat) (tick : Tick)
  | interrupt (core : Nat)
  | storePerformed (core : Nat)
  | lineWriteback (line : Nat)
  | dirtyLineTimeout (line : Nat)
  | tickAdvance
  | horizonBroadcast
  | cxlmemRead (pa : Nat) (bytes : Nat)
  | cxlmemWrite (pa : Nat) (data : List Byte)
  | podWriteArrival (x y z : Nat) (srcTag : Nat) (dest : PodDest) (va : Word) (data : List Byte)
  | patternStart (core port : Nat)
  | tileDeliver (core port : Nat)
  | jobStart (die quad : Nat)
  | jobComplete (die tag : Nat) (job : Word)
  | collectiveRound (tag group : Nat)
  | engineFaultService (die : Nat)
  | primitiveAccept (h : HartId)
  | inboxRelease (tag pass owner : Nat)
  | commitLogPoll (tag pass owner : Nat)
  | launchDelivery (tag : Nat) (launch : Nat)
  | launchComplete (tag : Nat) (launch : Nat)
  | sliceEnd (die cluster : Nat)
  | clusterIdle (die cluster : Nat)
  | contextRunnable (tag die : Nat)
  | imageRestore (tag image die cluster : Nat)
  | contextFault (tag kind die lcore : Nat) (value : Word)
  | coreFailed (core : Nat)
  | sentinelRun (core cls : Nat) (passed : Bool)
  | quarantineSentinel (core cls : Nat) (passed : Bool)
  | shadowDrop (die : Nat)
  | shadowSeedChange (die : Nat) (seed : Nat)
  | hbmScrub (die : Nat) (corrected : Nat)
  | l2Scrub (die : Nat) (corrected : Nat)
  | linkRetry (link : Nat)
  | linkDown (link : Nat)
  | cxlLinkDown
  | create (c : Cmd)
  | destroy (c : Cmd)
  | launch (c : Cmd)
  | setsched (c : Cmd)
  | openPass (c : Cmd)
  | closePass (c : Cmd)
  | allocDomain (c : Cmd)
  | freeDomain (c : Cmd)
  | allocGroup (c : Cmd)
  | freeGroup (c : Cmd)
  | map (c : Cmd)
  | unmap (c : Cmd)
  | protect (c : Cmd)
  | page (c : Cmd)
  | notify (c : Cmd)
  | templateMake (c : Cmd)
  | templateDrop (c : Cmd)
  | attest (c : Cmd)
  | fwStage (c : Cmd)
  | lifecycle (c : Cmd)
  | reset
  | resync
  | qen (on : Bool)
  | start
  | powercap (v : Word)
  | registerWrite (off : Nat) (v : Word)
  | powerOn
  | cxlReset
  | resetComplete
  | powerControl (draw : Nat)
  | thermalThrottle (die : Nat) (temp : Nat)
  | thermalStop (die : Nat) (temp : Nat)
  | graphicsRecordExecute (h : HartId)
  | cxlCacheSnoop (pa : Nat) (data : List Byte)
  | dieTemperatureFall (die : Nat) (temp : Nat)
  | corrHourEnd
deriving DecidableEq, Repr

end Sys2Proof
end

