-- ==== Sys2Proof/Machine/State.lean ====
section
/-! DEFINITION. The state of the module (R17 to R34, R196 to R215, R263, R296 to R310, R313 to R329, R340 to R365,
R374 to R405, R431 to R459), the reasons a step can stop, and the state after reset. Plain data throughout; a table
that does not list a unit stands for that unit at its reset value. -/

namespace Sys2Proof.Machine

/-- The privilege modes (R17, R119). -/
inductive Mode where
  | u
  | s
  | m
deriving DecidableEq, Repr

/-- A byte's place: a physical address (R314), or a byte of a physical core's scratchpad (R315). -/
inductive Loc where
  | phys (pa : Nat)
  | scratch (core : Nat) (off : Nat)
deriving DecidableEq, Repr

/-- A synchronous trap: its cause and what it writes to xtval (R291). -/
structure Trap where
  cause : Nat
  tval : Word
deriving DecidableEq, Repr

/-- One slot of a distribution element: its FP32 value and its UQ16 weight (R217). -/
structure Point where
  v : BitVec 32
  w : BitVec 16
deriving DecidableEq, Repr

/-- A distribution element: eight slots (R217). -/
abbrev DElem := List Point

/-- A translation-cache entry: tag, first virtual address, size in bytes, and the leaf (R386, R387). -/
structure TlbEntry where
  tag : Nat
  va : Nat
  size : Nat
  pte : Word
deriving DecidableEq, Repr

/-- An instruction in flight, or stopped and recorded: its instruction, its address, the scalars and controls it
captured at issue (R46), the stopping point at which it goes on and the elements it has done beyond it, which are not
repeated (R45, R328), the lanes' partial results of a reduction (R195), the descriptor or record that a graphics
instruction read at issue (R247, R252, R255; a stopped one reads it again), the translations its accesses use (R183 to
R185), whether its pages have been probed, the first element that the probe pass found to fault and its trap (R184, R186), and
a number that tells flights of a hardware context apart. -/
structure Flight where
  id : Nat
  instr : Instr
  pc : Word
  xa : Word
  xb : Word
  vl : Nat
  vpad : Nat
  vtype : Word
  vstride : Word
  seed : Word
  idx : Nat
  sub : Nat
  carry : Option (List (Option Nat))
  desc : List Byte
  pages : List TlbEntry
  probed : Bool
  probeTrap : Option (Nat × Trap)
deriving DecidableEq, Repr

/-- A lookahead window that is open: its instruction's number among the flights, the instructions left in it, and the
registers of its instruction (R41, R42). -/
structure Window where
  id : Nat
  left : Nat
  reads : List RegName
  writes : List RegName
  masked : Bool
deriving DecidableEq, Repr

/-- Where a register annex lies (R29). -/
structure Annex where
  place : Loc
  bytes : Nat
deriving DecidableEq, Repr

/-- A reservation: the 128-byte line, by the place of its first byte (R123). -/
structure Reservation where
  line : Loc
deriving DecidableEq, Repr

/-- A task record as read from memory (R266). -/
structure TaskRec where
  entry : Word
  arg : Word
  kernel : BitVec 32
  key : BitVec 32
  ticket : BitVec 32
  ctl : BitVec 8
  domain : BitVec 8
deriving DecidableEq, Repr

/-- What a queued task keeps of its kernel's entry (R414). -/
structure KernelFacts where
  opmask : Word
  scratch : Nat
  ringbytes : Nat
  raydepth : Nat
  payload : Nat
deriving DecidableEq, Repr

/-- The ray whose shader a task is: the tracing hardware context, its slot, the number of the trace, the candidate's
token, and which shader (0 any-hit, 1 intersection, 2 closest-hit, 3 miss) (R260). -/
structure RayLink where
  lcore : Nat
  h : Nat
  slot : Nat
  uid : Nat
  token : Nat
  kind : Nat
deriving DecidableEq, Repr

/-- Where a queued task waits (R299). -/
inductive Queue where
  | quad (die quad : Nat)
  | die (die : Nat)
deriving DecidableEq, Repr

/-- A task: its record and kernel facts, its launch and sequence number, the resident cycles it had waited when it
last came to a die and the die's resident count then (R302), its queue, the helper whose completion a held
continuation awaits, its ray, and its done mark (R436). -/
structure Task where
  tr : TaskRec
  facts : KernelFacts
  launch : Nat
  seq : Nat
  waited : Nat
  since : Nat
  queue : Queue
  heldBy : Option Nat
  ray : Option RayLink
  done : Bool
  shadow : Bool
deriving DecidableEq, Repr

/-- The obligation of a shading task: owner, pass, block and ticket of its commit record (R362). -/
structure Obligation where
  owner : Nat
  pass : Nat
  block : Nat
  ticket : Nat
deriving DecidableEq, Repr

/-- A task taken by a core and the record address it is bound to (R306). -/
structure Taken where
  addr : Word
  task : Task
deriving DecidableEq, Repr

/-- A pending bit of a hardware context: the domain and the phase it arrived in (R277). -/
structure Pending where
  scope : BitVec 3
  inst : Nat
  dom : Nat
  phase : Nat
deriving DecidableEq, Repr

/-- The state of a ray slot (R259 to R264): the trace, where its traversal stands, and its completion record. -/
inductive RayPhase where
  | running
  | verdict
  | shading
  | cancelling
  | complete
deriving DecidableEq, Repr

/-- A hit: t, u, v, instance id, primitive id, hit kind and the instance's shader offset (R260). -/
structure Hit where
  t : BitVec 32
  u : BitVec 32
  v : BitVec 32
  inst : BitVec 32
  prim : BitVec 32
  kind : BitVec 32
  shader : Nat
deriving DecidableEq, Repr

/-- Work still to be visited by a ray, nearest first: a box node by its address, an instance record, or a triangle record
with its leaf's opaque bit; `inst` says that it stands below the ray's instance (R257, R260). -/
inductive RayWork where
  | node (addr : Word) (inst : Bool)
  | object (addr : Word)
  | tri (addr : Word) (opq inst : Bool)
deriving DecidableEq, Repr

/-- The instance a ray is in: the ray's origin and direction in object space, the instance id, the shader offset, and
whether it forces opaque, culls nothing, and mirrors (R257, R260). -/
structure Instance where
  ray : List (BitVec 32)
  id : BitVec 32
  shader : Nat
  opq : Bool
  nocull : Bool
  mirrored : Bool
deriving DecidableEq, Repr

/-- A ray slot in use (R259); `uid` tells traces of a context apart. -/
structure Ray where
  uid : Nat
  ray : List (BitVec 32)
  shtab : Word
  payload : Word
  flags : BitVec 32
  mask : BitVec 8
  depth : Nat
  key : BitVec 32
  prio : Nat
  launch : Nat
  paybytes : Nat
  work : List RayWork
  inst : Option Instance
  tmax : BitVec 32
  best : Option Hit
  cand : Option Hit
  token : Nat
  stopAll : Bool
  phase : RayPhase
  tasks : Nat
  status : Nat
  returned : Bool
  order : Nat
deriving DecidableEq, Repr

/-- The task a helper runs: the task, its shading obligation and whether it is met (R268, R362); and under sampled
shadow execution whether it still folds its hash, the hash, and the half bytes it has stored, by twice the address, and one
more for bits [7:4] (R437). -/
structure HelperTask where
  task : Task
  obligation : Option Obligation
  met : Bool
  folds : Bool
  hash : Word
  stored : Tab Byte
deriving DecidableEq, Repr

/-- What a zcommit that waits for acceptance offers (R256): its pass, owner, ticket, block and cover. -/
structure Offered where
  pass : Nat
  owner : Nat
  ticket : Nat
  block : Nat
  cover : BitVec 32
deriving DecidableEq, Repr

/-- The state of one hardware context (R18). `h` is its hidx. `barWait` is the bar that stands in its wait, by its pc and
the arrival it made (R277); `zwait` is the commit with which a zcommit waits for acceptance (R256, R304); `endTask` says
that a PAGE has answered FATAL or NO_MEMORY, after which the runtime must end the task (R391). -/
structure Hart where
  pc : Word
  x : Vector Word 32
  mode : Mode
  live : Bool
  stopped : Bool
  vtype : Word
  vl : BitVec 16
  vpad : BitVec 16
  vstride : Word
  vcfgst : Word
  vsrng : Word
  vexc : BitVec 5
  chain : List Flight
  chainRec : List (Option Flight)
  vrpc : Word
  v : Vector VReg 32
  d : Vector (Tab DElem) 8
  dtag : Vector (BitVec 16) 8
  share : Nat
  annex : Option Annex
  resident : List RegName
  zeroMarks : List RegName
  nextId : Nat
  zwait : Option Offered
  windows : List Window
  resv : Option Reservation
  rays : Tab Ray
  rayOrder : Nat
  pending : List Pending
  barWait : Option (Word × Pending)
  task : Option HelperTask
  yield : Option (List Nat × Nat)
  jobs : List Nat
  endTask : Bool
  mstatus : Word
  sepc : Word
  scause : Word
  stval : Word
  sscratch : Word
  mepc : Word
  mcause : Word
  mtval : Word
  mscratch : Word
  mcycle : Word
  minstret : Word
deriving DecidableEq, Repr

/-- The matrix configuration (R198, R200). -/
structure MatCfg where
  nt : Nat
  iacc : Bool
  afmt : BitVec 6
  bfmt : BitVec 6
  ablk : BitVec 3
  bblk : BitVec 3
  soff : Nat
deriving DecidableEq, Repr

/-- A command of the matrix queue: its instruction, the issuing hidx, its captured scalars and the configuration it
runs under (R196). -/
structure MatCmd where
  instr : Instr
  h : Nat
  xa : Word
  xb : Word
  cfg : MatCfg
deriving DecidableEq, Repr

/-- A ring of a core: its descriptor's place and fields, its counts, and the ticks of its slots' fills (R278, R279,
R336), and the launch that initialised it, 0 for a control context (R7). -/
structure Ring where
  launch : Nat
  desc : Nat
  base : Nat
  slotsz : Nat
  count : Nat
  wptr : Nat
  rptr : Nat
  fills : Tab Nat
  reads : Tab Nat
  checked : List Nat
  ticks : Tab Tick
deriving DecidableEq, Repr

/-- A store issued and not yet performed (R318): its hidx and the bytes it writes. -/
structure PendStore where
  h : Nat
  loc : Loc
  data : List Byte
  wt : Bool
deriving DecidableEq, Repr

/-- What a core holds for its context and moves with the cluster image (R399, R404). `mwaits` lists the hardware contexts
that stand in mwait, by hidx and tile, with the queued commands up to the last that the wait is for (R209, R214); `tileOf` the launch that took each tile into use (R7); `lastDist` the
hardware context whose element the condenser processed last (R237). -/
structure Img where
  harts : Tab Hart
  hctrl : BitVec 6
  hnext : BitVec 6
  qsel : BitVec 4
  mweight : BitVec 4
  lease : BitVec 8
  stvec : Word
  mie : Word
  mip : Word
  scratch : Tab Byte
  acc : Tab (BitVec 32)
  inUse : BitVec 4
  tileOf : Tab Nat
  mcfg : MatCfg
  mq : List MatCmd
  mwaits : List (Nat × Nat × Nat)
  taken : List Taken
  rings : Tab Ring
  stores : List PendStore
  lastHelper : Nat
  lastDist : Nat
  submit : Option Nat
deriving DecidableEq, Repr

/-- The record firmware keeps of a physical core (R432); `fenced` holds the classes it has fenced before (R434). -/
structure CoreRec where
  caps : Word
  quar : Word
  perm : Word
  fenced : Word
  state : Nat
  corr : Nat
  uncorr : Nat
  fences : Nat
  streak : Tab Nat
  when_ : Nat
deriving DecidableEq, Repr

/-- A physical core. -/
structure Core where
  serving : Option (Nat × Nat)
  img : Img
  crec : CoreRec
  capmask : Word
  ptick : Tick
  satp : Word
  mtvec : Word
  medeleg : Word
  mideleg : Word
  mcrsel : Word
  microTlb : List TlbEntry
  laneTlb : List (List TlbEntry)
  icache : List (Nat × Line)
deriving DecidableEq, Repr

/-- A loaned copy in a die's L2 (R324). -/
structure Loan where
  val : Line
  wts : Tick
  due : Tick
  tag : Nat
deriving DecidableEq, Repr

/-- An owned copy in a die's L2 (R324). -/
structure Owned where
  val : Line
  wts : Tick
  dirty : Bool
  since : Nat
  tag : Nat
deriving DecidableEq, Repr

/-- What the home slice keeps of a device line (R324): the release record is (die, tick, drained). -/
structure HomeLine where
  wts : Tick
  due : Tick
  owner : Option Nat
  grant : Tick
  rel : Option (Nat × Tick × Bool)
deriving DecidableEq, Repr

/-- A bound pattern (R283, R284, R340 to R346): descriptor, the binder, its progress: the next tile, the elements of it
already delivered and the bytes read for it (R328); `posting` says that a tile's progress is still to be posted, `ending`
that the pattern is over but for its done dword, with its status. `num` tells the patterns of a die apart, `job` is its job
card's number. -/
structure Pattern where
  num : Nat
  tag : Nat
  lcore : Nat
  h : Nat
  port : Nat
  src : Word
  dst : Word
  esz : Nat
  dims : Nat
  scope : BitVec 3
  fill : Word
  ext : List Nat
  bound : List Nat
  stride : List Int
  org : List Int
  done : Word
  next : Nat
  elem : Nat
  buf : List Byte
  posting : Bool
  ending : Option Nat
  bytes : Nat
  running : Bool
  tick : Tick
  job : Option Nat
  regionErr : Bool
deriving DecidableEq, Repr

/-- A region of a job card (R285). -/
structure Region where
  base : Word
  len : Nat
deriving DecidableEq, Repr

/-- A live job card (R285, R286, R348 to R350): what it has read and how many lines it has written, the round and rank of
a collective's (R351), and the pattern that one of op 2 is to run (R347); `ending` says that it is over but for its done
dword, with its status (R328). -/
structure Job where
  num : Nat
  tag : Nat
  lcore : Nat
  h : Nat
  quad : Nat
  op : Nat
  scope : BitVec 3
  done : Word
  param : BitVec 128
  reads : List Region
  writes : List Region
  waits : List Nat
  running : Bool
  next : Nat
  image : List Byte
  supp : Bool
  tick : Tick
  round : Nat
  rank : Nat
  pat : Option Pattern
  ending : Option Nat
deriving DecidableEq, Repr

/-- A cluster that serves a context: its context and image, resident cycles of its slice and idle cycles (R400); `evict` says
that a matrix class of it has been fenced since, which pre-empts it (R434). -/
structure Cluster where
  tag : Nat
  image : Nat
  slice : Nat
  idle : Nat
  evict : Bool
deriving DecidableEq, Repr

/-- Which unit a translation fault parks: a pattern by its port, a job by its card's number, a ray, or the texture and
feature-grid unit at a flight (R392). -/
inductive Agent where
  | pattern (lcore port : Nat)
  | job (num : Nat)
  | ray (lcore h slot uid : Nat)
  | flight (lcore h id : Nat)
deriving DecidableEq, Repr

/-- A translation fault that system software has still to service (R392): the context, the address, whether a store,
whether checked as a U-mode access, and the unit that waits. -/
structure Parked where
  tag : Nat
  va : Word
  store : Bool
  user : Bool
  who : Agent
deriving DecidableEq, Repr

/-- A compute die. Tables of lines are keyed by line number (physical address / 128). `mopp` is what a write of mopp
left there until firmware sets the operating point again (R456, R458). -/
structure Die where
  loans : Tab Loan
  owned : Tab Owned
  quadTlb : Tab (List TlbEntry)
  lastTlb : List TlbEntry
  nextFrame : Nat
  freed : List Nat
  withdrawn : List Nat
  patterns : List Pattern
  nextPattern : Nat
  jobs : List Job
  clusters : Tab Cluster
  parked : List Parked
  seed : Nat
  temp : Nat
  throttled : Bool
  corrected : Nat
  draw : Nat
  mopp : Option Word
deriving DecidableEq, Repr

/-- A leaf of a context's page tables: first virtual address, size in bytes, entry (R385), and what its MAP said: share,
copy on write, allocate on touch, and the die (R388). -/
structure Leaf where
  va : Nat
  size : Nat
  pte : Word
  share : Bool
  cow : Bool
  alloc : Bool
  die : Nat
deriving DecidableEq, Repr

/-- A launch of a context (R298, R407 to R409): `undelivered` roots with their die and, one more than its number, the quad
whose queue they go to; the LAUNCH that delivers them, and whether it closes delivery. -/
structure Launch where
  outstanding : Nat
  closed : Bool
  completed : Bool
  fail : Option (Nat × Nat)
  perr : Nat
  tasks : Nat
  done : Word
  undelivered : List (TaskRec × KernelFacts × Nat × Nat)
  pendingCmd : Option Cmd
  closing : Bool
deriving DecidableEq, Repr

/-- A barrier domain allocated to a context (R276, R308), with the latest ticks of the arrivals of its phase and of the
phase completed last (R331, R332; log 21). -/
structure Domain where
  scope : BitVec 3
  inst : Nat
  dom : Nat
  n : Nat
  count : Nat
  phase : Nat
  tick : Tick
  doneTick : Tick
deriving DecidableEq, Repr

/-- A collective group (R398) and its rounds (R351): members are (x, y, z, logical core). -/
structure Group where
  members : List (Nat × Nat × Nat × Nat)
  submitted : Tab Nat
  rounds : Nat
deriving DecidableEq, Repr

/-- A set-up primitive (R355). -/
structure Prim where
  die : Nat
  ticket : Nat
  data : List Byte
deriving DecidableEq, Repr

/-- A live entry of a commit unit (R360): its log number, ticket, block and cover. -/
structure LogEntry where
  num : Nat
  ticket : Nat
  block : Nat
  cover : BitVec 32
deriving DecidableEq, Repr

/-- A commit (R255): its ticket, block, cover and colours (32 samples' R, G, B, A as FP32), and the effective
priority it was accepted with (R304). -/
structure Commit where
  ticket : Nat
  block : Nat
  cover : BitVec 32
  colours : List (BitVec 32)
  prio : Nat
deriving DecidableEq, Repr

/-- The inbox and commit unit of one owner (R358 to R365). `voids` are the tickets and blocks that helpers which retired have
left to be voided, while the owner's image is saved (R362, R405). -/
structure OwnerUnit where
  lcore : Nat
  region : Nat
  inbox : List Prim
  pos : Nat
  live : List LogEntry
  blended : List (Nat × Nat)
  retired : List Nat
  store : List Commit
  voids : List (Nat × Nat)
deriving DecidableEq, Repr

/-- An active render pass (R353). `spoiled` says that an owner has broken the rules of its log, so that the pass's colour is
undefined, and `filled` that its colour areas have taken free values since (R359; log 18). -/
structure Pass where
  tickets : Nat
  width : Nat
  height : Nat
  region : Nat
  samples : Nat
  blend : Nat
  ring : Nat
  coff : Nat
  loff : Nat
  logn : Nat
  closure : Nat
  accepted : List Nat
  discards : Nat
  owners : List OwnerUnit
  tick : Tick
  spoiled : Bool
  filled : Bool
deriving DecidableEq, Repr

/-- A saved cluster image (R399, R404): each core's image and tick. -/
structure SavedImage where
  cores : Tab (Img × Tick)
deriving DecidableEq, Repr

/-- A granted or ungranted fabric port of a route table (R396). -/
structure Route where
  granted : Bool
  remote : Bool
  x : Nat
  y : Nat
  z : Nat
  tag : Nat
  links : BitVec 32
deriving DecidableEq, Repr

/-- A task selected for shadow execution: its sequence number, die and opcode-use mask, the cores of the primary and of
the copy, their hashes once known, and the die's resident cycles at its queueing (R437). -/
structure Shadow where
  seq : Nat
  die : Nat
  opmask : Word
  primary : Option Nat
  copy : Option Nat
  hp : Option Word
  hc : Option Word
  since : Nat
deriving DecidableEq, Repr

/-- A context (R296, R374 to R405). Pools and resident counts are by die; `jobDone` holds the ticks of completed jobs by
number (R336), `deferred` what waits to be done for it: the host commands behind a launch's delivery (R378, R408), and what waits for a
translation given up (R393) or for the horizon (R328),
`held` the frames claimed at creation (R381). `leaves` is what firmware knows of the mapped pages; the tables that the
walkers read lie in memory, from the page `root` on; `tables` are the context's own pages of them, the others its template's,
which it shares (R381, R384, R387). -/
structure Ctx where
  prio : Nat
  slice : Nat
  qpart : Nat
  scratch : Nat
  hb : Word
  rt : Word
  rtarg : Word
  template : Nat
  ncores : Nat
  ctab : Tab Nat
  self : Nat × Nat × Nat
  routes : List Route
  leaves : List Leaf
  root : Nat
  tables : List Nat
  pool : Tab (List Nat)
  carve : Tab (List Nat)
  tasks : List Task
  nextSeq : Nat
  nextLaunch : Nat
  nextJob : Nat
  nextToken : Nat
  launches : Tab Launch
  domains : List Domain
  groups : Tab Group
  passes : Tab Pass
  images : Tab SavedImage
  placed : List Nat
  fault : Option Word
  residentCc : Tab Nat
  unserved : Tab Nat
  lastDone : Nat
  shadows : List Shadow
  jobDone : Tab Tick
  deferred : List Event
  held : Tab (List Nat)
deriving DecidableEq, Repr

/-- A template (R379): what it keeps of its source; `root` and `tables` are the page-table pages above its leaves. -/
structure Template where
  leaves : List Leaf
  root : Nat
  tables : List Nat
  ncores : Nat
  ctab : Tab Nat
  self : Nat × Nat × Nat
  routes : List Route
  frames : Tab (List Nat)
  pool : Tab (List Nat)
deriving DecidableEq, Repr

/-- A completion record or event (R376). -/
structure Completion where
  seq : Word
  cmd : Nat
  tag : Nat
  status : Nat
  value : Word
  detail : Word
deriving DecidableEq, Repr

/-- One of the last 16 context faults (R451). -/
structure FaultRec where
  value : Word
  detail : Word
  tag : Nat
  cause : Nat
  secs : Nat
deriving DecidableEq, Repr

/-- The management block (R443 to R445) and what stands behind it; `msix` counts the raisings of MSI-X vector 0 (R443). -/
structure Mgmt where
  featReq : Word
  featSet : Word
  cmdqBase : Word
  cmdqSize : Word
  cmdqTail : BitVec 32
  cmdqHead : BitVec 32
  cplqBase : Word
  cplqSize : Word
  cplqHead : BitVec 32
  cplqTail : BitVec 32
  invAddr : Word
  invSize : Word
  podmap : Word
  powercap : Nat
  power : Nat
  oppoint : Nat
  point : Nat
  qen : Bool
  shadow : Tab Bool
  rcause : Nat
  therm : Bool
  rsb : Bool
  started : Bool
  ready : Bool
  lcs : Nat
  events : List Completion
  lost : Nat
  faults : List FaultRec
  lastSeq : Word
  waiting : List Completion
  secs : Nat
  msix : Nat
deriving DecidableEq, Repr

/-- The pod map (R449): this module's coordinate and the far ends of its present links. -/
structure PodMap where
  self : Nat × Nat × Nat
  links : Tab (Nat × Nat × Nat)
deriving DecidableEq, Repr

/-- The device store outside the core records (preface of section 20, R454): the running and the staged image, the
security version, and whether an identity key exists, named by a number (log 14); `life` counts the seconds since
provisioning (R432). -/
structure Store where
  running : List Byte
  version : BitVec 32
  svn : BitVec 16
  staged : Option (List Byte × BitVec 32 × BitVec 16)
  key : Option Nat
  errata : Word
  life : Nat
deriving DecidableEq, Repr

/-- A place of SRAM outside the homes and the L2 that an error can strike (R438): a dword of a core's scratchpad, a register in
its pool, by hidx, an accumulator tile, a clean line of its L1, a line of its instruction cache, its TLBs, its commit unit, its
inbox; the TLBs of a die; and the storage of a queued task, by context and sequence number (R299). -/
inductive CoreCell where
  | scratch (core dword : Nat)
  | reg (core h : Nat) (r : RegName)
  | tile (core t : Nat)
  | l1 (core line : Nat)
  | icache (core line : Nat)
  | tlb (core : Nat)
  | unit (core : Nat)
  | inbox (core : Nat)
  | dieTlb (die : Nat)
  | queued (tag seq : Nat)
deriving DecidableEq, Repr

/-- A write on its way to another module (R345): the pod-link port it leaves by (R449), the coordinate and the context of its
sender (R397), and its destination's coordinate, context, address and bytes. -/
structure PodWrite where
  port : Nat
  src : Nat × Nat × Nat
  srcTag : Nat
  x : Nat
  y : Nat
  z : Nat
  tag : Nat
  va : Word
  data : List Byte
deriving DecidableEq, Repr

/-- The module. `floor` is the tick of lines that `home` does not list (R329; log 41). `hostReply` is what the last
CXL.mem read returned; none is poison (R339, R446); `cxlDown` says that the CXL link was reported down (R438). `wiped` lists
the lines, by the first and the count, that a wipe has left at tick 0 since the floor was set (R324). `defects` lists the
classes that a core's self test finds failing, 64 its scalar pipeline, by core and class (R434, R435; log 39). `bad` lists
the lines of memory, and `badCore` the places of core SRAM, that hold uncorrectable data, `soft` the places of core SRAM
with a correctable error, and `faulty` the lines of memory whose access faults (R31, R438); no step makes an error, and one
that is corrected is gone (log 67). `tries` counts the failed retries of the flit on a link (R438). `slot` is the number of
running cores, the first of `running`, that have still to have their issue slot in this cycle, and `tried` the hardware
contexts of the core in turn found waiting at issue in it (R311). `nextTable` and `freeTables` are the page-table pages not in use (R384). -/
structure State where
  mem : Tab Byte
  home : Tab HomeLine
  hostCache : List Nat
  cores : Tab Core
  dies : Tab Die
  ctxs : Tab Ctx
  templates : Tab Template
  mgmt : Mgmt
  podmap : Option PodMap
  linksDown : List Nat
  retries : Nat
  uncorrected : Nat
  devStore : Store
  challenge : Option Nat
  horizon : Tick
  floor : Tick
  hostTick : Tick
  podTick : Tick
  cc : Nat
  bad : List Nat
  badCore : List CoreCell
  soft : List CoreCell
  faulty : List Nat
  defects : List (Nat × Nat)
  wiped : List (Nat × Nat)
  tries : Tab Nat
  nextTable : Nat
  freeTables : List Nat
  podOut : List PodWrite
  agenda : List Event
  running : List Nat
  slot : Nat
  tried : List HartId
  cur : HartId
  ir : BitVec 32
  hold : Bool
  fresh : Nat
  hostReply : Option (List Byte)
  cxlDown : Bool
deriving DecidableEq, Repr

/-- Why a step has no next state. -/
inductive Fault where
  /-- A unit that the module does not have. No step of this model raises it: what the spec calls an error is a trap, a
  status, a context fault or a wait, and every step answers a next state. Safe: a step that stopped so would prove
  nothing false. -/
  | noUnit
deriving DecidableEq, Repr

/-- Why a step is refused. -/
inductive Refusal where
  /-- An instruction that has no meaning in this model yet; raised by its arm of exec. Safe: the machine goes on. -/
  | notModelled (mnemonic : String)
deriving DecidableEq, Repr

/-- vsrng after reset (R67). -/
def vsrngReset : Word := 0x9E3779B97F4A7C15#64

/-- A hardware context as reset leaves it (R18, R19 to R25; registers with no stated value: log 3, log 4). -/
def Hart.init (mode : Mode) : Hart where
  pc := 0
  x := Vector.replicate 32 0
  mode := mode
  live := false
  stopped := false
  vtype := 0
  vl := 0
  vpad := 0
  vstride := 0
  vcfgst := 0
  vsrng := vsrngReset
  vexc := 0
  chain := []
  chainRec := [none, none, none, none]
  vrpc := 0
  v := Vector.replicate 32 0
  d := Vector.replicate 8 []
  dtag := Vector.replicate 8 0
  share := 0
  annex := none
  resident := []
  zeroMarks := []
  nextId := 0
  zwait := none
  windows := []
  resv := none
  rays := []
  rayOrder := 0
  pending := []
  barWait := none
  task := none
  yield := none
  jobs := []
  endTask := false
  mstatus := 0
  sepc := 0
  scause := 0
  stval := 0
  sscratch := 0
  mepc := 0
  mcause := 0
  mtval := 0
  mscratch := 0
  mcycle := 0
  minstret := 0

/-- The matrix configuration of a core on which no mcfg has run (R198). -/
def MatCfg.none : MatCfg where
  nt := 0
  iacc := false
  afmt := 0
  bfmt := 0
  ablk := 0
  bblk := 0
  soff := 512

/-- What a core holds for its context, after reset (R23, R197, R301, R323, R403). -/
def Img.init : Img where
  harts := []
  hctrl := 0
  hnext := 0
  qsel := 0xF
  mweight := 1
  lease := 10
  stvec := 0
  mie := 0
  mip := 0
  scratch := []
  acc := []
  inUse := 0
  tileOf := []
  mcfg := MatCfg.none
  mq := []
  mwaits := []
  taken := []
  rings := []
  stores := []
  lastHelper := 10
  lastDist := 10
  submit := none

/-- The core record of a core whose classes all run (R432; log 14). -/
def CoreRec.init (state : Nat) : CoreRec where
  caps := BitVec.allOnes 64
  quar := 0
  perm := 0
  fenced := 0
  state := state
  corr := 0
  uncorr := 0
  fences := 0
  streak := []
  when_ := 0

/-- Whether a physical core is one of the 16 die manager cores of its die, which stand apart, so that the units of each
one's quad and cluster serve the cores that remain there (R2; log 1). -/
def isManager (core : Nat) : Bool := core % 1024 == 0

/-- A core after reset; capmask is 0 until the core record is loaded (R431, R446). -/
def Core.init (core : Nat) : Core where
  serving := none
  img := Img.init
  crec := CoreRec.init (if isManager core then 2 else 0)
  capmask := 0
  ptick := 0
  satp := 0
  mtvec := 0
  medeleg := 0
  mideleg := 0
  mcrsel := 0
  microTlb := []
  laneTlb := [[], [], [], []]
  icache := []

/-- A die after reset. -/
def Die.init : Die where
  loans := []
  owned := []
  quadTlb := []
  lastTlb := []
  nextFrame := 0
  freed := []
  withdrawn := []
  patterns := []
  nextPattern := 0
  jobs := []
  clusters := []
  parked := []
  seed := 0
  temp := 0
  throttled := false
  corrected := 0
  draw := 0
  mopp := none

/-- A device line that no one has written since reset or a wipe, at its home (R324): its ticks are the floor that the
scrub of R329 last set, 0 at reset (log 41). -/
def HomeLine.init (floor : Tick) : HomeLine where
  wts := floor
  due := floor
  owner := none
  grant := 0
  rel := none

/-- The management block after a reset whose cause is given (R443 to R445); the life-cycle state is kept (R444). -/
def Mgmt.init (rcause lcs : Nat) : Mgmt where
  featReq := 0
  featSet := 0
  cmdqBase := 0
  cmdqSize := 0
  cmdqTail := 0
  cmdqHead := 0
  cplqBase := 0
  cplqSize := 0
  cplqHead := 0
  cplqTail := 0
  invAddr := 0
  invSize := 0
  podmap := 0
  powercap := 300
  power := 0
  oppoint := 0
  point := 17
  qen := false
  shadow := []
  rcause := rcause
  therm := false
  rsb := false
  started := false
  ready := false
  lcs := lcs
  events := []
  lost := 0
  faults := []
  lastSeq := 0
  waiting := []
  secs := 0
  msix := 0

/-- The device store of the shipped part (log 14). -/
def Store.init : Store where
  running := []
  version := 0
  svn := 0
  staged := none
  key := some 0
  errata := 0
  life := 0

/-- The module right after power-on (R446): every context, launch, template and mapping is gone, memory is wiped,
READY is 0, and the die manager cores run M-mode firmware (log 1, log 2). -/
def State.reset : State where
  mem := []
  home := []
  hostCache := []
  cores := []
  dies := []
  ctxs := []
  templates := []
  mgmt := Mgmt.init 1 2
  podmap := none
  linksDown := []
  retries := 0
  uncorrected := 0
  devStore := Store.init
  challenge := none
  horizon := 0
  floor := 0
  hostTick := 0
  podTick := 0
  cc := 0
  bad := []
  badCore := []
  soft := []
  faulty := []
  defects := []
  wiped := []
  tries := []
  nextTable := 0
  freeTables := []
  podOut := []
  agenda := []
  running := [0]
  slot := 0
  tried := []
  cur := { core := 0, h := 0 }
  ir := 0
  hold := false
  fresh := 0
  hostReply := none
  cxlDown := false

end Sys2Proof.Machine
end

