-- ==== Sys2Proof/Machine/Base.lean ====
section
/-! DEFINITION. Reading and writing the state by its units: cores, hardware contexts, dies, contexts, registers; the
comparison of ticks (R322). -/

namespace Sys2Proof.Machine

/-- Puts an element into a sorted list, before those equal to it. -/
def insertBy {α : Type} (le : α → α → Bool) (a : α) : List α → List α
  | [] => [a]
  | b :: t => if le a b then a :: b :: t else b :: insertBy le a t

/-- A list in order; equal elements keep theirs. -/
def sortBy {α : Type} (le : α → α → Bool) : List α → List α
  | [] => []
  | a :: t => insertBy le a (sortBy le t)

/-- The integer square root of a number below 2^(2 * bits), from a root found so far. -/
def isqrtFrom (n : Nat) : Nat → Nat → Nat
  | 0, r => r
  | bits + 1, r => isqrtFrom n bits (if (r + 2 ^ bits) * (r + 2 ^ bits) ≤ n then r + 2 ^ bits else r)

/-! Ticks (R322). -/

/-- a ≺ b. -/
def tickLt (a b : Tick) : Bool := decide (1 ≤ (b - a).toNat) && decide ((b - a).toNat ≤ 32767)

/-- a ⪯ b. -/
def tickLe (a b : Tick) : Bool := a == b || tickLt a b

/-- max_s. -/
def tickMax (a b : Tick) : Tick := if tickLt a b then b else a

/-- min_s. -/
def tickMin (a b : Tick) : Tick := if tickLt a b then a else b

/-- R328: a tick that lies too far from the horizon becomes H − 64. -/
def clampTick (h t : Tick) : Tick := if 8256 < (t - (h - 64)).toNat then h - 64 else t

/-! Units. -/

/-- The classes that a core's record lets run (R431, R432). -/
def CoreRec.running (r : CoreRec) : Word := r.caps &&& ~~~r.quar

/-- The tick of a core that has never run: it has followed the clock, held to the horizon (R322, R328). -/
def State.freshTick (s : State) : Tick := clampTick s.horizon (BitVec.ofNat 16 (s.cc / Config.tickPeriod))

/-- A core of which nothing has been said since reset: its tick has followed the clock (R322, R328), and once the reset is
complete its capmask shows its record (R431, R446). -/
def State.freshCore (s : State) (c : Nat) : Core :=
  let k := Core.init c
  { k with ptick := s.freshTick
           capmask := if s.mgmt.ready then k.crec.running else 0 }

/-- A physical core. -/
def State.core (s : State) (c : Nat) : Core := Tab.getD s.cores c (s.freshCore c)

/-- Replaces a physical core. -/
def State.setCore (s : State) (c : Nat) (k : Core) : State := { s with cores := Tab.set s.cores c k }

/-- Changes a physical core. -/
def State.onCore (s : State) (c : Nat) (f : Core → Core) : State := s.setCore c (f (s.core c))

/-- What a core holds for its context. -/
def State.img (s : State) (c : Nat) : Img := (s.core c).img

/-- Changes what a core holds for its context. -/
def State.onImg (s : State) (c : Nat) (f : Img → Img) : State := s.onCore c (fun k => { k with img := f k.img })

/-- The mode a hardware context starts in: a die manager core runs M-mode firmware on its control context (R2, R17,
R458). -/
def startMode (c h : Nat) : Mode := if h = 0 then (if isManager c then .m else .s) else .u

/-- A hardware context of a core. -/
def Core.hart (k : Core) (c h : Nat) : Hart := Tab.getD k.img.harts h (Hart.init (startMode c h))

/-- Replaces a hardware context of a core. -/
def Core.setHart (k : Core) (h : Nat) (t : Hart) : Core :=
  { k with img := { k.img with harts := Tab.set k.img.harts h t } }

/-- A hardware context. -/
def State.hart (s : State) (i : HartId) : Hart := (s.core i.core).hart i.core i.h

/-- Replaces a hardware context. -/
def State.setHart (s : State) (i : HartId) (t : Hart) : State := s.setCore i.core ((s.core i.core).setHart i.h t)

/-- Changes a hardware context. -/
def State.onHart (s : State) (i : HartId) (f : Hart → Hart) : State := s.setHart i (f (s.hart i))

/-- The hardware context whose instruction executes. -/
def State.me (s : State) : Hart := s.hart s.cur

/-- Changes the hardware context whose instruction executes. -/
def State.onMe (s : State) (f : Hart → Hart) : State := s.onHart s.cur f

/-- The core of the hardware context whose instruction executes. -/
def State.myCore (s : State) : Core := s.core s.cur.core

/-- x[r]; x0 reads zero (R18). -/
def Hart.get (t : Hart) (r : Reg) : Word := if r = 0 then 0 else t.x.get r

/-- x[r] := v; a write of x0 is discarded (R18). -/
def Hart.put (t : Hart) (r : Reg) (v : Word) : Hart := if r = 0 then t else { t with x := t.x.set r.val v r.isLt }

/-- x[r] of the executing hardware context. -/
def State.x (s : State) (r : Reg) : Word := s.me.get r

/-- x[r] := v on the executing hardware context. -/
def State.setX (s : State) (r : Reg) (v : Word) : State := s.onMe (fun t => t.put r v)

/-- pc of the executing hardware context. -/
def State.pc (s : State) : Word := s.me.pc

/-- pc := v on the executing hardware context. -/
def State.setPc (s : State) (v : Word) : State := s.onMe (fun t => { t with pc := v })

/-- The address of a core's die (R1). -/
def dieOf (c : Nat) : Nat := c / 16384

/-- A core's quad within its die (R1). -/
def quadOf (c : Nat) : Nat := c % 16384 / 4

/-- A core's cluster within its die (R395). -/
def clusterOf (c : Nat) : Nat := c % 16384 / 8

/-- A core's index within its cluster (R395). -/
def indexOf (c : Nat) : Nat := c % 8

/-- The physical core of a die, cluster and index. -/
def coreAt (die cluster k : Nat) : Nat := die * 16384 + cluster * 8 + k

/-- A die. -/
def State.die (s : State) (d : Nat) : Die := Tab.getD s.dies d Die.init

/-- Changes a die. -/
def State.onDie (s : State) (d : Nat) (f : Die → Die) : State := { s with dies := Tab.set s.dies d (f (s.die d)) }

/-- A context. -/
def State.ctx (s : State) (t : Nat) : Option Ctx := Tab.get? s.ctxs t

/-- Replaces a context. -/
def State.setCtx (s : State) (t : Nat) (c : Ctx) : State := { s with ctxs := Tab.set s.ctxs t c }

/-- Changes a context that exists. -/
def State.onCtx (s : State) (t : Nat) (f : Ctx → Ctx) : State :=
  match s.ctx t with
  | some c => s.setCtx t (f c)
  | none => s

/-- The context a core serves. -/
def State.tagOf (s : State) (c : Nat) : Option Nat := (s.core c).serving.map Prod.fst

/-- The tag that a core's accesses carry: its context's, or 0 where it serves none. -/
def State.accTag (s : State) (c : Nat) : Nat := ((s.core c).serving.map Prod.fst).getD 0

/-- The context that the executing core serves. -/
def State.myTag (s : State) : Nat := s.accTag s.cur.core

/-- The logical number of a core (R394). -/
def Core.lcore (k : Core) : Nat := (k.serving.map Prod.snd).getD 0

/-- The physical core where a logical core of a context lies now (R395, R402). -/
def Ctx.coreOf (c : Ctx) (l : Nat) : Option Nat := Tab.get? c.ctab l

/-- Whether a logical core of a context is resident, and on which core. -/
def State.residentCore (s : State) (tag l : Nat) : Option Nat :=
  match s.ctx tag with
  | some c =>
    match c.coreOf l with
    | some p => if (s.core p).serving = some (tag, l) then some p else none
    | none => none
  | none => none

/-- What a logical core of a context holds, wherever it is: on its core, or saved (R399, R404). -/
def State.logicalImg (s : State) (tag l : Nat) : Option Img :=
  match s.residentCore tag l with
  | some p => some (s.img p)
  | none =>
    ((s.ctx tag).bind (fun c => Tab.get? c.images (l / 8))).bind (fun i => (Tab.get? i.cores (l % 8)).map Prod.fst)

/-- Changes what a logical core of a context holds, wherever it is. -/
def State.onLogical (s : State) (tag l : Nat) (f : Img → Img) : State :=
  match s.residentCore tag l with
  | some p => s.onImg p f
  | none =>
    s.onCtx tag (fun c => { c with images := Tab.modify c.images (l / 8) (fun i =>
      { i with cores := Tab.modify i.cores (l % 8) (fun e => (f e.1, e.2)) }) })

/-- A hardware context of a logical core, wherever it is. -/
def Img.hart (m : Img) (h : Nat) : Hart := Tab.getD m.harts h (Hart.init (if h = 0 then .s else .u))

/-- Changes a hardware context of a core's image. -/
def Img.onHart (m : Img) (h : Nat) (f : Hart → Hart) : Img := { m with harts := Tab.set m.harts h (f (m.hart h)) }

/-- Draws a free value (log 14). -/
def State.draw (s : State) : Word × State := (Config.freeWord s.fresh, { s with fresh := s.fresh + 1 })

/-- Cores that have their issue slots from the next cycle on (R311; log 6). -/
def State.enterRunning (s : State) (l : List Nat) : State := { s with running := s.running ++ l }

/-- Cores that have no issue slot any more: the others keep theirs in this cycle (R311; log 6). -/
def State.leaveRunning (s : State) (gone : List Nat) : State :=
  { s with running := s.running.filter (fun c => !gone.contains c)
           slot := ((s.running.take s.slot).filter (fun c => !gone.contains c)).length
           tried := s.tried.filter (fun h => !gone.contains h.core) }

/-- What moves next besides instruction issue (log 6). -/
def State.post (s : State) (e : Event) : State := { s with agenda := s.agenda ++ [e] }

/-- Whether a tick may be raised to `q` under the horizon: not beyond H + 4,096 (R328). -/
def State.mayJump (s : State) (p q : Tick) : Bool := p == q || !tickLt (s.horizon + 4096) q

/-! Results of accesses. -/

/-- What an access gives: a value and the state after it, a trap, or that it must wait before it is performed. -/
inductive Acc (α : Type) where
  | ok (a : α) (s : State)
  | trap (t : Trap) (s : State)
  | wait (s : State)

/-- One access after another. -/
def Acc.bind {α β : Type} (r : Acc α) (f : α → State → Acc β) : Acc β :=
  match r with
  | .ok a s => f a s
  | .trap t s => .trap t s
  | .wait s => .wait s

/-- The accesses of a list in order, their values collected. -/
def Acc.list {α β : Type} (f : α → State → Acc β) : List α → State → Acc (List β)
  | [], s => .ok [] s
  | a :: t, s => (f a s).bind (fun b s1 => (Acc.list f t s1).bind (fun bs s2 => .ok (b :: bs) s2))

/-- The state an access leaves. -/
def Acc.state {α : Type} : Acc α → State
  | .ok _ s => s
  | .trap _ s => s
  | .wait s => s

/-- A trap of a cause. -/
def Acc.fail {α : Type} (cause : Nat) (tval : Word) (s : State) : Acc α := .trap { cause := cause, tval := tval } s

end Sys2Proof.Machine
end

