-- ==== Sys2Proof/Machine/Pool.lean ====
section
/-! DEFINITION. A context's pool of pre-wiped frames on a die, and what is carved from it (R29, R389, R404): 2 MiB
frames, 4 KiB pages, and 64 KiB annex slots, each by its physical address. A frame is carved into pages when the first
is needed; an annex slot is a run of sixteen pages (log 13). -/

namespace Sys2Proof.Machine

/-- The free frames of a context on a die. -/
def Ctx.frames (c : Ctx) (die : Nat) : List Nat := Tab.getD c.pool die []

/-- The free carved pages of a context on a die. -/
def Ctx.freePages (c : Ctx) (die : Nat) : List Nat := Tab.getD c.carve die []

/-- Takes a frame of a context's pool. -/
def Ctx.takeFrame (c : Ctx) (die : Nat) : Option (Nat × Ctx) :=
  match c.frames die with
  | f :: l => some (f, { c with pool := Tab.set c.pool die l })
  | [] => none

/-- The 4 KiB pages of a frame. -/
def framePages (f : Nat) : List Nat := (List.range 512).map (fun j => f + 4096 * j)

/-- Takes the next frame apart into pages. -/
def Ctx.carveFrame (c : Ctx) (die : Nat) : Option Ctx :=
  (c.takeFrame die).map (fun r => { r.2 with carve := Tab.set r.2.carve die (r.2.freePages die ++ framePages r.1) })

/-- Takes a page that is already carved. -/
def Ctx.popPage (c : Ctx) (die : Nat) : Option (Nat × Ctx) :=
  match c.freePages die with
  | p :: l => some (p, { c with carve := Tab.set c.carve die l })
  | [] => none

/-- Takes a 4 KiB page, from a new frame where none is free (R389). -/
def Ctx.takePage (c : Ctx) (die : Nat) : Option (Nat × Ctx) :=
  match c.popPage die with
  | some r => some r
  | none => (c.carveFrame die).bind (fun c => c.popPage die)

/-- The pages of an annex slot. -/
def slotPages (p : Nat) : List Nat := (List.range 16).map (fun j => p + 4096 * j)

/-- Takes an annex slot of the free pages. -/
def Ctx.popSlot (c : Ctx) (die : Nat) : Option (Nat × Ctx) :=
  let l := c.freePages die
  (l.find? (fun p => p % 65536 == 0 && (slotPages p).all (fun q => l.contains q))).map (fun p =>
    (p, { c with carve := Tab.set c.carve die (l.filter (fun q => !(slotPages p).contains q)) }))

/-- Takes a 64 KiB annex slot, from a new frame where no run of pages is free (R29). -/
def Ctx.takeSlot (c : Ctx) (die : Nat) : Option (Nat × Ctx) :=
  match c.popSlot die with
  | some r => some r
  | none => (c.carveFrame die).bind (fun c => c.popSlot die)

/-- Returns the pages of an annex slot. -/
def Ctx.giveSlot (c : Ctx) (die slot : Nat) : Ctx :=
  { c with carve := Tab.set c.carve die (c.freePages die ++ slotPages slot) }

/-- Returns the annex slot of a hardware context, if its annex lies in one (R404). -/
def State.dropAnnex (s : State) (tag core : Nat) (a : Option Annex) : State :=
  match a with
  | some a =>
    match a.place with
    | .phys pa => s.onCtx tag (fun c => c.giveSlot (dieOf core) pa)
    | .scratch _ _ => s
  | none => s

end Sys2Proof.Machine
end

