-- ==== Sys2Proof/WellFormed.lean ====
section
/-! DEFINITION. Well-formed instructions: the operand values that the decoder accepts (R88 to R100, R120, R140), and
the unit numbers that exist (R1, R2). -/

namespace Sys2Proof

/-- The format codes of R50. -/
def fmtDefined (f : BitVec 6) : Bool :=
  f.toNat < 0x0F || (0x10 ≤ f.toNat && f.toNat < 0x20 && f.toNat % 4 != 3) || f.toNat == 0x20 || f.toNat == 0x21

/-- The kinds a two-source VA instruction accepts (R88): vector, scalar, immediate. -/
def VaArgs.kind (o : VaArgs) (vv vx vi : Bool) : Bool :=
  match o.s with
  | .vv _ => vv
  | .vx _ => vx
  | .vi _ => vi

/-- R91: a masked VA instruction does not write v0. -/
def VaArgs.maskOk (o : VaArgs) : Bool := !(o.m && o.vd == 0)

/-- R91, for the layout without a kind. -/
def VvArgs.maskOk (o : VvArgs) : Bool := !(o.m && o.vd == 0)

/-- R91, for the one-source layout. -/
def VuArgs.maskOk (o : VuArgs) : Bool := !(o.m && o.vd == 0)

/-- The arithmetic rows that take every kind (R88). -/
def VaArgs.wfAll (o : VaArgs) : Bool := o.maskOk

/-- The rows that take a vector or a scalar (R88). -/
def VaArgs.wfNoImm (o : VaArgs) : Bool := o.maskOk && o.kind true true false

/-- vslideup and vslidedown (R88, R140). -/
def VaArgs.wfSlide (o : VaArgs) : Bool := o.maskOk && o.kind false true true && o.vd != o.vs2

/-- vgather (R140). -/
def VaArgs.wfGather (o : VaArgs) : Bool :=
  o.maskOk && o.vd != o.vs2 && (match o.s with | .vv vs1 => o.vd != vs1 | _ => true)

/-- A scope code from .core to .sys (R125, R129). -/
def scopeCore (s : BitVec 3) : Bool := s != 0

/-- A scope code from .quad to .pod (R276). -/
def scopeBar (s : BitVec 3) : Bool := decide (2 ≤ s.toNat) && decide (s.toNat ≤ 6)

/-- The number of dies (R1). -/
def dieCount : Nat := 64

/-- A physical core number that exists (R1). -/
def coreOk (c : Nat) : Bool := decide (c < 64 * 16384)

/-- A hardware context that exists (R17). -/
def hartOk (h : HartId) : Bool := coreOk h.core && decide (h.h ≤ 10)

/-- A die that exists (R1). -/
def dieOk (d : Nat) : Bool := decide (d < 64)

/-- Whether an instruction has only operand values that its row accepts. -/
def Instr.wf : Instr → Bool
  | .vadd o | .vsub o | .vrsub o | .vmul o | .vmulh o | .vdiv o | .vrem o | .vmin o | .vmax o | .vsadd o | .vssub o
  | .vand o | .vor o | .vxor o | .vsll o | .vsrl o | .vsra o => o.wfAll
  | .vfma o | .vfms o | .vfnma o | .vsgnj o | .vsgnjn o | .vsgnjx o => o.wfNoImm
  | .vceq _ | .vcne _ | .vclt _ | .vcle _ | .vcgt _ | .vcge _ => true
  | .vmerge o => o.m && o.maskOk
  | .vmv o => o.maskOk && o.vs2 == 0
  | .vslideup o | .vslidedown o => o.wfSlide
  | .vgather o => o.wfGather
  | .vcompress o => !o.m && o.vd != o.vs2 && o.vd != o.vs1
  | .vmand _ | .vmor _ | .vmxor _ | .vmandn _ => true
  | .vsqrt o | .vrcp o | .vrsqrt o | .vexp2 o | .vlog2 o | .vsin o | .vcos o | .vtanh o | .vclass o | .vabs o
  | .vneg o => o.maskOk
  | .vid o => o.maskOk && o.vs2 == 0
  | .vmpop _ | .vmfirst _ => true
  | .vmvxs o | .vmvsx o => !o.m
  | .vcvt o => !(o.m && o.vd == 0) && decide (o.t.toNat < 0x0F)
  | .vbdot o => o.maskOk && o.vs2 != 31 && o.vs1 != 31
  | .vbexp o => o.maskOk
  | .vbpack o => o.maskOk && o.vd != 31 && o.vd != o.vs2 && decide (o.vd.val + 1 ≠ o.vs2.val)
  | .vredsum o | .vredmin o | .vredmax o | .vscan o => o.wfNoImm
  | .vld o | .vldSt o => !(o.m && o.d == 0) && o.b == 0
  | .vldIx o => !(o.m && o.d == 0)
  | .vamoadd o | .vamomin o | .vamomax o | .vamoswap o => !(o.m && o.d == 0)
  | .bsubnz a _ _ => a != 0
  | .vsetl _ _ fmt blk _ => fmtDefined fmt && decide (blk.toNat ≤ 4)
  | .vcfg _ _ nv nd _ => decide (nv.toNat ≤ 5) && decide (nd.toNat ≤ 8)
  | .dmom _ _ _ k => k != 0
  | .bar _ _ s | .barr _ _ s | .barw _ _ s => scopeBar s
  | .ldacq _ _ _ _ s | .strel _ _ _ _ s | .ofence _ _ _ s => scopeCore s
  | .annexSwap h _ | .elementGroupExecute h | .distributionElement h | .commitReoffer h | .rayTraversal h _
  | .qtakeWake h | .primitiveAccept h | .graphicsRecordExecute h => hartOk h
  | .matrixCommandExecute c | .interrupt c | .storePerformed c | .coreFailed c => coreOk c
  | .patternStart c _ | .tileDeliver c _ | .sentinelRun c _ _ | .quarantineSentinel c _ _ => coreOk c
  | .ownedLineDrain d _ | .jobStart d _ | .jobComplete d _ _ | .engineFaultService d | .sliceEnd d _
  | .clusterIdle d _ | .shadowDrop d | .shadowSeedChange d _ | .hbmScrub d _ | .l2Scrub d _
  | .thermalThrottle d _ | .thermalStop d _ | .dieTemperatureFall d _ => dieOk d
  | _ => true

end Sys2Proof
end

