-- ==== Sys2Proof/Decode.lean ====
section
/-! DEFINITION. Decoding (R81 to R101, R120, R121) and, after it, encoding, both from the layouts of the spec; the
byte-order and bit-field helpers they use. -/

namespace Sys2Proof

/-- The six fields that every 32-bit layout is cut from (R84, R87, R92, R94). -/
structure Parts where
  f7 : BitVec 7
  b : BitVec 5
  a : BitVec 5
  f3 : BitVec 3
  d : BitVec 5
  op : BitVec 7
deriving DecidableEq, Repr

/-- The word of six fields. -/
def Parts.toWord (p : Parts) : BitVec 32 := p.f7 ++ p.b ++ p.a ++ p.f3 ++ p.d ++ p.op

/-- The six fields of a word. -/
def Parts.ofWord (w : BitVec 32) : Parts where
  f7 := w.extractLsb' 25 7
  b := w.extractLsb' 20 5
  a := w.extractLsb' 15 5
  f3 := w.extractLsb' 12 3
  d := w.extractLsb' 7 5
  op := w.extractLsb' 0 7

/-- The register a five-bit field names. -/
def regOf (b : BitVec 5) : Reg := ⟨b.toNat, b.isLt⟩

/-- The five-bit field of a register. -/
def bitsOf (r : Reg) : BitVec 5 := BitVec.ofNat 5 r.val

/-- The distribution register a field names; a field above 7 names none (R96). -/
def dregOf (b : BitVec 5) : Option DReg8 := if h : b.toNat < 8 then some ⟨b.toNat, h⟩ else none

/-- The field of a distribution register. -/
def dbits (r : DReg8) : BitVec 5 := BitVec.ofNat 5 r.val

/-- The tile a field names; a field above 3 names none (R96). -/
def tileOf (b : BitVec 5) : Option TileNo := if h : b.toNat < 4 then some ⟨b.toNat, h⟩ else none

/-- The field of a tile. -/
def tbits (t : TileNo) : BitVec 5 := BitVec.ofNat 5 t.val

/-- The I immediate (R84). -/
def Parts.immI (p : Parts) : BitVec 12 := p.f7 ++ p.b

/-- The S immediate (R84). -/
def Parts.immS (p : Parts) : BitVec 12 := p.f7 ++ p.d

/-- The B immediate without its zero bit: imm[12:1] (R84). -/
def Parts.immB (p : Parts) : BitVec 12 :=
  p.f7.extractLsb' 6 1 ++ p.d.extractLsb' 0 1 ++ p.f7.extractLsb' 0 6 ++ p.d.extractLsb' 1 4

/-- The U immediate (R84). -/
def Parts.immU (p : Parts) : BitVec 20 := p.f7 ++ p.b ++ p.a ++ p.f3

/-- The J immediate without its zero bit: imm[20:1] (R84). -/
def Parts.immJ (p : Parts) : BitVec 20 :=
  p.f7.extractLsb' 6 1 ++ (p.a ++ p.f3) ++ p.b.extractLsb' 0 1 ++ p.f7.extractLsb' 0 6 ++ p.b.extractLsb' 1 4

/-- Why bytes are no instruction. -/
inductive Reject where
  /-- fewer bytes than the instruction has -/
  | truncated
  /-- an encoding of 48 bits or more (R81) -/
  | long
  /-- a major opcode that carries nothing (R83) -/
  | majorOpcode
  /-- a funct field, fixed field or operand value that no row has (R84 to R100) -/
  | fields
  /-- a compressed encoding that is reserved or left out (R86, R120) -/
  | compressed
deriving DecidableEq, Repr

/-- R117: LOAD. -/
def decodeLoad (p : Parts) : Option Instr :=
  let d := regOf p.d
  let a := regOf p.a
  match p.f3.toNat with
  | 0 => some (.lb d a p.immI)
  | 1 => some (.lh d a p.immI)
  | 2 => some (.lw d a p.immI)
  | 3 => some (.ld d a p.immI)
  | 4 => some (.lbu d a p.immI)
  | 5 => some (.lhu d a p.immI)
  | 6 => some (.lwu d a p.immI)
  | _ => none

/-- R117: STORE. -/
def decodeStore (p : Parts) : Option Instr :=
  let a := regOf p.a
  let b := regOf p.b
  match p.f3.toNat with
  | 0 => some (.sb a b p.immS)
  | 1 => some (.sh a b p.immS)
  | 2 => some (.sw a b p.immS)
  | 3 => some (.sd a b p.immS)
  | _ => none

/-- R116: BRANCH. -/
def decodeBranch (p : Parts) : Option Instr :=
  let a := regOf p.a
  let b := regOf p.b
  match p.f3.toNat with
  | 0 => some (.beq a b p.immB)
  | 1 => some (.bne a b p.immB)
  | 4 => some (.blt a b p.immB)
  | 5 => some (.bge a b p.immB)
  | 6 => some (.bltu a b p.immB)
  | 7 => some (.bgeu a b p.immB)
  | _ => none

/-- R116: OP-IMM. -/
def decodeOpImm (p : Parts) : Option Instr :=
  let d := regOf p.d
  let a := regOf p.a
  let sh : BitVec 6 := p.f7.extractLsb' 0 1 ++ p.b
  match p.f3.toNat with
  | 0 => some (.addi d a p.immI)
  | 1 => if p.f7.extractLsb' 1 6 = 0 then some (.slli d a sh) else none
  | 2 => some (.slti d a p.immI)
  | 3 => some (.sltiu d a p.immI)
  | 4 => some (.xori d a p.immI)
  | 5 =>
    if p.f7.extractLsb' 1 6 = 0 then some (.srli d a sh)
    else if p.f7.extractLsb' 1 6 = 0b010000 then some (.srai d a sh)
    else none
  | 6 => some (.ori d a p.immI)
  | _ => some (.andi d a p.immI)

/-- R116: OP-IMM-32. -/
def decodeOpImm32 (p : Parts) : Option Instr :=
  let d := regOf p.d
  let a := regOf p.a
  match p.f3.toNat with
  | 0 => some (.addiw d a p.immI)
  | 1 => if p.f7 = 0 then some (.slliw d a p.b) else none
  | 5 =>
    if p.f7 = 0 then some (.srliw d a p.b)
    else if p.f7 = 0b0100000 then some (.sraiw d a p.b)
    else none
  | _ => none

/-- R116: OP. -/
def decodeOp (p : Parts) : Option Instr :=
  let d := regOf p.d
  let a := regOf p.a
  let b := regOf p.b
  match p.f7.toNat, p.f3.toNat with
  | 0, 0 => some (.add d a b)
  | 0, 1 => some (.sll d a b)
  | 0, 2 => some (.slt d a b)
  | 0, 3 => some (.sltu d a b)
  | 0, 4 => some (.xor d a b)
  | 0, 5 => some (.srl d a b)
  | 0, 6 => some (.or d a b)
  | 0, 7 => some (.and d a b)
  | 32, 0 => some (.sub d a b)
  | 32, 5 => some (.sra d a b)
  | 1, 0 => some (.mul d a b)
  | 1, 1 => some (.mulh d a b)
  | 1, 2 => some (.mulhsu d a b)
  | 1, 3 => some (.mulhu d a b)
  | 1, 4 => some (.div d a b)
  | 1, 5 => some (.divu d a b)
  | 1, 6 => some (.rem d a b)
  | 1, 7 => some (.remu d a b)
  | _, _ => none

/-- R116: OP-32. -/
def decodeOp32 (p : Parts) : Option Instr :=
  let d := regOf p.d
  let a := regOf p.a
  let b := regOf p.b
  match p.f7.toNat, p.f3.toNat with
  | 0, 0 => some (.addw d a b)
  | 0, 1 => some (.sllw d a b)
  | 0, 5 => some (.srlw d a b)
  | 32, 0 => some (.subw d a b)
  | 32, 5 => some (.sraw d a b)
  | 1, 0 => some (.mulw d a b)
  | 1, 4 => some (.divw d a b)
  | 1, 5 => some (.divuw d a b)
  | 1, 6 => some (.remw d a b)
  | 1, 7 => some (.remuw d a b)
  | _, _ => none

/-- R118: MISC-MEM. -/
def decodeMiscMem (p : Parts) : Option Instr :=
  match p.f3.toNat with
  | 0 => some (.fence (regOf p.d) (regOf p.a) p.immI)
  | 1 => some (.fenceI (regOf p.d) (regOf p.a) p.immI)
  | _ => none

/-- R119, R135: SYSTEM. -/
def decodeSystem (p : Parts) : Option Instr :=
  let d := regOf p.d
  match p.f3.toNat with
  | 0 =>
    if p.f7 = 9 ∧ p.d = 0 then some (.sfenceVma (regOf p.a) (regOf p.b))
    else if p.a = 0 ∧ p.d = 0 then
      match p.f7.toNat, p.b.toNat with
      | 0, 0 => some .ecall
      | 0, 1 => some .ebreak
      | 8, 2 => some .sret
      | 24, 2 => some .mret
      | 8, 5 => some .wfi
      | _, _ => none
    else none
  | 1 => some (.csrrw d (regOf p.a) p.immI)
  | 2 => some (.csrrs d (regOf p.a) p.immI)
  | 3 => some (.csrrc d (regOf p.a) p.immI)
  | 5 => some (.csrrwi d p.a p.immI)
  | 6 => some (.csrrsi d p.a p.immI)
  | 7 => some (.csrrci d p.a p.immI)
  | _ => none

/-- R121: AMO. -/
def decodeAmo (p : Parts) : Option Instr :=
  let d := regOf p.d
  let a := regOf p.a
  let b := regOf p.b
  let aq := p.f7.getLsbD 1
  let rl := p.f7.getLsbD 0
  match p.f3.toNat, (p.f7.extractLsb' 2 5).toNat with
  | 2, 0b00010 => if p.b = 0 then some (.lrW d a aq rl) else none
  | 2, 0b00011 => some (.scW d a b aq rl)
  | 2, 0b00001 => some (.amoswapW d a b aq rl)
  | 2, 0b00000 => some (.amoaddW d a b aq rl)
  | 2, 0b00100 => some (.amoxorW d a b aq rl)
  | 2, 0b00101 => some (.amocasW d a b aq rl)
  | 2, 0b01100 => some (.amoandW d a b aq rl)
  | 2, 0b01000 => some (.amoorW d a b aq rl)
  | 2, 0b10000 => some (.amominW d a b aq rl)
  | 2, 0b10100 => some (.amomaxW d a b aq rl)
  | 2, 0b11000 => some (.amominuW d a b aq rl)
  | 2, 0b11100 => some (.amomaxuW d a b aq rl)
  | 3, 0b00010 => if p.b = 0 then some (.lrD d a aq rl) else none
  | 3, 0b00011 => some (.scD d a b aq rl)
  | 3, 0b00001 => some (.amoswapD d a b aq rl)
  | 3, 0b00000 => some (.amoaddD d a b aq rl)
  | 3, 0b00100 => some (.amoxorD d a b aq rl)
  | 3, 0b00101 => some (.amocasD d a b aq rl)
  | 3, 0b01100 => some (.amoandD d a b aq rl)
  | 3, 0b01000 => some (.amoorD d a b aq rl)
  | 3, 0b10000 => some (.amominD d a b aq rl)
  | 3, 0b10100 => some (.amomaxD d a b aq rl)
  | 3, 0b11000 => some (.amominuD d a b aq rl)
  | 3, 0b11100 => some (.amomaxuD d a b aq rl)
  | _, _ => none

/-- The operands of a two-source VA word; kind 0b11 is no such word (R87). -/
def Parts.vaArgs (p : Parts) : Option VaArgs :=
  let o (s : VaSrc) : VaArgs :=
    { m := p.f7.getLsbD 0, agn := p.f3.getLsbD 2, vd := regOf p.d, vs2 := regOf p.b, s := s }
  match (p.f3.extractLsb' 0 2).toNat with
  | 0 => some (o (.vv (regOf p.a)))
  | 1 => some (o (.vx (regOf p.a)))
  | 2 => some (o (.vi p.a))
  | _ => none

/-- The operands of a VA word whose kind must be VV (R88). -/
def Parts.vvArgs (p : Parts) : Option VvArgs :=
  if p.f3.extractLsb' 0 2 = 0 then
    some { m := p.f7.getLsbD 0, agn := p.f3.getLsbD 2, vd := regOf p.d, vs2 := regOf p.b, vs1 := regOf p.a }
  else none

/-- The operands of a vunary word (R89). -/
def Parts.vuArgs (p : Parts) : VuArgs :=
  { m := p.f7.getLsbD 0, agn := p.f3.getLsbD 2, vd := regOf p.d, vs2 := regOf p.b }

/-- R89: the vunary sub-operations. -/
def decodeVunary (p : Parts) : Option Instr :=
  match p.a.toNat with
  | 0 => some (.vsqrt p.vuArgs)
  | 1 => some (.vrcp p.vuArgs)
  | 2 => some (.vrsqrt p.vuArgs)
  | 3 => some (.vexp2 p.vuArgs)
  | 4 => some (.vlog2 p.vuArgs)
  | 5 => some (.vsin p.vuArgs)
  | 6 => some (.vcos p.vuArgs)
  | 7 => some (.vtanh p.vuArgs)
  | 8 => some (.vclass p.vuArgs)
  | 9 => some (.vabs p.vuArgs)
  | 10 => some (.vneg p.vuArgs)
  | 11 => some (.vid p.vuArgs)
  | 12 => some (.vmpop p.vuArgs)
  | 13 => some (.vmfirst p.vuArgs)
  | 14 => some (.vmvxs p.vuArgs)
  | 15 => some (.vmvsx p.vuArgs)
  | _ => none

/-- R88: VA. -/
def decodeVa (p : Parts) : Option Instr :=
  match (p.f7.extractLsb' 1 6).toNat with
  | 0x00 => p.vaArgs.map .vadd
  | 0x01 => p.vaArgs.map .vsub
  | 0x02 => p.vaArgs.map .vrsub
  | 0x03 => p.vaArgs.map .vmul
  | 0x04 => p.vaArgs.map .vmulh
  | 0x05 => p.vaArgs.map .vdiv
  | 0x06 => p.vaArgs.map .vrem
  | 0x07 => p.vaArgs.map .vmin
  | 0x08 => p.vaArgs.map .vmax
  | 0x09 => p.vaArgs.map .vsadd
  | 0x0A => p.vaArgs.map .vssub
  | 0x0B => p.vaArgs.map .vand
  | 0x0C => p.vaArgs.map .vor
  | 0x0D => p.vaArgs.map .vxor
  | 0x0E => p.vaArgs.map .vsll
  | 0x0F => p.vaArgs.map .vsrl
  | 0x10 => p.vaArgs.map .vsra
  | 0x11 => p.vaArgs.map .vfma
  | 0x12 => p.vaArgs.map .vfms
  | 0x13 => p.vaArgs.map .vfnma
  | 0x14 => p.vaArgs.map .vsgnj
  | 0x15 => p.vaArgs.map .vsgnjn
  | 0x16 => p.vaArgs.map .vsgnjx
  | 0x17 => p.vaArgs.map .vceq
  | 0x18 => p.vaArgs.map .vcne
  | 0x19 => p.vaArgs.map .vclt
  | 0x1A => p.vaArgs.map .vcle
  | 0x1B => p.vaArgs.map .vcgt
  | 0x1C => p.vaArgs.map .vcge
  | 0x1D => p.vaArgs.map .vmerge
  | 0x1E => p.vaArgs.map .vmv
  | 0x1F => p.vaArgs.map .vslideup
  | 0x20 => p.vaArgs.map .vslidedown
  | 0x21 => p.vaArgs.map .vgather
  | 0x22 => p.vvArgs.map .vcompress
  | 0x23 => p.vvArgs.map .vmand
  | 0x24 => p.vvArgs.map .vmor
  | 0x25 => p.vvArgs.map .vmxor
  | 0x26 => p.vvArgs.map .vmandn
  | 0x27 => if p.f3.extractLsb' 0 2 = 3 then decodeVunary p else none
  | 0x28 =>
    if p.f3.extractLsb' 0 2 = 3 then
      some (.vcvt { m := p.f7.getLsbD 0, agn := p.f3.getLsbD 2, vd := regOf p.d, vs2 := regOf p.b, t := p.a })
    else none
  | 0x29 => p.vvArgs.map .vbdot
  | 0x2A => if p.f3.extractLsb' 0 2 = 0 ∧ p.a = 0 then some (.vbexp p.vuArgs) else none
  | 0x2B => if p.f3.extractLsb' 0 2 = 0 ∧ p.a = 0 then some (.vbpack p.vuArgs) else none
  | 0x2C => p.vaArgs.map .vredsum
  | 0x2D => p.vaArgs.map .vredmin
  | 0x2E => p.vaArgs.map .vredmax
  | 0x2F => p.vaArgs.map .vscan
  | _ => none

/-- The operands of a VM load or store word (R92). -/
def Parts.vmArgs (p : Parts) : VmArgs :=
  { l := p.f7.extractLsb' 3 4, ovt := p.f7.getLsbD 2, ord := p.f7.getLsbD 1, m := p.f7.getLsbD 0, b := regOf p.b,
    a := regOf p.a, d := regOf p.d }

/-- The operands of a vamo word (R93). -/
def Parts.vamoArgs (p : Parts) : VamoArgs :=
  { l := p.f7.extractLsb' 3 4, m := p.f7.getLsbD 0, b := regOf p.b, a := regOf p.a, d := regOf p.d }

/-- R93: VM. -/
def decodeVm (p : Parts) : Option Instr :=
  match p.f3.toNat with
  | 0 => some (.vld p.vmArgs)
  | 1 => some (.vldSt p.vmArgs)
  | 2 => some (.vldIx p.vmArgs)
  | 3 =>
    match (p.f7.extractLsb' 1 2).toNat with
    | 0 => some (.vamoadd p.vamoArgs)
    | 1 => some (.vamomin p.vamoArgs)
    | 2 => some (.vamomax p.vamoArgs)
    | _ => some (.vamoswap p.vamoArgs)
  | 4 => some (.vst p.vmArgs)
  | 5 => some (.vstSt p.vmArgs)
  | 6 => some (.vstIx p.vmArgs)
  | _ => none

/-- R95: LX, funct3 0b000, the matrix group. -/
def decodeMatrix (p : Parts) : Option Instr :=
  let l := p.f7.extractLsb' 3 4
  let a := regOf p.a
  let b := regOf p.b
  match (p.f7.extractLsb' 0 3).toNat with
  | 0 => if p.d = 0 ∧ p.b = 0 then some (.mcfg l a) else none
  | 1 => (tileOf p.d).map (.mopa l · a b)
  | 2 => if p.a = 0 ∧ p.b = 0 then (tileOf p.d).map (.mzero l ·) else none
  | 3 => (tileOf p.d).map (.mld l · a b)
  | 4 =>
    if p.d.extractLsb' 2 3 = 1 then (tileOf (p.d &&& 3)).map (.mstRel l · a b)
    else (tileOf p.d).map (.mst l · a b)
  | 5 => if p.a = 0 ∧ p.b = 0 then (tileOf p.d).map (.mrelease l ·) else none
  | 6 => if p.a = 0 ∧ p.b = 0 then (tileOf p.d).map (.mwait l ·) else none
  | _ => if p.d = 0 then some (.mwexp l a b) else none

/-- Three distribution registers. -/
def Parts.ddd (p : Parts) (f : DReg8 → DReg8 → DReg8 → Instr) : Option Instr :=
  match dregOf p.d, dregOf p.a, dregOf p.b with
  | some d, some a, some b => some (f d a b)
  | _, _, _ => none

/-- Two distribution registers and another field. -/
def Parts.ddr (p : Parts) (f : DReg8 → DReg8 → Reg → Instr) : Option Instr :=
  match dregOf p.d, dregOf p.a with
  | some d, some a => some (f d a (regOf p.b))
  | _, _ => none

/-- R95: LX, funct3 0b001, distribution arithmetic. -/
def decodeDistArith (p : Parts) : Option Instr :=
  let l := p.f7.extractLsb' 3 4
  match (p.f7.extractLsb' 0 3).toNat with
  | 0 => p.ddd (.dadd l)
  | 1 => p.ddd (.dsub l)
  | 2 => p.ddd (.dmul l)
  | 3 => p.ddd (.dmax l)
  | 4 => p.ddd (.dmin l)
  | 5 => p.ddr (.dmix l)
  | 6 => (dregOf p.d).map (fun d => .dscale l d (regOf p.a) (regOf p.b))
  | _ => p.ddr (.dcond l)

/-- R95: LX, funct3 0b010, distribution transfer. -/
def decodeDistMove (p : Parts) : Option Instr :=
  let l := p.f7.extractLsb' 3 4
  match (p.f7.extractLsb' 0 3).toNat with
  | 0 => if p.b = 0 then (dregOf p.d).map (fun d => .dtag l d (regOf p.a)) else none
  | 1 => if p.b = 0 then (dregOf p.d).map (fun d => .dpoint l d (regOf p.a)) else none
  | 2 => (dregOf p.d).map (fun d => .dgauss l d (regOf p.a) (regOf p.b))
  | 3 =>
    if p.b.extractLsb' 2 3 = 0 then (dregOf p.a).map (fun a => .dmom l (regOf p.d) a (p.b.extractLsb' 0 2)) else none
  | 4 => (dregOf p.a).map (fun a => .dqnt l (regOf p.d) a (regOf p.b))
  | 5 => (dregOf p.a).map (fun a => .dcdf l (regOf p.d) a (regOf p.b))
  | 6 => if p.b = 0 then (dregOf p.d).map (fun d => .dld l d (regOf p.a)) else none
  | _ => if p.b = 0 then (dregOf p.d).map (fun d => .dst l d (regOf p.a)) else none

/-- R95: LX, funct3 0b011, graphics. -/
def decodeGraphics (p : Parts) : Option Instr :=
  let l := p.f7.extractLsb' 3 4
  let d := regOf p.d
  let a := regOf p.a
  let b := regOf p.b
  match (p.f7.extractLsb' 0 3).toNat with
  | 0 => some (.xbox l d a b)
  | 1 => some (.xtri l d a b)
  | 2 => some (.xedge l d a b)
  | 3 => some (.vdedup l d a b)
  | 4 => some (.tfetch l d a b)
  | 5 => some (.tgrad l d a b)
  | 6 => some (.gfeat l d a b)
  | _ => if p.d = 0 then some (.zcommit l a b) else none

/-- R95: LX, funct3 0b100, rays. -/
def decodeRays (p : Parts) : Option Instr :=
  let l := p.f7.extractLsb' 3 4
  let d := regOf p.d
  let a := regOf p.a
  let b := regOf p.b
  match (p.f7.extractLsb' 0 3).toNat with
  | 0 => some (.trace l d a b)
  | 1 => if p.a = 0 ∧ p.b = 0 then some (.rwait l d) else none
  | 2 => if p.b = 0 then some (.rget l d a) else none
  | 3 => if p.d = 0 then some (.rhit l a b) else none
  | 4 => if p.d = 0 ∧ p.b = 0 then some (.rcancel l a) else none
  | _ => none

/-- R95: LX. -/
def decodeLx (p : Parts) : Option Instr :=
  match p.f3.toNat with
  | 0 => decodeMatrix p
  | 1 => decodeDistArith p
  | 2 => decodeDistMove p
  | 3 => decodeGraphics p
  | 4 => decodeRays p
  | _ => none

/-- R95: TX, funct3 0b011, helpers and tasks. -/
def decodeTasks (p : Parts) : Option Instr :=
  let l := p.f7.extractLsb' 3 4
  let d := regOf p.d
  let a := regOf p.a
  match (p.f7.extractLsb' 0 3).toNat with
  | 0 => some (.hstart l d a (regOf p.b))
  | 1 => if p.d = 0 ∧ p.b = 0 then some (.hjoin l a) else none
  | 2 => if p.d = 0 ∧ p.a = 0 ∧ p.b = 0 then some (.hexit l) else none
  | 3 => if p.d = 0 ∧ p.a = 0 ∧ p.b = 0 then some (.hyield l) else none
  | 4 => if p.b = 0 then some (.qput l d a) else none
  | 5 => if p.b = 0 then some (.qtake l d a) else none
  | 6 => if p.b = 0 then some (.qsteal l d a) else none
  | _ => if p.d = 0 ∧ p.b = 0 then some (.qdone l a) else none

/-- R95: TX, funct3 0b100, barriers and rings. -/
def decodeBarriers (p : Parts) : Option Instr :=
  let l := p.f7.extractLsb' 3 4
  let d := regOf p.d
  let a := regOf p.a
  let s := p.b.extractLsb' 0 3
  match (p.f7.extractLsb' 0 3).toNat with
  | 0 => if p.d = 0 ∧ p.b.extractLsb' 3 2 = 0 then some (.bar l a s) else none
  | 1 => if p.d = 0 ∧ p.b.extractLsb' 3 2 = 0 then some (.barr l a s) else none
  | 2 => if p.d = 0 ∧ p.b.extractLsb' 3 2 = 0 then some (.barw l a s) else none
  | 3 => if p.d = 0 then some (.rinit l a (regOf p.b)) else none
  | 4 => if p.b = 0 then some (.rawait l d a) else none
  | 5 => if p.d = 0 ∧ p.b = 0 then some (.rrel l a) else none
  | _ => none

/-- R95: TX, funct3 0b101, streams and ordering. -/
def decodeStreams (p : Parts) : Option Instr :=
  let l := p.f7.extractLsb' 3 4
  let d := regOf p.d
  let a := regOf p.a
  let s := p.b.extractLsb' 0 3
  let w := p.b.extractLsb' 3 2
  match (p.f7.extractLsb' 0 3).toNat with
  | 0 => if p.d = 0 then some (.sbind l a (regOf p.b)) else none
  | 1 => if p.b = 0 then some (.sjob l d a) else none
  | 2 => if p.d = 0 ∧ p.b = 0 then some (.swait l a) else none
  | 3 => if p.b = 0 then some (.scoll l d a) else none
  | 4 => some (.ldacq l d a w s)
  | 5 => some (.strel l d a w s)
  | 6 =>
    if p.d.extractLsb' 4 1 = 0 ∧ p.a.extractLsb' 4 1 = 0 ∧ w = 0 then
      some (.ofence l (p.d.extractLsb' 0 4) (p.a.extractLsb' 0 4) s)
    else none
  | _ => none

/-- R95, R98 to R100: TX. -/
def decodeTx (p : Parts) : Option Instr :=
  match p.f3.toNat with
  | 0 => some (.bsubnz (regOf p.a) (regOf p.b) p.immB)
  | 1 =>
    some (.vsetl (regOf p.d) (regOf p.a) (p.f7.extractLsb' 1 6) (p.f7.extractLsb' 0 1 ++ p.b.extractLsb' 3 2)
      (p.b.extractLsb' 0 3))
  | 2 =>
    if p.b.extractLsb' 0 3 = 0 then
      some (.vcfg (regOf p.d) (regOf p.a) (p.f7.extractLsb' 4 3) (p.f7.extractLsb' 0 4) (p.b.extractLsb' 3 2))
    else none
  | 3 => decodeTasks p
  | 4 => decodeBarriers p
  | 5 => decodeStreams p
  | _ => none

/-- The instruction of the fields of a 32-bit word by its major opcode (R83), before the checks of operand values. -/
def decodeMajor (p : Parts) : Option Instr :=
  match p.op.toNat with
  | 0x37 => some (.lui (regOf p.d) p.immU)
  | 0x17 => some (.auipc (regOf p.d) p.immU)
  | 0x6F => some (.jal (regOf p.d) p.immJ)
  | 0x67 => if p.f3 = 0 then some (.jalr (regOf p.d) (regOf p.a) p.immI) else none
  | 0x63 => decodeBranch p
  | 0x03 => decodeLoad p
  | 0x23 => decodeStore p
  | 0x13 => decodeOpImm p
  | 0x1B => decodeOpImm32 p
  | 0x33 => decodeOp p
  | 0x3B => decodeOp32 p
  | 0x0F => decodeMiscMem p
  | 0x73 => decodeSystem p
  | 0x2F => decodeAmo p
  | 0x0B => decodeVa p
  | 0x2B => decodeVm p
  | 0x5B => decodeLx p
  | 0x7B => decodeTx p
  | _ => none

/-- Whether a major opcode carries anything (R83). -/
def majorCarries (op : BitVec 7) : Bool :=
  [0x37, 0x17, 0x6F, 0x67, 0x63, 0x03, 0x23, 0x13, 0x1B, 0x33, 0x3B, 0x0F, 0x73, 0x2F, 0x0B, 0x2B, 0x5B, 0x7B].contains
    op.toNat

/-- Steps 2 and 3 of R101 for a 32-bit word. -/
def decode32 (w : BitVec 32) : Except Reject Instr :=
  let p := Parts.ofWord w
  if p.op.extractLsb' 2 3 = 7 then .error .long
  else if majorCarries p.op then
    match decodeMajor p with
    | some i => if i.wf then .ok i else .error .fields
    | none => .error .fields
  else .error .majorOpcode

/-- The five fields that every compressed layout is cut from. -/
structure CParts where
  f3 : BitVec 3
  c : BitVec 1
  hi : BitVec 5
  lo : BitVec 5
  op : BitVec 2
deriving DecidableEq, Repr

/-- The parcel of five fields. -/
def CParts.toWord (p : CParts) : BitVec 16 := p.f3 ++ p.c ++ p.hi ++ p.lo ++ p.op

/-- The five fields of a parcel. -/
def CParts.ofWord (w : BitVec 16) : CParts where
  f3 := w.extractLsb' 13 3
  c := w.extractLsb' 12 1
  hi := w.extractLsb' 7 5
  lo := w.extractLsb' 2 5
  op := w.extractLsb' 0 2

/-- The register of a three-bit field: x8 to x15. -/
def cregOf (b : BitVec 3) : Reg := ⟨8 + b.toNat, by have := b.isLt; omega⟩

/-- The register in bits [11:7]. -/
def CParts.rd (p : CParts) : Reg := regOf p.hi

/-- The register in bits [6:2]. -/
def CParts.rs2 (p : CParts) : Reg := regOf p.lo

/-- The register in bits [9:7]. -/
def CParts.r1 (p : CParts) : Reg := cregOf (p.hi.extractLsb' 0 3)

/-- The register in bits [4:2]. -/
def CParts.r2 (p : CParts) : Reg := cregOf (p.lo.extractLsb' 0 3)

/-- The six-bit immediate of bit 12 and bits [6:2]. -/
def CParts.imm6 (p : CParts) : BitVec 6 := p.c ++ p.lo

/-- c.addi4spn: nzuimm[9:2]. -/
def CParts.immSpn (p : CParts) : BitVec 8 :=
  p.hi.extractLsb' 0 4 ++ (p.c ++ p.hi.extractLsb' 4 1) ++ p.lo.extractLsb' 3 1 ++ p.lo.extractLsb' 4 1

/-- c.lw and c.sw: uimm[6:2]. -/
def CParts.immW (p : CParts) : BitVec 5 :=
  p.lo.extractLsb' 3 1 ++ (p.c ++ p.hi.extractLsb' 3 2) ++ p.lo.extractLsb' 4 1

/-- c.ld and c.sd: uimm[7:3]. -/
def CParts.immD (p : CParts) : BitVec 5 := p.lo.extractLsb' 3 2 ++ (p.c ++ p.hi.extractLsb' 3 2)

/-- c.addi16sp: nzimm[9:4]. -/
def CParts.imm16sp (p : CParts) : BitVec 6 :=
  p.c ++ p.lo.extractLsb' 1 2 ++ p.lo.extractLsb' 3 1 ++ p.lo.extractLsb' 0 1 ++ p.lo.extractLsb' 4 1

/-- c.j: imm[11:1]. -/
def CParts.immJ (p : CParts) : BitVec 11 :=
  p.c ++ p.hi.extractLsb' 1 1 ++ p.hi.extractLsb' 2 2 ++ p.lo.extractLsb' 4 1 ++ p.hi.extractLsb' 0 1
    ++ p.lo.extractLsb' 0 1 ++ p.hi.extractLsb' 4 1 ++ p.lo.extractLsb' 1 3

/-- c.beqz and c.bnez: imm[8:1]. -/
def CParts.immB (p : CParts) : BitVec 8 :=
  p.c ++ p.lo.extractLsb' 3 2 ++ p.lo.extractLsb' 0 1 ++ p.hi.extractLsb' 3 2 ++ p.lo.extractLsb' 1 2

/-- c.lwsp: uimm[7:2]. -/
def CParts.immLwsp (p : CParts) : BitVec 6 := p.lo.extractLsb' 0 2 ++ p.c ++ p.lo.extractLsb' 2 3

/-- c.ldsp: uimm[8:3]. -/
def CParts.immLdsp (p : CParts) : BitVec 6 := p.lo.extractLsb' 0 3 ++ p.c ++ p.lo.extractLsb' 3 2

/-- c.swsp: uimm[7:2]. -/
def CParts.immSwsp (p : CParts) : BitVec 6 := p.hi.extractLsb' 0 2 ++ (p.c ++ p.hi.extractLsb' 2 3)

/-- c.sdsp: uimm[8:3]. -/
def CParts.immSdsp (p : CParts) : BitVec 6 := p.hi.extractLsb' 0 3 ++ (p.c ++ p.hi.extractLsb' 3 2)

/-- Quadrant 0b00 (R120). -/
def decodeQ0 (p : CParts) : Option Instr :=
  match p.f3.toNat with
  | 0 => if p.immSpn = 0 then none else some .cAddi4spn
  | 2 => some .cLw
  | 3 => some .cLd
  | 6 => some .cSw
  | 7 => some .cSd
  | _ => none

/-- Quadrant 0b01, funct3 0b100 (R120). -/
def decodeQ1Alu (p : CParts) : Option Instr :=
  match (p.hi.extractLsb' 3 2).toNat, p.c.toNat, (p.lo.extractLsb' 3 2).toNat with
  | 0, _, _ => if p.imm6 = 0 then some .hint else some .cSrli
  | 1, _, _ => if p.imm6 = 0 then some .hint else some .cSrai
  | 2, _, _ => some .cAndi
  | _, 0, 0 => some .cSub
  | _, 0, 1 => some .cXor
  | _, 0, 2 => some .cOr
  | _, 0, 3 => some .cAnd
  | _, 1, 0 => some .cSubw
  | _, 1, 1 => some .cAddw
  | _, _, _ => none

/-- Quadrant 0b01 (R120). -/
def decodeQ1 (p : CParts) : Option Instr :=
  match p.f3.toNat with
  | 0 =>
    if p.hi = 0 then (if p.imm6 = 0 then some .cNop else some .hint)
    else if p.imm6 = 0 then some .hint
    else some .cAddi
  | 1 => if p.hi = 0 then none else some .cAddiw
  | 2 => if p.hi = 0 then some .hint else some .cLi
  | 3 =>
    if p.imm6 = 0 then none
    else if p.hi = 2 then some .cAddi16sp
    else if p.hi = 0 then some .hint
    else some .cLui
  | 4 => decodeQ1Alu p
  | 5 => some .cJ
  | 6 => some .cBeqz
  | _ => some .cBnez

/-- Quadrant 0b10 (R120). -/
def decodeQ2 (p : CParts) : Option Instr :=
  match p.f3.toNat with
  | 0 => if p.hi = 0 ∨ p.imm6 = 0 then some .hint else some .cSlli
  | 2 => if p.hi = 0 then none else some .cLwsp
  | 3 => if p.hi = 0 then none else some .cLdsp
  | 4 =>
    if p.c = 0 then
      if p.lo = 0 then (if p.hi = 0 then none else some .cJr)
      else if p.hi = 0 then some .hint
      else some .cMv
    else
      if p.lo = 0 then (if p.hi = 0 then some .cEbreak else some .cJalr)
      else if p.hi = 0 then some .hint
      else some .cAdd
  | 6 => some .cSwsp
  | 7 => some .cSdsp
  | _ => none

/-- A compressed parcel (R86, R120), with its HINTs by R85. -/
def decode16 (w : BitVec 16) : Except Reject Instr :=
  let p := CParts.ofWord w
  let r := match p.op.toNat with
    | 0 => decodeQ0 p
    | 1 => decodeQ1 p
    | 2 => decodeQ2 p
    | _ => none
  match r with
  | some i => .ok i
  | none => .error .compressed

/-- A decoded instruction, its length in bytes and its bits (R82). -/
structure Decoded where
  instr : Instr
  len : Nat
  bits : BitVec 32
deriving DecidableEq, Repr

/-- The little-endian 16-bit value of two bytes (R81). -/
def parcel (lo hi : Byte) : BitVec 16 := hi ++ lo

/-- The instruction that bytes begin with (R81): total, refusing by name. -/
def decode : List Byte → Except Reject Decoded
  | b0 :: b1 :: t =>
    if b0.extractLsb' 0 2 = 3 then
      match t with
      | b2 :: b3 :: _ =>
        match decode32 (parcel b2 b3 ++ parcel b0 b1) with
        | .ok i => .ok { instr := i, len := 4, bits := parcel b2 b3 ++ parcel b0 b1 }
        | .error e => .error e
      | _ => .error .truncated
    else
      match decode16 (parcel b0 b1) with
      | .ok i => .ok { instr := i, len := 2, bits := (parcel b0 b1).setWidth 32 }
      | .error e => .error e
  | _ => .error .truncated

/-- The bytes of a word, lowest address first (R10). -/
def bytesLE (n : Nat) (w : Nat) : List Byte := (List.range n).map (fun i => BitVec.ofNat 8 (w >>> (8 * i)))

/-- The number of bytes, lowest address first (R10). -/
def natLE : List Byte → Nat
  | [] => 0
  | b :: t => b.toNat + 256 * natLE t

/-- The instruction that the decoder reads from an instruction whose bits are `w`: bits above the row's bits are zero,
and the words lie in memory lowest first. -/
def decodeTableWord (nbits w : Nat) : Option Instr :=
  match decode (bytesLE (max 4 (nbits / 8)) w) with
  | .ok d => some d.instr
  | .error _ => none

/-! The encoder. -/

/-- The fields of an R word. -/
def encR (f7 : BitVec 7) (b a : Reg) (f3 : BitVec 3) (d : Reg) (op : BitVec 7) : Option Parts :=
  some { f7 := f7, b := bitsOf b, a := bitsOf a, f3 := f3, d := bitsOf d, op := op }

/-- The fields of an I word. -/
def encI (i : BitVec 12) (a : Reg) (f3 : BitVec 3) (d : Reg) (op : BitVec 7) : Option Parts :=
  some { f7 := i.extractLsb' 5 7, b := i.extractLsb' 0 5, a := bitsOf a, f3 := f3, d := bitsOf d, op := op }

/-- The fields of an S word. -/
def encS (i : BitVec 12) (b a : Reg) (f3 : BitVec 3) (op : BitVec 7) : Option Parts :=
  some { f7 := i.extractLsb' 5 7, b := bitsOf b, a := bitsOf a, f3 := f3, d := i.extractLsb' 0 5, op := op }

/-- The fields of a B word; the offset is given as imm[12:1]. -/
def encB (i : BitVec 12) (b a : Reg) (f3 : BitVec 3) (op : BitVec 7) : Option Parts :=
  some { f7 := i.extractLsb' 11 1 ++ i.extractLsb' 4 6, b := bitsOf b, a := bitsOf a, f3 := f3,
         d := i.extractLsb' 0 4 ++ i.extractLsb' 10 1, op := op }

/-- The fields of a U word. -/
def encU (i : BitVec 20) (d : Reg) (op : BitVec 7) : Option Parts :=
  some { f7 := i.extractLsb' 13 7, b := i.extractLsb' 8 5, a := i.extractLsb' 3 5, f3 := i.extractLsb' 0 3,
         d := bitsOf d, op := op }

/-- The fields of a J word; the offset is given as imm[20:1]. -/
def encJ (i : BitVec 20) (d : Reg) (op : BitVec 7) : Option Parts :=
  some { f7 := i.extractLsb' 19 1 ++ i.extractLsb' 4 6, b := i.extractLsb' 0 4 ++ i.extractLsb' 10 1,
         a := i.extractLsb' 14 5, f3 := i.extractLsb' 11 3, d := bitsOf d, op := op }

/-- The fields of a shift by a six-bit amount. -/
def encSh (f6 : BitVec 6) (h : BitVec 6) (a : Reg) (f3 : BitVec 3) (d : Reg) : Option Parts :=
  some { f7 := f6 ++ h.extractLsb' 5 1, b := h.extractLsb' 0 5, a := bitsOf a, f3 := f3, d := bitsOf d, op := 0x13 }

/-- The fields of a shift by a five-bit amount. -/
def encShW (f7 : BitVec 7) (h : BitVec 5) (a : Reg) (f3 : BitVec 3) (d : Reg) : Option Parts :=
  some { f7 := f7, b := h, a := bitsOf a, f3 := f3, d := bitsOf d, op := 0x1B }

/-- The fields of an AMO word (R121). -/
def encAmo (f5 : BitVec 5) (f3 : BitVec 3) (d a b : Reg) (aq rl : Bool) : Option Parts :=
  some { f7 := f5 ++ BitVec.ofBool aq ++ BitVec.ofBool rl, b := bitsOf b, a := bitsOf a, f3 := f3, d := bitsOf d,
         op := 0x2F }

/-- The fields of a two-source VA word (R87). -/
def encVa (f6 : BitVec 6) (o : VaArgs) : Option Parts :=
  let k : BitVec 2 × BitVec 5 := match o.s with
    | .vv r => (0, bitsOf r)
    | .vx r => (1, bitsOf r)
    | .vi i => (2, i)
  some { f7 := f6 ++ BitVec.ofBool o.m, b := bitsOf o.vs2, a := k.2, f3 := BitVec.ofBool o.agn ++ k.1,
         d := bitsOf o.vd, op := 0x0B }

/-- The fields of a VA word of kind VV (R88). -/
def encVv (f6 : BitVec 6) (o : VvArgs) : Option Parts :=
  some { f7 := f6 ++ BitVec.ofBool o.m, b := bitsOf o.vs2, a := bitsOf o.vs1,
         f3 := BitVec.ofBool o.agn ++ (0 : BitVec 2), d := bitsOf o.vd, op := 0x0B }

/-- The fields of a VA word with [19:15] and the kind given (R89, R90, R171). -/
def encVu (f6 : BitVec 6) (k : BitVec 2) (sub : BitVec 5) (m agn : Bool) (vs2 vd : Reg) : Option Parts :=
  some { f7 := f6 ++ BitVec.ofBool m, b := bitsOf vs2, a := sub, f3 := BitVec.ofBool agn ++ k, d := bitsOf vd,
         op := 0x0B }

/-- The fields of a vunary word (R89). -/
def encUn (sub : BitVec 5) (o : VuArgs) : Option Parts := encVu 0x27 3 sub o.m o.agn o.vs2 o.vd

/-- The fields of a VM word (R92). -/
def encVm (f3 : BitVec 3) (o : VmArgs) : Option Parts :=
  some { f7 := o.l ++ BitVec.ofBool o.ovt ++ BitVec.ofBool o.ord ++ BitVec.ofBool o.m, b := bitsOf o.b,
         a := bitsOf o.a, f3 := f3, d := bitsOf o.d, op := 0x2B }

/-- The fields of a vamo word (R93). -/
def encVamo (k : BitVec 2) (o : VamoArgs) : Option Parts :=
  some { f7 := o.l ++ k ++ BitVec.ofBool o.m, b := bitsOf o.b, a := bitsOf o.a, f3 := 3, d := bitsOf o.d, op := 0x2B }

/-- The fields of an LX word (R94). -/
def encL (l : BitVec 4) (f3b : BitVec 3) (f3 : BitVec 3) (d a b : BitVec 5) : Option Parts :=
  some { f7 := l ++ f3b, b := b, a := a, f3 := f3, d := d, op := 0x5B }

/-- The fields of a TX word with lookahead (R94). -/
def encT (l : BitVec 4) (f3b : BitVec 3) (f3 : BitVec 3) (d a b : BitVec 5) : Option Parts :=
  some { f7 := l ++ f3b, b := b, a := a, f3 := f3, d := d, op := 0x7B }

/-- The field of a scope code and, for ldacq and strel, a width code above it (R95). -/
def encScope (w : BitVec 2) (s : BitVec 3) : BitVec 5 := w ++ s

/-- The fields of a SYSTEM word without operands (R119). -/
def encSys (w : BitVec 32) : Option Parts := some (Parts.ofWord w)

/-- The fields of an instruction of the base set (R116 to R124, R135). -/
def encodeBase : Instr → Option Parts
  | .lui d i => encU i d 0x37
  | .auipc d i => encU i d 0x17
  | .jal d off => encJ off d 0x6F
  | .jalr d a i => encI i a 0 d 0x67
  | .beq a b off => encB off b a 0 0x63
  | .bne a b off => encB off b a 1 0x63
  | .blt a b off => encB off b a 4 0x63
  | .bge a b off => encB off b a 5 0x63
  | .bltu a b off => encB off b a 6 0x63
  | .bgeu a b off => encB off b a 7 0x63
  | .lb d a i => encI i a 0 d 0x03
  | .lh d a i => encI i a 1 d 0x03
  | .lw d a i => encI i a 2 d 0x03
  | .ld d a i => encI i a 3 d 0x03
  | .lbu d a i => encI i a 4 d 0x03
  | .lhu d a i => encI i a 5 d 0x03
  | .lwu d a i => encI i a 6 d 0x03
  | .sb a b i => encS i b a 0 0x23
  | .sh a b i => encS i b a 1 0x23
  | .sw a b i => encS i b a 2 0x23
  | .sd a b i => encS i b a 3 0x23
  | .addi d a i => encI i a 0 d 0x13
  | .slti d a i => encI i a 2 d 0x13
  | .sltiu d a i => encI i a 3 d 0x13
  | .xori d a i => encI i a 4 d 0x13
  | .ori d a i => encI i a 6 d 0x13
  | .andi d a i => encI i a 7 d 0x13
  | .slli d a h => encSh 0 h a 1 d
  | .srli d a h => encSh 0 h a 5 d
  | .srai d a h => encSh 0b010000 h a 5 d
  | .addiw d a i => encI i a 0 d 0x1B
  | .slliw d a h => encShW 0 h a 1 d
  | .srliw d a h => encShW 0 h a 5 d
  | .sraiw d a h => encShW 0b0100000 h a 5 d
  | .add d a b => encR 0 b a 0 d 0x33
  | .sll d a b => encR 0 b a 1 d 0x33
  | .slt d a b => encR 0 b a 2 d 0x33
  | .sltu d a b => encR 0 b a 3 d 0x33
  | .xor d a b => encR 0 b a 4 d 0x33
  | .srl d a b => encR 0 b a 5 d 0x33
  | .or d a b => encR 0 b a 6 d 0x33
  | .and d a b => encR 0 b a 7 d 0x33
  | .sub d a b => encR 0b0100000 b a 0 d 0x33
  | .sra d a b => encR 0b0100000 b a 5 d 0x33
  | .mul d a b => encR 1 b a 0 d 0x33
  | .mulh d a b => encR 1 b a 1 d 0x33
  | .mulhsu d a b => encR 1 b a 2 d 0x33
  | .mulhu d a b => encR 1 b a 3 d 0x33
  | .div d a b => encR 1 b a 4 d 0x33
  | .divu d a b => encR 1 b a 5 d 0x33
  | .rem d a b => encR 1 b a 6 d 0x33
  | .remu d a b => encR 1 b a 7 d 0x33
  | .addw d a b => encR 0 b a 0 d 0x3B
  | .sllw d a b => encR 0 b a 1 d 0x3B
  | .srlw d a b => encR 0 b a 5 d 0x3B
  | .subw d a b => encR 0b0100000 b a 0 d 0x3B
  | .sraw d a b => encR 0b0100000 b a 5 d 0x3B
  | .mulw d a b => encR 1 b a 0 d 0x3B
  | .divw d a b => encR 1 b a 4 d 0x3B
  | .divuw d a b => encR 1 b a 5 d 0x3B
  | .remw d a b => encR 1 b a 6 d 0x3B
  | .remuw d a b => encR 1 b a 7 d 0x3B
  | .fence d a i => encI i a 0 d 0x0F
  | .fenceI d a i => encI i a 1 d 0x0F
  | .ecall => encSys 0x00000073
  | .ebreak => encSys 0x00100073
  | .sret => encSys 0x10200073
  | .mret => encSys 0x30200073
  | .wfi => encSys 0x10500073
  | .sfenceVma a b => encR 0b0001001 b a 0 0 0x73
  | .csrrw d a c => encI c a 1 d 0x73
  | .csrrs d a c => encI c a 2 d 0x73
  | .csrrc d a c => encI c a 3 d 0x73
  | .csrrwi d u c => encI c (regOf u) 5 d 0x73
  | .csrrsi d u c => encI c (regOf u) 6 d 0x73
  | .csrrci d u c => encI c (regOf u) 7 d 0x73
  | .lrW d a aq rl => encAmo 0b00010 2 d a 0 aq rl
  | .lrD d a aq rl => encAmo 0b00010 3 d a 0 aq rl
  | .scW d a b aq rl => encAmo 0b00011 2 d a b aq rl
  | .scD d a b aq rl => encAmo 0b00011 3 d a b aq rl
  | .amoswapW d a b aq rl => encAmo 0b00001 2 d a b aq rl
  | .amoswapD d a b aq rl => encAmo 0b00001 3 d a b aq rl
  | .amoaddW d a b aq rl => encAmo 0b00000 2 d a b aq rl
  | .amoaddD d a b aq rl => encAmo 0b00000 3 d a b aq rl
  | .amoxorW d a b aq rl => encAmo 0b00100 2 d a b aq rl
  | .amoxorD d a b aq rl => encAmo 0b00100 3 d a b aq rl
  | .amocasW d a b aq rl => encAmo 0b00101 2 d a b aq rl
  | .amocasD d a b aq rl => encAmo 0b00101 3 d a b aq rl
  | .amoandW d a b aq rl => encAmo 0b01100 2 d a b aq rl
  | .amoandD d a b aq rl => encAmo 0b01100 3 d a b aq rl
  | .amoorW d a b aq rl => encAmo 0b01000 2 d a b aq rl
  | .amoorD d a b aq rl => encAmo 0b01000 3 d a b aq rl
  | .amominW d a b aq rl => encAmo 0b10000 2 d a b aq rl
  | .amominD d a b aq rl => encAmo 0b10000 3 d a b aq rl
  | .amomaxW d a b aq rl => encAmo 0b10100 2 d a b aq rl
  | .amomaxD d a b aq rl => encAmo 0b10100 3 d a b aq rl
  | .amominuW d a b aq rl => encAmo 0b11000 2 d a b aq rl
  | .amominuD d a b aq rl => encAmo 0b11000 3 d a b aq rl
  | .amomaxuW d a b aq rl => encAmo 0b11100 2 d a b aq rl
  | .amomaxuD d a b aq rl => encAmo 0b11100 3 d a b aq rl
  | _ => none

/-- The fields of a VA or VM instruction (R88, R89, R93). -/
def encodeVector : Instr → Option Parts
  | .vadd o => encVa 0x00 o
  | .vsub o => encVa 0x01 o
  | .vrsub o => encVa 0x02 o
  | .vmul o => encVa 0x03 o
  | .vmulh o => encVa 0x04 o
  | .vdiv o => encVa 0x05 o
  | .vrem o => encVa 0x06 o
  | .vmin o => encVa 0x07 o
  | .vmax o => encVa 0x08 o
  | .vsadd o => encVa 0x09 o
  | .vssub o => encVa 0x0A o
  | .vand o => encVa 0x0B o
  | .vor o => encVa 0x0C o
  | .vxor o => encVa 0x0D o
  | .vsll o => encVa 0x0E o
  | .vsrl o => encVa 0x0F o
  | .vsra o => encVa 0x10 o
  | .vfma o => encVa 0x11 o
  | .vfms o => encVa 0x12 o
  | .vfnma o => encVa 0x13 o
  | .vsgnj o => encVa 0x14 o
  | .vsgnjn o => encVa 0x15 o
  | .vsgnjx o => encVa 0x16 o
  | .vceq o => encVa 0x17 o
  | .vcne o => encVa 0x18 o
  | .vclt o => encVa 0x19 o
  | .vcle o => encVa 0x1A o
  | .vcgt o => encVa 0x1B o
  | .vcge o => encVa 0x1C o
  | .vmerge o => encVa 0x1D o
  | .vmv o => encVa 0x1E o
  | .vslideup o => encVa 0x1F o
  | .vslidedown o => encVa 0x20 o
  | .vgather o => encVa 0x21 o
  | .vcompress o => encVv 0x22 o
  | .vmand o => encVv 0x23 o
  | .vmor o => encVv 0x24 o
  | .vmxor o => encVv 0x25 o
  | .vmandn o => encVv 0x26 o
  | .vsqrt o => encUn 0 o
  | .vrcp o => encUn 1 o
  | .vrsqrt o => encUn 2 o
  | .vexp2 o => encUn 3 o
  | .vlog2 o => encUn 4 o
  | .vsin o => encUn 5 o
  | .vcos o => encUn 6 o
  | .vtanh o => encUn 7 o
  | .vclass o => encUn 8 o
  | .vabs o => encUn 9 o
  | .vneg o => encUn 10 o
  | .vid o => encUn 11 o
  | .vmpop o => encUn 12 o
  | .vmfirst o => encUn 13 o
  | .vmvxs o => encUn 14 o
  | .vmvsx o => encUn 15 o
  | .vcvt o => encVu 0x28 3 o.t o.m o.agn o.vs2 o.vd
  | .vbdot o => encVv 0x29 o
  | .vbexp o => encVu 0x2A 0 0 o.m o.agn o.vs2 o.vd
  | .vbpack o => encVu 0x2B 0 0 o.m o.agn o.vs2 o.vd
  | .vredsum o => encVa 0x2C o
  | .vredmin o => encVa 0x2D o
  | .vredmax o => encVa 0x2E o
  | .vscan o => encVa 0x2F o
  | .vld o => encVm 0 o
  | .vldSt o => encVm 1 o
  | .vldIx o => encVm 2 o
  | .vamoadd o => encVamo 0 o
  | .vamomin o => encVamo 1 o
  | .vamomax o => encVamo 2 o
  | .vamoswap o => encVamo 3 o
  | .vst o => encVm 4 o
  | .vstSt o => encVm 5 o
  | .vstIx o => encVm 6 o
  | _ => none

/-- The fields of an LX instruction (R95). -/
def encodeLx : Instr → Option Parts
  | .mcfg l a => encL l 0 0 0 (bitsOf a) 0
  | .mopa l t a b => encL l 1 0 (tbits t) (bitsOf a) (bitsOf b)
  | .mzero l t => encL l 2 0 (tbits t) 0 0
  | .mld l t a b => encL l 3 0 (tbits t) (bitsOf a) (bitsOf b)
  | .mst l t a b => encL l 4 0 (tbits t) (bitsOf a) (bitsOf b)
  | .mstRel l t a b => encL l 4 0 (tbits t ||| 4) (bitsOf a) (bitsOf b)
  | .mrelease l t => encL l 5 0 (tbits t) 0 0
  | .mwait l t => encL l 6 0 (tbits t) 0 0
  | .mwexp l a b => encL l 7 0 0 (bitsOf a) (bitsOf b)
  | .dadd l d a b => encL l 0 1 (dbits d) (dbits a) (dbits b)
  | .dsub l d a b => encL l 1 1 (dbits d) (dbits a) (dbits b)
  | .dmul l d a b => encL l 2 1 (dbits d) (dbits a) (dbits b)
  | .dmax l d a b => encL l 3 1 (dbits d) (dbits a) (dbits b)
  | .dmin l d a b => encL l 4 1 (dbits d) (dbits a) (dbits b)
  | .dmix l d a b => encL l 5 1 (dbits d) (dbits a) (bitsOf b)
  | .dscale l d a b => encL l 6 1 (dbits d) (bitsOf a) (bitsOf b)
  | .dcond l d a b => encL l 7 1 (dbits d) (dbits a) (bitsOf b)
  | .dtag l d a => encL l 0 2 (dbits d) (bitsOf a) 0
  | .dpoint l d a => encL l 1 2 (dbits d) (bitsOf a) 0
  | .dgauss l d a b => encL l 2 2 (dbits d) (bitsOf a) (bitsOf b)
  | .dmom l d a k => encL l 3 2 (bitsOf d) (dbits a) ((0 : BitVec 3) ++ k)
  | .dqnt l d a b => encL l 4 2 (bitsOf d) (dbits a) (bitsOf b)
  | .dcdf l d a b => encL l 5 2 (bitsOf d) (dbits a) (bitsOf b)
  | .dld l d a => encL l 6 2 (dbits d) (bitsOf a) 0
  | .dst l d a => encL l 7 2 (dbits d) (bitsOf a) 0
  | .xbox l d a b => encL l 0 3 (bitsOf d) (bitsOf a) (bitsOf b)
  | .xtri l d a b => encL l 1 3 (bitsOf d) (bitsOf a) (bitsOf b)
  | .xedge l d a b => encL l 2 3 (bitsOf d) (bitsOf a) (bitsOf b)
  | .vdedup l d a b => encL l 3 3 (bitsOf d) (bitsOf a) (bitsOf b)
  | .tfetch l d a b => encL l 4 3 (bitsOf d) (bitsOf a) (bitsOf b)
  | .tgrad l d a b => encL l 5 3 (bitsOf d) (bitsOf a) (bitsOf b)
  | .gfeat l d a b => encL l 6 3 (bitsOf d) (bitsOf a) (bitsOf b)
  | .zcommit l a b => encL l 7 3 0 (bitsOf a) (bitsOf b)
  | .trace l d a b => encL l 0 4 (bitsOf d) (bitsOf a) (bitsOf b)
  | .rwait l d => encL l 1 4 (bitsOf d) 0 0
  | .rget l d a => encL l 2 4 (bitsOf d) (bitsOf a) 0
  | .rhit l a b => encL l 3 4 0 (bitsOf a) (bitsOf b)
  | .rcancel l a => encL l 4 4 0 (bitsOf a) 0
  | _ => none

/-- The fields of a TX instruction (R95, R98 to R100). -/
def encodeTx : Instr → Option Parts
  | .bsubnz a b off => encB off b a 0 0x7B
  | .vsetl d a fmt blk hint => encI (fmt ++ blk ++ hint) a 1 d 0x7B
  | .vcfg d a nv nd w => encI (nv ++ nd ++ w ++ (0 : BitVec 3)) a 2 d 0x7B
  | .hstart l d a b => encT l 0 3 (bitsOf d) (bitsOf a) (bitsOf b)
  | .hjoin l a => encT l 1 3 0 (bitsOf a) 0
  | .hexit l => encT l 2 3 0 0 0
  | .hyield l => encT l 3 3 0 0 0
  | .qput l d a => encT l 4 3 (bitsOf d) (bitsOf a) 0
  | .qtake l d a => encT l 5 3 (bitsOf d) (bitsOf a) 0
  | .qsteal l d a => encT l 6 3 (bitsOf d) (bitsOf a) 0
  | .qdone l a => encT l 7 3 0 (bitsOf a) 0
  | .bar l a s => encT l 0 4 0 (bitsOf a) (encScope 0 s)
  | .barr l a s => encT l 1 4 0 (bitsOf a) (encScope 0 s)
  | .barw l a s => encT l 2 4 0 (bitsOf a) (encScope 0 s)
  | .rinit l a b => encT l 3 4 0 (bitsOf a) (bitsOf b)
  | .rawait l d a => encT l 4 4 (bitsOf d) (bitsOf a) 0
  | .rrel l a => encT l 5 4 0 (bitsOf a) 0
  | .sbind l a b => encT l 0 5 0 (bitsOf a) (bitsOf b)
  | .sjob l d a => encT l 1 5 (bitsOf d) (bitsOf a) 0
  | .swait l a => encT l 2 5 0 (bitsOf a) 0
  | .scoll l d a => encT l 3 5 (bitsOf d) (bitsOf a) 0
  | .ldacq l d a w s => encT l 4 5 (bitsOf d) (bitsOf a) (encScope w s)
  | .strel l d a w s => encT l 5 5 (bitsOf d) (bitsOf a) (encScope w s)
  | .ofence l p q s => encT l 6 5 ((0 : BitVec 1) ++ p) ((0 : BitVec 1) ++ q) (encScope 0 s)
  | _ => none

/-- The fields of a 32-bit instruction. -/
def encodeParts (i : Instr) : Option Parts :=
  match encodeBase i with
  | some p => some p
  | none =>
    match encodeVector i with
    | some p => some p
    | none =>
      match encodeLx i with
      | some p => some p
      | none => encodeTx i

/-- The word of a 32-bit instruction. -/
def encode32 (i : Instr) : Option (BitVec 32) := (encodeParts i).map Parts.toWord

/-- The parcel of a compressed row is named by the row alone, so a compressed instruction is encoded from its fields:
the parcel with the fields given, where it decodes to that row. -/
def encode16 (i : Instr) (p : CParts) : Option (BitVec 16) :=
  match decode16 p.toWord with
  | .ok j => if j = i then some p.toWord else none
  | .error _ => none

/-- The bytes of a 32-bit instruction, lowest address first; a compressed row, and a step of another agent, has
none. -/
def encode (i : Instr) : Option (List Byte) := (encode32 i).map (fun w => bytesLE 4 w.toNat)

/-- Whether a row is a compressed form, two bytes long (R86). -/
def Instr.isCompressed : Instr → Bool
  | .cAddi4spn | .cLw | .cLd | .cSw | .cSd | .cNop | .cAddi | .cAddiw | .cLi | .cAddi16sp | .cLui | .cSrli | .cSrai
  | .cAndi | .cSub | .cXor | .cOr | .cAnd | .cSubw | .cAddw | .cJ | .cBeqz | .cBnez | .cSlli | .cLwsp | .cLdsp
  | .cJr | .cMv | .cEbreak | .cJalr | .cAdd | .cSwsp | .cSdsp | .hint => true
  | _ => false

/-- The length of an instruction in bytes (R81). -/
def Instr.len (i : Instr) : Nat := if i.isCompressed then 2 else 4

end Sys2Proof
end

