-- ==== Sys2Proof/Machine/Flags.lean ====
section
/-! DEFINITION. The status register's fields (R137, R403), and the exception flags of vexc (R22). -/

namespace Sys2Proof.Machine

/-- A bit of a register set or cleared. -/
def setBit (w : Word) (i : Nat) (b : Bool) : Word :=
  if b then w ||| (1#64 <<< i) else w &&& ~~~(1#64 <<< i)

/-- A field of a register replaced. -/
def setField (w : Word) (lo n : Nat) (v : Nat) : Word :=
  (w &&& ~~~((BitVec.ofNat 64 (2 ^ n - 1)) <<< lo)) ||| (BitVec.ofNat 64 (v % 2 ^ n) <<< lo)

/-- A field of a register. -/
def field (w : Word) (lo n : Nat) : Nat := (w.toNat >>> lo) % 2 ^ n

/-- sstatus.SIE. -/
def stSIE : Nat := 1
/-- mstatus.MIE. -/
def stMIE : Nat := 3
/-- sstatus.SPIE. -/
def stSPIE : Nat := 5
/-- mstatus.MPIE. -/
def stMPIE : Nat := 7
/-- sstatus.SPP. -/
def stSPP : Nat := 8
/-- mstatus.MPP, two bits. -/
def stMPP : Nat := 11
/-- mstatus.MPRV. -/
def stMPRV : Nat := 17
/-- sstatus.SUM. -/
def stSUM : Nat := 18
/-- sstatus.MXR. -/
def stMXR : Nat := 19
/-- mstatus.TVM. -/
def stTVM : Nat := 20
/-- mstatus.TW. -/
def stTW : Nat := 21
/-- mstatus.TSR. -/
def stTSR : Nat := 22

/-- The bits of mstatus that software can write; FS and VS are not among them (R137). -/
def mstatusMask : Word := 0x7E19AA#64

/-- The bits of sstatus that software can write. -/
def sstatusMask : Word := 0xC0122#64

/-- What UXL and SXL read: 64-bit registers in every mode. -/
def mstatusXl : Word := 0xA00000000#64

/-- What UXL reads in sstatus. -/
def sstatusXl : Word := 0x200000000#64

/-- mstatus as it reads. -/
def Hart.readMstatus (t : Hart) : Word := (t.mstatus &&& mstatusMask) ||| mstatusXl

/-- sstatus as it reads: a view of mstatus (R289). -/
def Hart.readSstatus (t : Hart) : Word := (t.mstatus &&& sstatusMask) ||| sstatusXl

/-- mstatus written; MPP holds only modes that exist, 0b10 leaving it as it was. -/
def Hart.writeMstatus (t : Hart) (v : Word) : Hart :=
  let v' := if field v stMPP 2 = 2 then setField v stMPP 2 (field t.mstatus stMPP 2) else v
  { t with mstatus := v' &&& mstatusMask }

/-- sstatus written. -/
def Hart.writeSstatus (t : Hart) (v : Word) : Hart :=
  { t with mstatus := (t.mstatus &&& ~~~sstatusMask) ||| (v &&& sstatusMask) }

/-- The number that a mode has in MPP. -/
def Mode.code : Mode → Nat
  | .u => 0
  | .s => 1
  | .m => 3

/-- The mode of a number in MPP. -/
def Mode.ofCode (n : Nat) : Mode := if n = 0 then .u else if n = 3 then .m else .s

/-- Whether a mode is at least another. -/
def Mode.atLeast (a b : Mode) : Bool := decide (b.code ≤ a.code)

/-- The flags of a floating-point operation, by R22: NV DZ OF UF NX. -/
structure Fl where
  nv : Bool
  dz : Bool
  of : Bool
  uf : Bool
  nx : Bool
deriving DecidableEq, Repr

/-- No flag. -/
def Fl.none : Fl := { nv := false, dz := false, of := false, uf := false, nx := false }

/-- NV. -/
def Fl.invalid : Fl := { Fl.none with nv := true }

/-- DZ. -/
def Fl.divZero : Fl := { Fl.none with dz := true }

/-- NX. -/
def Fl.inexact : Fl := { Fl.none with nx := true }

/-- The flags of two operations together. -/
def Fl.or (a b : Fl) : Fl :=
  { nv := a.nv || b.nv, dz := a.dz || b.dz, of := a.of || b.of, uf := a.uf || b.uf, nx := a.nx || b.nx }

/-- The flags as vexc holds them (R22). -/
def Fl.bits (f : Fl) : BitVec 5 :=
  BitVec.ofBool f.nv ++ BitVec.ofBool f.dz ++ BitVec.ofBool f.of ++ BitVec.ofBool f.uf ++ BitVec.ofBool f.nx

/-- Accrues flags in vexc (R22). -/
def Hart.raise (t : Hart) (f : Fl) : Hart := { t with vexc := t.vexc ||| f.bits }

end Sys2Proof.Machine
end

