-- ==== Sys2Proof/Machine/Memory.lean ====
section
/-! DEFINITION. Physical memory and its coherence: homes, loans, owned copies and their ticks (R313 to R339). -/

namespace Sys2Proof

/-- A memory: bytes by address, strictly rising, no entry equal to 0, which is what an unlisted address reads as
(R446: memory is wiped at reset; host memory: log 5). -/
abbrev Memory := Tab Byte

/-- The byte at an address. -/
def Memory.get (m : Memory) (a : Nat) : Byte := Tab.getD m a 0

/-- The byte at an address replaced; a zero is not listed. -/
def Memory.put (m : Memory) (a : Nat) (b : Byte) : Memory := if b = 0 then Tab.erase m a else Tab.set m a b

/-- The bytes from an address on. -/
def Memory.read (m : Memory) (a : Nat) : Nat → List Byte
  | 0 => []
  | n + 1 => m.get a :: Memory.read m (a + 1) n

/-- Bytes replaced from an address on. -/
def Memory.write (m : Memory) (a : Nat) : List Byte → Memory
  | [] => m
  | b :: t => Memory.write (m.put a b) (a + 1) t

/-- The canonical form: addresses strictly rising and no entry 0. -/
def Memory.wf (m : Memory) : Bool := Tab.wf m && m.all (fun e => e.2 != 0)

/-- Byte i of a line. -/
def lineByte (v : Line) (i : Nat) : Byte := v.extractLsb' (8 * i) 8

/-- A line with byte i replaced. -/
def lineSet (v : Line) (i : Nat) (b : Byte) : Line :=
  (v &&& ~~~((0xFF : Line) <<< (8 * i))) ||| ((b.setWidth 1024) <<< (8 * i))

/-- n bytes of a line from byte i. -/
def lineRead (v : Line) (i : Nat) : Nat → List Byte
  | 0 => []
  | n + 1 => lineByte v i :: lineRead v (i + 1) n

/-- A line with bytes replaced from byte i on. -/
def lineWrite (v : Line) (i : Nat) : List Byte → Line
  | [] => v
  | b :: t => lineWrite (lineSet v i b) (i + 1) t

/-- The line of 128 bytes, lowest first. -/
def lineOf : List Byte → Line
  | [] => 0
  | b :: t => (lineOf t <<< 8) ||| b.setWidth 1024

namespace Machine

/-- Device memory (R314). -/
def isDevice (pa : Nat) : Bool := decide (pa < 2 ^ 42)

/-- Host memory (R314). -/
def isHost (pa : Nat) : Bool := decide (2 ^ 55 ≤ pa) && decide (pa < 2 ^ 56)

/-- A physical address that exists (R314). -/
def paOk (pa : Nat) : Bool := isDevice pa || isHost pa

/-- The die that homes a device address (R314). -/
def homeDie (pa : Nat) : Nat := pa / 2 ^ 36

/-- Whether a line has been wiped since the floor of R329 was last set (R324). -/
def State.isWiped (s : State) (ln : Nat) : Bool := s.wiped.any (fun w => decide (w.1 ≤ ln) && decide (ln < w.1 + w.2))

/-- What a home slice keeps of a line (R324); reset and every wipe leave its ticks 0, and the scrub of R329 raises them to
its floor. -/
def State.homeLine (s : State) (ln : Nat) : HomeLine :=
  Tab.getD s.home ln (HomeLine.init (if s.isWiped ln then 0 else s.floor))

/-- Replaces what a home slice keeps of a line. -/
def State.setHome (s : State) (ln : Nat) (h : HomeLine) : State := { s with home := Tab.set s.home ln h }

/-- The 128 bytes of a line as its home holds them. -/
def State.homeVal (s : State) (ln : Nat) : Line := lineOf (Memory.read s.mem (ln * 128) 128)

/-- Clears the reservations on a line, but that of one hardware context (R123). -/
def Hart.dropResv (t : Hart) (l : Loc) : Hart :=
  if t.resv = some { line := l } then { t with resv := none } else t

/-- Whether another hardware context than `i` holds a reservation on a line. -/
def State.otherResv (s : State) (i : Option HartId) (l : Loc) : Bool :=
  s.cores.any (fun e => e.2.img.harts.any (fun f =>
    decide (f.2.resv = some { line := l }) && decide (i ≠ some { core := e.1, h := f.1 })))

/-- R123: a write to a line by any other agent clears the reservation on it. -/
def State.clearResv (s : State) (i : Option HartId) (l : Loc) : State :=
  if s.otherResv i l then
    { s with cores := Tab.mapVal s.cores (fun c k =>
        { k with img := { k.img with harts := Tab.mapVal k.img.harts (fun h t =>
            if i = some { core := c, h := h } then t else t.dropResv l) } }) }
  else s

/-- The first byte of a location's 128-byte line. -/
def Loc.line : Loc → Loc
  | .phys pa => .phys (pa / 128 * 128)
  | .scratch c off => .scratch c (off / 128 * 128)

/-- Whether a line holds uncorrectable data (R438). -/
def State.isBad (s : State) (pa : Nat) : Bool := s.bad.contains (pa / 128)

/-- R334: the reservations of a die's hardware contexts on a line that the die owned end with its ownership, in whose copy
they live. -/
def State.endOwnership (s : State) (d ln : Nat) : State :=
  if s.otherResv none (.phys (ln * 128)) then
    { s with cores := Tab.mapVal s.cores (fun c k =>
        if c / 16384 = d then
          { k with img := { k.img with harts := Tab.mapVal k.img.harts (fun _ t => t.dropResv (.phys (ln * 128))) } }
        else k) }
  else s

/-- R327: an owning die gives a line back to its home, with its data where it is dirty, and the reservations that lived
with the copy end. Uncorrectable data is not written onward: its context takes a context fault (R440, kind 1). -/
def State.giveBack (s : State) (d ln : Nat) : State :=
  match Tab.get? (s.die d).owned ln with
  | some o =>
    let h := s.homeLine ln
    let s1 := (s.onDie d (fun k => { k with owned := Tab.erase k.owned ln })).endOwnership d ln
    let s2 : State :=
      if o.dirty then
        if s1.isBad (ln * 128) then s1.post (.contextFault o.tag 1 d 0xFFFFF (BitVec.ofNat 64 (ln * 128)))
        else { s1 with mem := Memory.write s1.mem (ln * 128) (lineRead o.val 0 128) }
      else s1
    s2.setHome ln { h with wts := o.wts, due := tickMax h.due o.wts, owner := none }
  | none => s.setHome ln { s.homeLine ln with owner := none }

/-- R326, R327: the home recalls a line from its owner. -/
def State.recall (s : State) (ln : Nat) : State :=
  match (s.homeLine ln).owner with
  | some d => s.giveBack d ln
  | none => s

/-- A die's own copy of a line, loaned or owned, that carries another context's tag is written back or discarded
before it is used (R317). -/
def State.retag (s : State) (q tag ln : Nat) : State :=
  let s1 := match Tab.get? (s.die q).owned ln with
    | some o => if o.tag = tag ∨ o.tag = 0 then s else s.giveBack q ln
    | none => s
  match Tab.get? (s1.die q).loans ln with
  | some l => if l.tag = tag ∨ l.tag = 0 then s1 else s1.onDie q (fun k => { k with loans := Tab.erase k.loans ln })
  | none => s1

/-- How a read takes its value (R325, R336, R339): through loans of LEN ticks, or once at the home. -/
inductive Lend where
  | loan (len : Tick)
  | once
deriving DecidableEq, Repr

/-- R325: a read of n bytes of one line at `pa` by an agent of die `q` at tick `p`: its value, the agent's tick after
it, and the state. Host memory is read at the host-line cache (R338). -/
def State.readPhys (s : State) (q : Nat) (p : Tick) (lend : Lend) (tag pa n : Nat) : List Byte × Tick × State :=
  let ln := pa / 128
  let off := pa % 128
  if isHost pa then
    (Memory.read s.mem pa n, p, { s with hostCache := if s.hostCache.contains ln then s.hostCache else ln :: s.hostCache })
  else
    let s := s.retag q tag ln
    let h := s.homeLine ln
    let home := Memory.read s.mem pa n
    if homeDie pa = q ∧ h.owner = none then (home, tickMax p h.wts, s)
    else
      match Tab.get? (s.die q).owned ln with
      | some o => (lineRead o.val off n, tickMax p o.wts, s)
      | none =>
        match lend with
        | .once => (home, tickMax p h.wts, s)
        | .loan len =>
          match (Tab.get? (s.die q).loans ln).filter (fun l => tickLe p l.due) with
          | some l => (lineRead l.val off n, tickMax p l.wts, s)
          | none =>
            let give (due : Tick) (s : State) : List Byte × Tick × State :=
              let l : Loan := { val := s.homeVal ln, wts := h.wts, due := due, tag := tag }
              (home, tickMax p h.wts, (s.setHome ln { h with due := due }).onDie q (fun k =>
                { k with loans := Tab.set k.loans ln l }))
            if h.owner = none then give (tickMax h.due (p + len)) s
            else
              let d := tickMin (tickMax h.due (p + len)) (h.grant - 1)
              if tickLe p d then give d s else (home, tickMax p h.wts, s)

/-- How a write is performed (R326, R331, R336, R339): with ownership, written through to the home unless the line is
die-ordered for the writer, or always at the home. -/
inductive Put where
  | own
  | through
  | home
deriving DecidableEq, Repr

/-- R326, the home case: performed at the home slice. -/
def State.writeHome (s : State) (p : Tick) (pa : Nat) (data : List Byte) : Tick × State :=
  let ln := pa / 128
  let h := s.homeLine ln
  let w := tickMax (h.due + 1) p
  (w, ({ s with mem := Memory.write s.mem pa data } : State).setHome ln { h with wts := w, due := w })

/-- R326, the owned case: performed in the die's L2, dirty. -/
def State.writeOwned (s : State) (q : Nat) (p : Tick) (o : Owned) (tag pa : Nat) (data : List Byte) : Tick × State :=
  let ln := pa / 128
  let w := tickMax o.wts p
  let o' : Owned :=
    { val := lineWrite o.val (pa % 128) data, wts := w, dirty := true, tag := tag,
      since := if o.dirty then o.since else s.cc }
  (w, s.onDie q (fun k => { k with owned := Tab.set k.owned ln o' }))

/-- R326: a die obtains ownership of a line homed elsewhere. -/
def State.obtain (s : State) (q : Nat) (p : Tick) (tag ln : Nat) : Owned × State :=
  let s := s.recall ln
  let h := s.homeLine ln
  let g := tickMax (h.due + 1) p
  let o : Owned := { val := s.homeVal ln, wts := g, dirty := false, since := s.cc, tag := tag }
  (o, (s.setHome ln { h with owner := some q, grant := g }).onDie q (fun k =>
    { k with loans := Tab.erase k.loans ln, owned := Tab.set k.owned ln o }))

/-- R326: a write of bytes of one line at `pa` by an agent of die `q` at tick `p`: the agent's tick after it, and the
state. Host memory is written at the host-line cache (R338). -/
def State.writePhys (s : State) (q : Nat) (p : Tick) (how : Put) (tag pa : Nat) (data : List Byte) : Tick × State :=
  let ln := pa / 128
  if isHost pa then
    (p, { s with mem := Memory.write s.mem pa data,
                 hostCache := if s.hostCache.contains ln then s.hostCache else ln :: s.hostCache })
  else
    let s := s.retag q tag ln
    match how with
    | .home => (s.recall ln).writeHome p pa data
    | .through =>
      match Tab.get? (s.die q).owned ln with
      | some o => s.writeOwned q p o tag pa data
      | none => (s.recall ln).writeHome p pa data
    | .own =>
      if homeDie pa = q then (s.recall ln).writeHome p pa data
      else
        match Tab.get? (s.die q).owned ln with
        | some o => s.writeOwned q p o tag pa data
        | none =>
          let r := s.obtain q p tag ln
          r.2.writeOwned q p r.1 tag pa data

/-- R332, R333: a die writes back every owned dirty line whose write tick is at or before `t`. -/
def State.drain (s : State) (d : Nat) (t : Tick) : State :=
  (s.die d).owned.foldl (fun s e => if e.2.dirty && tickLe e.2.wts t then s.giveBack d e.1 else s) s

/-- R331, steps 2 and 3: a release store at the home. -/
def State.releaseAt (s : State) (q : Nat) (p : Tick) (tag pa : Nat) (data : List Byte) : Tick × State :=
  let ln := pa / 128
  if isHost pa then s.writePhys q p .home tag pa data
  else
    let r := s.writePhys q p .home tag pa data
    let h := r.2.homeLine ln
    let s1 := match h.rel with
      | some (o, t, false) => if o = q then r.2 else r.2.drain o t
      | _ => r.2
    (r.1, s1.setHome ln { s1.homeLine ln with rel := some (q, r.1, false) })

/-- R332: an acquire's read at the home, with the recall, the drain and the tick it leaves; at .sys, `sys`, the host's
tick counts for host memory (R338). -/
def State.acquireAt (s : State) (sys : Bool) (q : Nat) (p : Tick) (tag pa n : Nat) : List Byte × Tick × State :=
  let ln := pa / 128
  if isHost pa then
    let r := s.readPhys q p .once tag pa n
    (r.1, if sys then tickMax r.2.1 s.hostTick else r.2.1, r.2.2)
  else
    let s1 := s.recall ln
    let h := s1.homeLine ln
    let v := Memory.read s1.mem pa n
    match h.rel with
    | some (o, t, dr) =>
      let s2 := if dr || o == q then s1
        else (s1.drain o t).setHome ln { (s1.drain o t).homeLine ln with rel := some (o, t, true) }
      (v, tickMax (tickMax p h.wts) (t + 1), s2)
    | none => (v, tickMax p h.wts, s1)

/-! SRAM (R438). -/

/-- Whether a place of core SRAM is a dword of some bytes of a core's scratchpad. -/
def CoreCell.inScratch (core off n : Nat) : CoreCell → Bool
  | .scratch c d => c == core && decide (off < d * 8 + 8) && decide (d * 8 < off + n)
  | _ => false

/-- Whether a place of core SRAM is one of the registers of a hardware context. -/
def CoreCell.inRegs (core h : Nat) (l : List RegName) : CoreCell → Bool
  | .reg c k r => c == core && k == h && l.contains r
  | _ => false

/-- Whether a place of core SRAM is one of a core's tiles. -/
def CoreCell.inTiles (core : Nat) (l : List Nat) : CoreCell → Bool
  | .tile c t => c == core && l.contains t
  | _ => false

/-- R438: the clean copy of a line in a core's L1, met by a read. -/
def CoreCell.isL1 (core ln : Nat) (c : CoreCell) : Bool := c == .l1 core ln

/-- R438: the copy of a line in a core's instruction cache. -/
def CoreCell.isFetch (core ln : Nat) (c : CoreCell) : Bool := c == .icache core ln

/-- R438: the TLBs of a core. -/
def CoreCell.isTlb (core : Nat) (c : CoreCell) : Bool := c == .tlb core

/-- R438: the TLBs of a die. -/
def CoreCell.isDieTlb (die : Nat) (c : CoreCell) : Bool := c == .dieTlb die

/-- R438: the commit unit of a core. -/
def CoreCell.isUnit (core : Nat) (c : CoreCell) : Bool := c == .unit core

/-- R438: the inbox of a core. -/
def CoreCell.isInbox (core : Nat) (c : CoreCell) : Bool := c == .inbox core

/-- R299, R438: the storage of a context's queued task. -/
def CoreCell.isQueued (tag seq : Nat) (c : CoreCell) : Bool := c == .queued tag seq

/-- R438: correctable errors outside the cores are corrected where they are met, and counted for the die. -/
def State.correctDie (s : State) (die : Nat) (p : CoreCell → Bool) : State :=
  if s.soft.any p then
    ({ s with soft := s.soft.filter (fun c => !p c) } : State).onDie die (fun d =>
      { d with corrected := d.corrected + (s.soft.filter p).length })
  else s

/-- R438: uncorrectable data of a copy that can be fetched again is discarded, with no error. -/
def State.discardCells (s : State) (p : CoreCell → Bool) : State :=
  if s.badCore.any p then { s with badCore := s.badCore.filter (fun c => !p c) } else s

/-- R438, R434: correctable errors of a core's SRAM are corrected where they are met, and counted; the sixteenth of an hour
marks the core failed. -/
def State.correct (s : State) (core : Nat) (p : CoreCell → Bool) : State :=
  if s.soft.any p then
    let n := (s.soft.filter p).length
    let s1 : State := { s with soft := s.soft.filter (fun c => !p c) }
    let s2 := s1.onCore core (fun k => { k with crec := { k.crec with corr := k.crec.corr + n } })
    if 16 ≤ (s2.core core).crec.corr then s2.post (.coreFailed core) else s2
  else s

/-- R438: a copy that can be fetched again is met: its correctable errors are counted, and uncorrectable ones discarded. -/
def State.meetCopy (s : State) (core : Nat) (p : CoreCell → Bool) : State := (s.correct core p).discardCells p

end Machine

end Sys2Proof
end

