-- ==== Sys2Proof/Machine/Translate.lean ====
section
/-! DEFINITION. From a virtual address to a place: windows (R315, R355, R375, R383), page tables in memory and their
faults (R384 to R386), and the translation caches in the order a core asks them (R387). -/

namespace Sys2Proof.Machine

/-- The kinds of access that translation tells apart. -/
inductive AccKind where
  | load
  | store
  | fetch
deriving DecidableEq, Repr

/-- The access fault of a kind (R291). -/
def AccKind.access : AccKind → Nat
  | .load => 5
  | .store => 7
  | .fetch => 1

/-- The page fault of a kind (R386). -/
def AccKind.page : AccKind → Nat
  | .load => 13
  | .store => 15
  | .fetch => 12

/-- The misalignment of a kind (R117). -/
def AccKind.misaligned : AccKind → Nat
  | .load => 4
  | .store => 6
  | .fetch => 0

/-- Where an address leads. `shared` marks a host-shared page (R411), `global` shared content (R317). -/
inductive Place where
  | mem (pa : Nat) (shared global : Bool)
  | scratch (core off : Nat)
  | raster (off : Nat)
  | control
deriving DecidableEq, Repr

/-- The privilege and status bits that an access is checked under. -/
structure Priv where
  mode : Mode
  sum : Bool
  mxr : Bool
deriving DecidableEq, Repr

/-- The privilege of a data access of a hardware context; MPRV replaces M-mode's by that of MPP (R137). -/
def Hart.dataPriv (t : Hart) : Priv :=
  { mode := if t.mode = .m ∧ t.mstatus.getLsbD stMPRV then Mode.ofCode (field t.mstatus stMPP 2) else t.mode
    sum := t.mstatus.getLsbD stSUM
    mxr := t.mstatus.getLsbD stMXR }

/-- The first address of the range that is never translated (R383). -/
def winBase : Nat := 0x00FFFFF000000000

/-- Whether an address lies in the untranslated range (R383). -/
def inWindows (va : Nat) : Bool := decide (winBase ≤ va) && decide (va < winBase + 0x100000000)

/-- R386: whether a leaf refuses an access: V, W without R, reserved bits, an unaligned superpage, G with W, A, D and
the permissions. -/
def leafRefuses (pte : Word) (size : Nat) (kind : AccKind) (p : Priv) : Bool :=
  let r := pte.getLsbD 1
  let w := pte.getLsbD 2
  let x := pte.getLsbD 3
  let u := pte.getLsbD 4
  !pte.getLsbD 0 || (w && !r) || decide (field pte 54 10 ≠ 0) || decide (field pte 10 44 * 4096 % size ≠ 0)
    || (pte.getLsbD 5 && w) || !pte.getLsbD 6 || (kind == .store && !pte.getLsbD 7)
    || (match kind with
        | .fetch => !x
        | .load => !(r || (p.mxr && x))
        | .store => !w)
    || (match p.mode with
        | .u => !u
        | _ => u && (kind == .fetch || !p.sum))

/-- The leaf of a context that maps an address. -/
def Ctx.leafOf (c : Ctx) (va : Nat) : Option Leaf := c.leaves.find? (fun l => decide (l.va ≤ va) && decide (va < l.va + l.size))

/-- An entry of a translation cache for an address (R386: keyed by context tag). -/
def tlbFind (l : List TlbEntry) (tag va : Nat) : Option TlbEntry :=
  l.find? (fun e => decide (e.tag = tag) && decide (e.va ≤ va) && decide (va < e.va + e.size))

/-- A translation cache with an entry added; the oldest leaves a full one (log 11). -/
def tlbAdd (l : List TlbEntry) (cap : Nat) (e : TlbEntry) : List TlbEntry := (e :: l).take cap

/-- What a translation gives: the leaf, or why there is none: a page fault, a table outside R314's ranges, or a table in
uncorrectable data. -/
inductive Walk where
  | leaf (e : TlbEntry)
  | page
  | access
  | bad (pa : Nat)
deriving DecidableEq, Repr

/-- The size of a leaf at a level of Sv57. -/
def levelSize (level : Nat) : Nat := 2 ^ (12 + 9 * level)

/-- The level of Sv57 whose leaves have a size. -/
def levelOf (size : Nat) : Nat := if size = 4096 then 0 else if size = 2 ^ 21 then 1 else if size = 2 ^ 30 then 2 else 3

/-- The address of the entry of a virtual address in a table of a level. -/
def entryAt (ppn level va : Nat) : Nat := ppn * 4096 + (va >>> (12 + 9 * level)) % 512 * 8

/-- Reads a page-table entry for a die's walker, as an engine reads: once at its home, never through a loan (R387). -/
def State.readPte (s : State) (die pa : Nat) : Word × State :=
  let r := s.readPhys die 0 .once 0 pa 8
  (BitVec.ofNat 64 (natLE r.1), r.2.2)

/-- A walk from the table at a page, for a die's walkers, under a tag (R386, R387); `level` is one more than the table's. A
pointer with N, PBMT or a reserved bit set, and one at the lowest level, are page faults. -/
def State.memWalk (s : State) (die tag va : Nat) : Nat → Nat → Walk × State
  | _, 0 => (.page, s)
  | ppn, level + 1 =>
    let pa := entryAt ppn level va
    if !paOk pa then (.access, s)
    else if s.isBad pa then (.bad (pa / 128 * 128), s)
    else
      let r := s.readPte die pa
      let pte := r.1
      if !pte.getLsbD 0 then (.page, r.2)
      else if field pte 1 3 = 0 then
        if field pte 54 10 ≠ 0 then (.page, r.2) else r.2.memWalk die tag va (field pte 10 44) level
      else if level = 4 then (.page, r.2)
      else
        let size := levelSize level
        (.leaf { tag := tag, va := va / size * size, size := size, pte := pte }, r.2)

/-- The identifier under which a core's translations are kept: its context's tag, or the ASID of satp where it serves
none (R384, R386). -/
def State.asidOf (s : State) (c : Nat) : Nat :=
  match s.tagOf c with
  | some tag => tag
  | none => field (s.core c).satp 44 12

/-- Whether a core's accesses under a privilege are translated: always where it serves a context, below M-mode with satp in
Sv57 where it serves none (R137, R383). -/
def State.isPaged (s : State) (c : Nat) (p : Priv) : Bool :=
  (s.tagOf c).isSome || (p.mode != .m && decide (field (s.core c).satp 60 4 ≠ 0))

/-- R438: the TLBs that a core asks met: uncorrectable entries are dropped, and walked again. -/
def State.meetTlbs (s : State) (c : Nat) : State :=
  if (s.badCore ++ s.soft).isEmpty then s
  else
    let d := dieOf c
    let s1 := if s.badCore.contains (.tlb c) then s.onCore c (fun k => { k with microTlb := [], laneTlb := [[], [], [], []] }) else s
    let s2 := if s1.badCore.contains (.dieTlb d) then s1.onDie d (fun k => { k with quadTlb := [], lastTlb := [] }) else s1
    ((s2.meetCopy c (CoreCell.isTlb c)).correctDie d (CoreCell.isDieTlb d)).discardCells (CoreCell.isDieTlb d)

/-- R387: the entry of an address for a core, asked of the micro-TLB, the quad TLB, the last-level TLB and the walkers in
turn, each refilling those before it. A walk that finds no leaf refills nothing. The quad's and the die's TLBs serve
contexts alone: a core that serves none walks from satp behind its micro-TLB. -/
def State.tlbWalk (s : State) (c tag va : Nat) : Walk × State :=
  let k := s.core c
  match tlbFind k.microTlb tag va with
  | some e => (.leaf e, s)
  | none =>
    let d := dieOf c
    let q := quadOf c
    let toMicro (e : TlbEntry) (s : State) : State :=
      s.onCore c (fun k => { k with microTlb := tlbAdd k.microTlb Config.microEntries e })
    if (s.tagOf c).isNone then
      match s.memWalk d tag va (field k.satp 0 44) 5 with
      | (.leaf e, s1) => (.leaf e, toMicro e s1)
      | r => r
    else
    let toQuad (e : TlbEntry) (s : State) : State :=
      s.onDie d (fun k => { k with quadTlb := Tab.set k.quadTlb q (tlbAdd (Tab.getD k.quadTlb q []) Config.quadEntries e) })
    match tlbFind (Tab.getD (s.die d).quadTlb q []) tag va with
    | some e => (.leaf e, toMicro e s)
    | none =>
      match tlbFind (s.die d).lastTlb tag va with
      | some e => (.leaf e, toMicro e (toQuad e s))
      | none =>
        match s.ctx tag with
        | some x =>
          match s.memWalk d tag va x.root 5 with
          | (.leaf e, s1) =>
            let s2 := s1.onDie d (fun k => { k with lastTlb := tlbAdd k.lastTlb Config.lastEntries e })
            (.leaf e, toMicro e (toQuad e s2))
          | r => r
        | none => (.page, s)

/-- R184: the entry of an address for the probe pass, asked of a lane's bank first. -/
def State.bankWalk (s : State) (c lane tag va : Nat) : Walk × State :=
  match tlbFind ((s.core c).laneTlb.getD lane []) tag va with
  | some e => (.leaf e, s)
  | none =>
    match s.tlbWalk c tag va with
    | (.leaf e, s1) =>
      (.leaf e, s1.onCore c (fun k =>
        { k with laneTlb := k.laneTlb.set lane (tlbAdd (k.laneTlb.getD lane []) Config.bankEntries e) }))
    | r => r

/-! The tables, as firmware writes them. -/

/-- The page number of the n-th page-table page: they lie in the last eight frames of the dies, which belong to the
firmware (R384; log 10). -/
def tablePage (n : Nat) : Nat := n % 64 * 2 ^ 24 + (2 ^ 24 - 4096) + n / 64

/-- The page-table pages that the module has (log 10). -/
def tablePages : Nat := 64 * 4096

/-- A page-table page taken, which reads zero; none where all are in use. -/
def State.takeTable (s : State) : Option (Nat × State) :=
  match s.freeTables with
  | p :: l => some (p, { s with freeTables := l })
  | [] => if s.nextTable < tablePages then some (tablePage s.nextTable, { s with nextTable := s.nextTable + 1 }) else none

/-- R393, step 1: firmware writes an entry at its home. -/
def State.writePte (s : State) (pa : Nat) (w : Word) : State :=
  ((s.recall (pa / 128)).writeHome s.horizon pa (bytesLE 8 w.toNat)).2

/-- A page of a template's tables copied for a context that changes what stands below it (R379, R381, R390). -/
def State.ownTable (s : State) (page : Nat) : Option (Nat × State) :=
  s.takeTable.map (fun t =>
    let held := ((s.mem.filter (fun e => e.1 / 4096 == page)).map (fun e => e.1 % 4096 / 8)).dedup
    (t.1, held.foldl (fun s j =>
      let r := s.readPte (homeDie (page * 4096)) (page * 4096 + 8 * j)
      r.2.writePte (t.1 * 4096 + 8 * j) r.1) t.2))

/-- The address of the entry of a leaf, from the table at a page down to the leaf's level, with the context's own pages: a
table that is missing between them is made, and one that is a template's is copied, before what stands below it changes.
`depth` is the levels still to go down. None where no page is left. -/
def State.entryFor (s : State) (va level : Nat) (own : List Nat) : Nat → Nat → Option (Nat × List Nat × State)
  | ppn, 0 => some (entryAt ppn level va, own, s)
  | ppn, depth + 1 =>
    let pa := entryAt ppn (level + depth + 1) va
    let r := s.readPte (homeDie pa) pa
    let next := field r.1 10 44
    if r.1.getLsbD 0 && field r.1 1 3 != 0 then none
    else if r.1.getLsbD 0 && own.contains next then r.2.entryFor va level own next depth
    else
      match (if r.1.getLsbD 0 then r.2.ownTable next else r.2.takeTable) with
      | none => none
      | some t => (t.2.writePte pa (BitVec.ofNat 64 (t.1 * 1024 + 1))).entryFor va level (t.1 :: own) t.1 depth

/-- Writes the entry of a leaf in a context's tables; none where no page-table page is left. -/
def State.writeEntry (s : State) (tag : Nat) (l : Leaf) (w : Word) : Option State :=
  match s.ctx tag with
  | none => some s
  | some c =>
    let level := levelOf l.size
    (s.entryFor l.va level c.tables c.root (4 - level)).map (fun r =>
      (r.2.2.writePte r.1 w).onCtx tag (fun c => { c with tables := r.2.1 }))

/-- Entries written one after another, all or none. -/
def State.writeEntries (s : State) (tag : Nat) : List (Leaf × Word) → Option State
  | [] => some s
  | e :: l => (s.writeEntry tag e.1 e.2).bind (fun s => s.writeEntries tag l)

/-- R385, R388: the leaves of a context changed, and its tables with them; none, with nothing changed, where no page-table
page is left for them (log 10). -/
def State.setLeaves (s : State) (tag : Nat) (new : List Leaf) : Option State :=
  match s.ctx tag with
  | none => some s
  | some c =>
    let gone := (c.leaves.filter (fun l => !new.contains l)).map (fun l => (l, (0 : Word)))
    let come := (new.filter (fun l => !c.leaves.contains l)).map (fun l => (l, l.pte))
    (s.writeEntries tag (gone ++ come)).map (fun s => s.onCtx tag (fun c => { c with leaves := new }))

/-- R381, step 2: a root table for a new context, whose entries point into its template's shared subtrees. -/
def State.plantTables (s : State) (tag shared : Nat) : Option State :=
  (s.ownTable shared).map (fun t => t.2.onCtx tag (fun c => { c with root := t.1, tables := [t.1] }))

/-- The page-table pages from a page down to the entry of a leaf (R379). -/
def State.tablesOver (s : State) (va level : Nat) : Nat → Nat → List Nat
  | ppn, 0 => [ppn]
  | ppn, depth + 1 =>
    let pa := entryAt ppn (level + depth + 1) va
    ppn :: s.tablesOver va level (field (s.readPte (homeDie pa) pa).1 10 44) depth

/-- R382: page-table pages that nothing needs any more are wiped, and free again. -/
def State.dropTables (s : State) (l : List Nat) : State :=
  { s with
    mem := s.mem.filter (fun e => !l.contains (e.1 / 4096))
    freeTables := s.freeTables ++ l }

/-- The place of a leaf's page for an address. -/
def leafPlace (pte : Word) (size va : Nat) : Nat := field pte 10 44 * 4096 + va % size

/-- Whether a scratchpad byte of a core belongs to a register annex (R29). -/
def Core.inAnnex (k : Core) (c off : Nat) : Bool :=
  k.img.harts.any (fun e => match e.2.annex with
    | some a =>
      match a.place with
      | .scratch c' o => c' == c && decide (o ≤ off) && decide (off < o + a.bytes)
      | .phys _ => false
    | none => false)

/-- The scratchpad partition of a context, in bytes (R315, R380). -/
def State.partition (s : State) (c : Nat) : Nat :=
  match s.tagOf c with
  | some t => ((s.ctx t).map Ctx.scratch).getD 0
  | none => 0

/-- R315: the core and byte that a scratchpad window address names for a core. -/
def scratchTarget (c va : Nat) : Option (Nat × Nat) :=
  let o := va - winBase
  if o < 0x100000 then some (c, o)
  else if 0x100000 ≤ o ∧ o < 0x140000 then some (c / 8 * 8 + (o - 0x100000) / 0x8000, (o - 0x100000) % 0x8000)
  else none

/-- R315, R355, R375, R383: a place in the untranslated range, for an access of n bytes, or none where it faults. -/
def State.windowPlace (s : State) (c va n : Nat) : Option Place :=
  let o := va - winBase
  if o < 0x200000 then
    match scratchTarget c va with
    | some (k, b) =>
      let size := s.partition c
      if b + n ≤ size ∧ s.tagOf k = s.tagOf c ∧ ¬ isManager k
          ∧ ¬ (List.range n).any (fun j => (s.core k).inAnnex k (b + j)) then some (.scratch k b)
      else none
    | none => none
  else if 0x400000 ≤ o ∧ o + n ≤ 0x400400 then some (.raster (o - 0x400000))
  else if o = 0x800000 ∧ n = 8 then some .control
  else none

/-- R386: what a walk's leaf gives an access: its place, a page fault, or an access fault outside R314's ranges. -/
def State.leafAcc (s : State) (e : TlbEntry) (kind : AccKind) (p : Priv) (va : Word) : Acc Place :=
  if leafRefuses e.pte e.size kind p then .fail kind.page va s
  else
    let pa := leafPlace e.pte e.size va.toNat
    if paOk pa then .ok (.mem pa (e.pte.getLsbD 9 && isDevice pa) (e.pte.getLsbD 5)) s
    else .fail kind.access va s

/-- R314, R386, R439: what a walk gives an access. -/
def State.walked (s : State) (w : Walk) (kind : AccKind) (p : Priv) (va : Word) : Acc Place :=
  match w with
  | .leaf e => s.leafAcc e kind p va
  | .page => .fail kind.page va s
  | .access => .fail kind.access va s
  | .bad pa => .fail 19 (BitVec.ofNat 64 pa) s

/-- R383 to R387: where an access of n bytes at an address leads, on a core, under given privilege. `lane` names the
TLB bank of a probe pass. -/
def State.translate (s : State) (c : Nat) (p : Priv) (kind : AccKind) (va : Word) (n : Nat) (lane : Option Nat) :
    Acc Place :=
  let a := va.toNat
  if !s.isPaged c p then
    if paOk a then .ok (.mem a false false) s else .fail kind.access va s
  else if 2 ^ 56 ≤ a then .fail kind.access va s
  else if (s.tagOf c).isSome ∧ inWindows a then
    if kind = .fetch then .fail kind.access va s
    else
      match s.windowPlace c a n with
      | some pl => .ok pl s
      | none => .fail kind.access va s
  else
    let s := s.meetTlbs c
    let r := match lane with
      | some l => s.bankWalk c l (s.asidOf c) a
      | none => s.tlbWalk c (s.asidOf c) a
    r.2.walked r.1 kind p va

/-- The micro-TLB's entry of an address, which a translation that has just succeeded leaves there (R387). -/
def State.microEntry (s : State) (c : Nat) (p : Priv) (va : Word) : Option TlbEntry :=
  if s.isPaged c p then tlbFind (s.core c).microTlb (s.asidOf c) va.toNat else none

end Sys2Proof.Machine
end

