-- ==== Sys2Proof/Machine/Access.lean ====
section
/-! DEFINITION. Loads and stores of a hardware context: alignment (R117), the store buffer (R318), the order within a
die (R320), ring slots (R282), uncorrectable data (R439), and the die's memory behind them. -/

namespace Sys2Proof.Machine

/-- The location of a place in memory or scratchpad. -/
def Place.loc : Place → Loc
  | .mem pa _ _ => .phys pa
  | .scratch c off => .scratch c off
  | .raster off => .phys (2 ^ 60 + off)
  | .control => .phys (2 ^ 61)

/-- Sets a core's program tick. -/
def State.setTick (s : State) (c : Nat) (p : Tick) : State := s.onCore c (fun k => { k with ptick := p })

/-- Raises a core's program tick to at least `p` (R322). -/
def State.raiseTick (s : State) (c : Nat) (p : Tick) : State := s.setTick c (tickMax (s.core c).ptick p)

/-- The loan length a core asks for (R323). -/
def State.leaseOf (s : State) (c : Nat) : Tick := (s.img c).lease.setWidth 16

/-- Reads n bytes of a core's scratchpad (R438): a correctable error is corrected and counted, uncorrectable data is a
machine check (R439), whose xtval is 0, since a scratchpad has no physical address (log 67). -/
def State.readScratch (s : State) (k off n : Nat) : Acc (List Byte) :=
  if s.badCore.any (CoreCell.inScratch k off n) then .fail 19 0 s
  else .ok (Memory.read (s.img k).scratch off n) (s.correct k (CoreCell.inScratch k off n))

/-- Reads n bytes of a place for a core (R320, R325). A read that consumes uncorrectable data is a machine check
(R439); a jump beyond the horizon's limit waits (R328). -/
def State.readPlace (s : State) (c : Nat) (pl : Place) (n : Nat) : Acc (List Byte) :=
  match pl with
  | .mem pa shared global =>
    if s.isBad pa then .fail 19 (BitVec.ofNat 64 (pa / 128 * 128)) s
    else
      let s := s.meetCopy c (CoreCell.isL1 c (pa / 128))
      let p := (s.core c).ptick
      let r := s.readPhys (dieOf c) p (if shared then .once else .loan (s.leaseOf c))
        (if global then 0 else s.accTag c) pa n
      if s.mayJump p r.2.1 then .ok r.1 (r.2.2.setTick c r.2.1) else .wait s
  | .scratch k off => s.readScratch k off n
  | _ => .ok [] s

/-- R359: the entries that an owner's log has between lrp and lwp, modulo 2^32. -/
def Img.logOpen (m : Img) (loff : Nat) : Nat :=
  (natLE (Memory.read m.scratch loff 4) + 2 ^ 32 - natLE (Memory.read m.scratch (loff + 4) 4)) % 2 ^ 32

/-- R359: whether n bytes of an owner's scratchpad meet an entry between lrp and lwp of a commit log at `loff`. -/
def Img.inLog (m : Img) (loff logn off n : Nat) : Bool :=
  let lrp := natLE (Memory.read m.scratch (loff + 4) 4)
  (List.range logn).any (fun e =>
    decide ((e + logn - lrp % logn) % logn < m.logOpen loff) && decide (off < loff + 128 + 16 * e + 16)
      && decide (loff + 128 + 16 * e < off + n))

/-- R359: whether a store of bytes by the owner breaks the rules of a log: it writes an entry between lrp and lwp, or lets lwp
run more than logn beyond lrp. -/
def Img.breaksLog (m : Img) (loff logn off : Nat) (data : List Byte) : Bool :=
  m.inLog loff logn off data.length
    || (decide (off < loff + 4) && decide (loff < off + data.length)
      && decide (logn < ({ m with scratch := Memory.write m.scratch off data } : Img).logOpen loff))

/-- R359: a store about to be made to an owner's scratchpad: a pass whose log it breaks is marked. -/
def State.touchLog (s : State) (k off : Nat) (data : List Byte) : State :=
  match (s.core k).serving with
  | some (tag, l) =>
    match s.ctx tag with
    | some c =>
      let broken (p : Pass) : Bool :=
        p.owners.any (fun u => u.lcore == l) && (s.img k).breaksLog p.loff p.logn off data
      if c.passes.any (fun p => broken p.2) then
        s.setCtx tag { c with passes := Tab.mapVal c.passes (fun _ p => if broken p then { p with spoiled := true } else p) }
      else s
    | none => s
  | none => s

/-- Writes bytes of a core's scratchpad (R320, R359). -/
def State.putScratch (s : State) (k off : Nat) (data : List Byte) : State :=
  (s.touchLog k off data).onImg k (fun m => { m with scratch := Memory.write m.scratch off data })

/-- Writes bytes to a place for a core, now (R320, R326), clearing other agents' reservations on the line (R123). -/
def State.writePlace (s : State) (i : HartId) (pl : Place) (data : List Byte) : Acc Unit :=
  match pl with
  | .mem pa shared global =>
    let p := (s.core i.core).ptick
    let r := s.writePhys (dieOf i.core) p (if shared then .home else .own) (if global then 0 else s.accTag i.core) pa data
    if s.mayJump p r.1 then
      .ok () ((r.2.setTick i.core r.1).clearResv (some i) (.phys (pa / 128 * 128)))
    else .wait s
  | .scratch k off =>
    .ok () ((s.putScratch k off data).clearResv (some i) (Loc.scratch k off).line)
  | _ => .ok () s

/-- The place of a location held in the store buffer. -/
def PendStore.place (e : PendStore) : Place :=
  match e.loc with
  | .phys pa => .mem pa e.wt false
  | .scratch c off => .scratch c off

/-- R318: the oldest store of a core's buffer is performed; one that must wait stays in the buffer (R328). -/
def State.performStore (s : State) (c : Nat) : Acc Unit :=
  match (s.img c).stores with
  | [] => .ok () s
  | e :: t =>
    (s.writePlace { core := c, h := e.h } e.place e.data).bind (fun _ s1 =>
      .ok () (s1.onImg c (fun m => { m with stores := t })))

/-- Performs stores of a core's buffer, oldest first, at most n of them. -/
def State.flushN (s : State) (c : Nat) : Nat → Acc Unit
  | 0 => .ok () s
  | n + 1 =>
    match (s.img c).stores with
    | [] => .ok () s
    | _ => (s.performStore c).bind (fun _ s => s.flushN c n)

/-- Performs every pending store of a core. -/
def State.flush (s : State) (c : Nat) : Acc Unit := s.flushN c (s.img c).stores.length

/-- Whether two byte ranges meet. -/
def rangesMeet (a : Loc) (n : Nat) (b : Loc) (m : Nat) : Bool :=
  match a, b with
  | .phys x, .phys y => decide (x < y + m) && decide (y < x + n)
  | .scratch c x, .scratch d y => c == d && decide (x < y + m) && decide (y < x + n)
  | _, _ => false

/-- R318: bytes read, with the pending stores of the same hardware context to them laid over, oldest first. -/
def overlay (h : Nat) (l : Loc) : List PendStore → List Byte → List Byte
  | [], bs => bs
  | e :: t, bs =>
    let n := bs.length
    let bs' := if e.h = h ∧ rangesMeet l n e.loc e.data.length then
        match l, e.loc with
        | .phys x, .phys y => bs.mapIdx (fun j b => if y ≤ x + j then e.data.getD (x + j - y) b else b)
        | .scratch _ x, .scratch _ y => bs.mapIdx (fun j b => if y ≤ x + j then e.data.getD (x + j - y) b else b)
        | _, _ => bs
      else bs
    overlay h l t bs'

/-- The ring slots of a core that hold a scratchpad byte, by ring and slot numbers; rings may overlap (R278). -/
def Img.slotsAt (m : Img) (off : Nat) : List (Nat × Nat) :=
  m.rings.filterMap (fun e =>
    let r := e.2
    if r.base ≤ off ∧ off < r.base + r.slotsz * r.count then some (e.1, (off - r.base) / r.slotsz) else none)

/-- R282: a slot that is not yet checked has its accession tag checked. -/
def State.checkSlot (s : State) (c : Nat) (va : Word) (e : Nat × Nat) : Acc Unit :=
  match Tab.get? (s.img c).rings e.1 with
  | some g =>
    if g.checked.contains e.2 then .ok () s
    else
      let s1 := s.onImg c (fun m => { m with rings := Tab.set m.rings e.1 { g with checked := e.2 :: g.checked } })
      if Tab.getD g.fills e.2 0 % 256 = (Tab.getD g.reads e.2 0 + 1) % 256 then .ok () s1 else .fail 30 va s1
  | none => .ok () s

/-- R282: a load by a core from unchecked slots of its own checks the slots' accession tags. -/
def State.slotCheck (s : State) (c : Nat) (pl : Place) (va : Word) : Acc Unit :=
  match pl with
  | .scratch k off =>
    if k = c then (Acc.list (fun e s => s.checkSlot c va e) ((s.img c).slotsAt off) s).bind (fun _ s => .ok () s)
    else .ok () s
  | _ => .ok () s

/-- R318: a load to bytes of another hardware context's pending store waits until that store is performed. -/
def State.settleOthers (s : State) (i : HartId) (l : Loc) (n : Nat) : Acc Unit :=
  if (s.img i.core).stores.any (fun e => e.h != i.h && rangesMeet l n e.loc e.data.length) then s.flush i.core
  else .ok () s

/-- A read of a place by a hardware context, its own pending stores forwarded. -/
def State.readOwn (s : State) (i : HartId) (pl : Place) (n : Nat) : Acc (List Byte) :=
  (s.settleOthers i pl.loc n).bind (fun _ s =>
    (s.readPlace i.core pl n).bind (fun bs s => .ok (overlay i.h pl.loc (s.img i.core).stores bs) s))

/-- Whether a place can be read or written as memory. -/
def Place.isMem : Place → Bool
  | .mem _ _ _ => true
  | .scratch _ _ => true
  | _ => false

/-- A matrix command that reads or writes scratchpad bytes. -/
def MatCmd.touches (c : MatCmd) : Bool :=
  match c.instr with
  | .mopa .. | .mld .. | .mst .. | .mstRel .. => true
  | _ => false

/-- Whether a place is a scratchpad byte. -/
def Place.isScratch : Place → Bool
  | .scratch _ _ => true
  | _ => false

/-- The place of a data access: a window that is no memory refuses it (R355, R375), and one in a scratchpad waits for
the core's matrix commands that touch the scratchpad (R211). -/
def State.memPlace (s : State) (kind : AccKind) (va : Word) (pl : Place) : Acc Place :=
  if !pl.isMem then .fail kind.access va s
  else if pl.isScratch && (s.img s.cur.core).mq.any MatCmd.touches then
    .wait (s.post (.matrixCommandExecute s.cur.core))
  else .ok pl s

/-- The place of a data access of the executing hardware context. -/
def State.dataPlace (s : State) (kind : AccKind) (va : Word) (n : Nat) : Acc Place :=
  (s.translate s.cur.core s.me.dataPriv kind va n none).bind (fun pl s => s.memPlace kind va pl)

/-- A load of the executing hardware context from a place (R282, R318). -/
def State.loadAt (s : State) (va : Word) (pl : Place) (n : Nat) : Acc (List Byte) :=
  (s.slotCheck s.cur.core pl va).bind (fun _ s => s.readOwn s.cur pl n)

/-- R117: a load of n bytes, naturally aligned. -/
def State.load (s : State) (va : Word) (n : Nat) : Acc (List Byte) :=
  if va.toNat % n ≠ 0 then .fail 4 va s
  else (s.dataPlace .load va n).bind (fun pl s => s.loadAt va pl n)

/-- Whether a place lies in host memory. -/
def Place.isHostMem : Place → Bool
  | .mem pa _ _ => isHost pa
  | _ => false

/-- A store performed now, behind every store of the core's buffer (R181, R318). -/
def State.storeNow (s : State) (i : HartId) (pl : Place) (data : List Byte) : Acc Unit :=
  (s.flush i.core).bind (fun _ s => s.writePlace i pl data)

/-- Issues a store to a place: it enters the store buffer, and is performed at once unless issued work is left in
flight (log 7); a store to host memory is performed before the next access to host memory (R338). -/
def State.issueStore (s : State) (i : HartId) (pl : Place) (data : List Byte) : Acc Unit :=
  let push (s : State) : State :=
    let wt := match pl with
      | .mem _ sh _ => sh
      | _ => false
    let e : PendStore := { h := i.h, loc := pl.loc, data := data, wt := wt }
    s.onImg i.core (fun m => { m with stores := m.stores ++ [e] })
  if s.hold && !pl.isHostMem then
    if (s.img i.core).stores.length < Config.storeEntries then .ok () (push s)
    else (s.performStore i.core).bind (fun _ s => .ok () (push s))
  else s.storeNow i pl data

/-- R117: a store of bytes, naturally aligned. -/
def State.store (s : State) (va : Word) (data : List Byte) : Acc Unit :=
  if va.toNat % data.length ≠ 0 then .fail 6 va s
  else (s.dataPlace .store va data.length).bind (fun pl s => s.issueStore s.cur pl data)

/-- A sign- or zero-extended value of bytes. -/
def extend (signed : Bool) (bs : List Byte) : Word :=
  let n := 8 * bs.length
  if signed then ((BitVec.ofNat n (natLE bs)).signExtend 64) else BitVec.ofNat 64 (natLE bs)

/-- The bytes of a register's low part, lowest first. -/
def lowBytes (n : Nat) (v : Word) : List Byte := bytesLE n v.toNat

/-- A field of a structure that was read: n bytes from an offset. -/
def at_ (bs : List Byte) (off n : Nat) : Nat := natLE ((bs.drop off).take n)

/-- The first offset in a range of a structure whose byte is not zero. -/
def nonzeroIn (bs : List Byte) (off n : Nat) : Option Nat :=
  (List.range n).findSome? (fun j => if bs.getD (off + j) 0 = 0 then none else some (off + j))

end Sys2Proof.Machine
end

