-- ==== Sys2Proof/Machine/Round.lean ====
section
/-! DEFINITION. The floating formats, their exact values, and rounding (R53 to R58, R62 to R69). -/

namespace Sys2Proof.Machine

/-- The plain floating formats (R50). -/
inductive FFmt where
  | fp16
  | bf16
  | fp32
  | fp64
  | e4m3
  | e5m2
  | e2m1
deriving DecidableEq, Repr

/-- The exponent bits of a format (R53, R56, R57). -/
def FFmt.ebits : FFmt → Nat
  | .fp16 => 5
  | .bf16 => 8
  | .fp32 => 8
  | .fp64 => 11
  | .e4m3 => 4
  | .e5m2 => 5
  | .e2m1 => 2

/-- The fraction bits of a format. -/
def FFmt.mbits : FFmt → Nat
  | .fp16 => 10
  | .bf16 => 7
  | .fp32 => 23
  | .fp64 => 52
  | .e4m3 => 3
  | .e5m2 => 2
  | .e2m1 => 1

/-- The bias of a format. -/
def FFmt.bias : FFmt → Nat
  | .fp16 => 15
  | .bf16 => 127
  | .fp32 => 127
  | .fp64 => 1023
  | .e4m3 => 7
  | .e5m2 => 15
  | .e2m1 => 1

/-- The width of a format. -/
def FFmt.width (f : FFmt) : Nat := 1 + f.ebits + f.mbits

/-- The exponent of the smallest normal. -/
def FFmt.emin (f : FFmt) : Int := 1 - (f.bias : Int)

/-- The code of the largest finite value. -/
def FFmt.maxCode : FFmt → Nat
  | .fp16 => 0x7BFF
  | .bf16 => 0x7F7F
  | .fp32 => 0x7F7FFFFF
  | .fp64 => 0x7FEFFFFFFFFFFFFF
  | .e4m3 => 0x7E
  | .e5m2 => 0x7B
  | .e2m1 => 0x7

/-- Whether a format saturates: it has no infinity (R64). -/
def FFmt.saturates : FFmt → Bool
  | .e4m3 => true
  | .e2m1 => true
  | _ => false

/-- The code of +∞, for the formats that have it. -/
def FFmt.infCode (f : FFmt) : Nat := (2 ^ f.ebits - 1) * 2 ^ f.mbits

/-- The canonical NaN (R53, R56); E2M1 has none, and a NaN becomes +0 there (R71). -/
def FFmt.nanCode : FFmt → Nat
  | .fp16 => 0x7E00
  | .bf16 => 0x7FC0
  | .fp32 => 0x7FC00000
  | .fp64 => 0x7FF8000000000000
  | .e4m3 => 0x7F
  | .e5m2 => 0x7E
  | .e2m1 => 0

/-- The value of an encoding: a NaN, an infinity, or (−1)^neg · m · 2^e. -/
inductive FVal where
  | nan (signalling : Bool)
  | inf (neg : Bool)
  | fin (neg : Bool) (m : Nat) (e : Int)
deriving DecidableEq, Repr

/-- The value that bits have in a format (R53, R56, R57). -/
def FFmt.decode (f : FFmt) (bits : Nat) : FVal :=
  let frac := bits % 2 ^ f.mbits
  let ex := bits >>> f.mbits % 2 ^ f.ebits
  let neg := decide ((bits >>> (f.width - 1)) % 2 = 1)
  let fin := if ex = 0 then FVal.fin neg frac (f.emin - f.mbits)
    else FVal.fin neg (frac + 2 ^ f.mbits) (ex - f.bias - f.mbits)
  match f with
  | .e2m1 => fin
  | .e4m3 => if ex = 15 ∧ frac = 7 then .nan false else fin
  | _ =>
    if ex = 2 ^ f.ebits - 1 then
      if frac = 0 then .inf neg else .nan (decide (frac < 2 ^ (f.mbits - 1)))
    else fin

/-- The sign bit of a format's encoding. -/
def FFmt.signBit (f : FFmt) (neg : Bool) : Nat := if neg then 2 ^ (f.width - 1) else 0

/-- A positive exact magnitude n / d · 2^e, with d not zero. -/
structure Mag where
  n : Nat
  d : Nat
  e : Int
deriving DecidableEq, Repr

/-- The rounding modes (R63); a stochastic rounding carries its draw (R69). -/
inductive RMode where
  | rne
  | rtz
  | rdn
  | rup
  | rmm
  | sto (draw : Nat)
deriving DecidableEq, Repr

/-- vtype.RM where the rounding is not stochastic: code 5 acts as RNE (R19, R63). -/
def RMode.ofCode (n : Nat) : RMode :=
  match n with
  | 1 => .rtz
  | 2 => .rdn
  | 3 => .rup
  | 4 => .rmm
  | _ => .rne

/-- n · 2^k as a fraction over a power of two: numerator and denominator. -/
def scale2 (n d : Nat) (k : Int) : Nat × Nat :=
  match k with
  | .ofNat j => (n * 2 ^ j, d)
  | .negSucc j => (n, d * 2 ^ (j + 1))

/-- floor(log2 (n / d)) of a positive fraction. -/
def log2Frac (n d : Nat) : Int :=
  let k : Int := (Nat.log2 n : Int) - (Nat.log2 d : Int)
  let r := scale2 n d (-k)
  if r.1 < r.2 then k - 1 else k

/-- floor(log2 x). -/
def Mag.log2 (x : Mag) : Int := log2Frac x.n x.d + x.e

/-- The grid index at or below x with spacing 2^q, and the remainder as a fraction of the spacing. -/
def Mag.grid (x : Mag) (q : Int) : Nat × Nat × Nat :=
  let r := scale2 x.n x.d (x.e - q)
  (r.1 / r.2, r.1 % r.2, r.2)

/-- R63, R69: whether the neighbour away from zero is chosen, from the lower neighbour's index and the remainder. -/
def roundsUp (mode : RMode) (neg : Bool) (a rem d : Nat) : Bool :=
  if rem = 0 then false
  else
    match mode with
    | .rne => decide (d < 2 * rem) || (2 * rem == d && a % 2 == 1)
    | .rtz => false
    | .rdn => neg
    | .rup => !neg
    | .rmm => decide (d ≤ 2 * rem)
    | .sto draw => decide (2 ^ 32 ≤ rem * 2 ^ 32 / d + draw)

/-- The index chosen with spacing 2^q. -/
def Mag.pick (x : Mag) (mode : RMode) (neg : Bool) (q : Int) : Nat :=
  let g := x.grid q
  if roundsUp mode neg g.1 g.2.1 g.2.2 then g.1 + 1 else g.1

/-- R64: what an overflow delivers. -/
def FFmt.overflow (f : FFmt) (mode : RMode) (neg : Bool) : Nat :=
  let big := f.signBit neg + f.maxCode
  if f.saturates then big
  else
    let inf := f.signBit neg + f.infCode
    match mode with
    | .rtz => big
    | .rdn => if neg then inf else big
    | .rup => if neg then big else inf
    | _ => inf

/-- The encoding of a · 2^q, where a is below 2^(mbits+1) or the power itself. -/
def FFmt.encodeGrid (f : FFmt) (a : Nat) (q : Int) : Nat :=
  if a < 2 ^ f.mbits then a
  else if a = 2 ^ (f.mbits + 1) then ((q + 1 + f.mbits + f.bias).toNat) * 2 ^ f.mbits
  else (q + f.mbits + f.bias).toNat * 2 ^ f.mbits + (a - 2 ^ f.mbits)

/-- R63 to R65: a nonzero exact value rounded to a format, with its flags. -/
def FFmt.round (f : FFmt) (mode : RMode) (neg : Bool) (x : Mag) : Nat × Fl :=
  let k := x.log2
  let q := max k f.emin - f.mbits
  let g := x.grid q
  let a := x.pick mode neg q
  let inexact := decide (g.2.1 ≠ 0)
  let code := f.encodeGrid a q
  if f.maxCode < code then
    (f.overflow mode neg, { Fl.none with of := true, nx := true })
  else
    let tiny := decide (k < f.emin) &&
      (let u := x.pick mode neg (k - f.mbits)
       let r := scale2 u 1 (k - f.mbits - f.emin)
       decide (r.1 < r.2))
    (f.signBit neg + code, { Fl.none with nx := inexact, uf := inexact && tiny })

/-- An exact real with a sign: zero carries the sign that R62 gives it. -/
structure Exact where
  neg : Bool
  m : Mag
deriving DecidableEq, Repr

/-- A zero of a sign in a format. -/
def FFmt.zero (f : FFmt) (neg : Bool) : Nat := f.signBit neg

/-- An infinity of a sign; formats without one saturate (R71). -/
def FFmt.inf (f : FFmt) (neg : Bool) : Nat := if f.saturates then f.signBit neg + f.maxCode else f.signBit neg + f.infCode

/-- The rounded value of a possibly zero exact value. -/
def FFmt.roundE (f : FFmt) (mode : RMode) (x : Exact) : Nat × Fl :=
  if x.m.n = 0 then (f.zero x.neg, Fl.none) else f.round mode x.neg x.m

/-- Whether a mode rounds toward −∞, which decides the sign of an exact zero sum (R62). -/
def RMode.isDown : RMode → Bool
  | .rdn => true
  | _ => false

/-- The exact value of an integer: magnitude and sign. -/
def Exact.ofInt (i : Int) : Exact := { neg := decide (i < 0), m := { n := i.natAbs, d := 1, e := 0 } }

/-- The exact sum of two dyadic values given with signs: an integer over 2^e. -/
def addDyadic (n1 : Bool) (m1 : Nat) (e1 : Int) (n2 : Bool) (m2 : Nat) (e2 : Int) : Int × Int :=
  let e := min e1 e2
  let a : Int := (m1 * 2 ^ (e1 - e).toNat : Nat)
  let b : Int := (m2 * 2 ^ (e2 - e).toNat : Nat)
  ((if n1 then -a else a) + (if n2 then -b else b), e)

/-- The exact value of an integer times 2^e, with the sign that an exact zero takes. -/
def Exact.ofDyadic (i : Int) (e : Int) (zeroNeg : Bool) : Exact :=
  { neg := if i = 0 then zeroNeg else decide (i < 0), m := { n := i.natAbs, d := 1, e := e } }

/-- A value that is one of two signed infinities, a NaN with NV or not, or exact. -/
inductive Res where
  | nan (nv : Bool)
  | inf (neg : Bool)
  | ex (x : Exact)
deriving DecidableEq, Repr

/-- Delivers a result in a format with its flags; `base` holds flags already raised (R54, R63 to R65). -/
def FFmt.deliver (f : FFmt) (mode : RMode) (base : Fl) : Res → Nat × Fl
  | .nan nv => (f.nanCode, base.or { Fl.none with nv := nv })
  | .inf neg => (f.inf neg, base)
  | .ex x => let r := f.roundE mode x; (r.1, base.or r.2)

/-- NV for a signalling operand (R54). -/
def FVal.snan : FVal → Fl
  | .nan true => Fl.invalid
  | _ => Fl.none

/-- Whether a value is a NaN. -/
def FVal.isNan : FVal → Bool
  | .nan _ => true
  | _ => false

/-- Whether a value is an infinity. -/
def FVal.isInf : FVal → Bool
  | .inf _ => true
  | _ => false

/-- Whether a value is a zero. -/
def FVal.isZero : FVal → Bool
  | .fin _ 0 _ => true
  | _ => false

/-- The sign of a value; a NaN counts as positive. -/
def FVal.neg : FVal → Bool
  | .nan _ => false
  | .inf n => n
  | .fin n _ _ => n

/-- The value with its sign inverted. -/
def FVal.negate : FVal → FVal
  | .nan q => .nan q
  | .inf n => .inf (!n)
  | .fin n m e => .fin (!n) m e

/-- A finite value as an exact value. -/
def FVal.exact : FVal → Exact
  | .fin n m e => { neg := n, m := { n := m, d := 1, e := e } }
  | _ => { neg := false, m := { n := 0, d := 1, e := 0 } }

/-- The sum (R62): ∞ − ∞ is invalid; an exact zero sum takes its sign by R62. -/
def addVal (down : Bool) (a b : FVal) : Res :=
  match a, b with
  | .nan _, _ => .nan false
  | _, .nan _ => .nan false
  | .inf x, .inf y => if x = y then .inf x else .nan true
  | .inf x, _ => .inf x
  | _, .inf y => .inf y
  | .fin n1 m1 e1, .fin n2 m2 e2 =>
    let r := addDyadic n1 m1 e1 n2 m2 e2
    .ex (Exact.ofDyadic r.1 r.2 (if m1 = 0 ∧ m2 = 0 ∧ n1 = n2 then n1 else down))

/-- The product (R62): 0 · ∞ is invalid. -/
def mulVal (a b : FVal) : Res :=
  match a, b with
  | .nan _, _ => .nan false
  | _, .nan _ => .nan false
  | .inf x, .inf y => .inf (x != y)
  | .inf x, .fin y m _ => if m = 0 then .nan true else .inf (x != y)
  | .fin x m _, .inf y => if m = 0 then .nan true else .inf (x != y)
  | .fin n1 m1 e1, .fin n2 m2 e2 => .ex { neg := n1 != n2, m := { n := m1 * m2, d := 1, e := e1 + e2 } }

/-- The quotient (R62, R65): 0/0 and ∞/∞ are invalid; the second component is DZ. -/
def divVal (a b : FVal) : Res × Bool :=
  match a, b with
  | .nan _, _ => (.nan false, false)
  | _, .nan _ => (.nan false, false)
  | .inf _, .inf _ => (.nan true, false)
  | .inf x, .fin y _ _ => (.inf (x != y), false)
  | .fin x _ _, .inf y => (.ex { neg := x != y, m := { n := 0, d := 1, e := 0 } }, false)
  | .fin n1 m1 e1, .fin n2 m2 e2 =>
    if m2 = 0 then
      if m1 = 0 then (.nan true, false) else (.inf (n1 != n2), true)
    else (.ex { neg := n1 != n2, m := { n := m1, d := m2, e := e1 - e2 } }, false)

/-- The product and sum of R150, rounded once by the caller. 0 · ∞ is invalid even beside a quiet NaN addend. -/
def fmaVal (down : Bool) (a b c : FVal) : Res :=
  match mulVal a b with
  | .nan nv => .nan nv
  | .inf n => match c with
    | .nan _ => .nan false
    | .inf m => if n = m then .inf n else .nan true
    | .fin _ _ _ => .inf n
  | .ex p => addVal down (.fin p.neg p.m.n p.m.e) c

/-- Addition in a format (R144). -/
def FFmt.add (f : FFmt) (mode : RMode) (a b : Nat) : Nat × Fl :=
  let x := f.decode a
  let y := f.decode b
  f.deliver mode (x.snan.or y.snan) (addVal mode.isDown x y)

/-- Subtraction in a format (R144). -/
def FFmt.sub (f : FFmt) (mode : RMode) (a b : Nat) : Nat × Fl :=
  let x := f.decode a
  let y := f.decode b
  f.deliver mode (x.snan.or y.snan) (addVal mode.isDown x y.negate)

/-- Multiplication in a format (R144). -/
def FFmt.mul (f : FFmt) (mode : RMode) (a b : Nat) : Nat × Fl :=
  let x := f.decode a
  let y := f.decode b
  f.deliver mode (x.snan.or y.snan) (mulVal x y)

/-- Division in a format (R146). -/
def FFmt.div (f : FFmt) (mode : RMode) (a b : Nat) : Nat × Fl :=
  let x := f.decode a
  let y := f.decode b
  let r := divVal x y
  f.deliver mode ((x.snan.or y.snan).or { Fl.none with dz := r.2 }) r.1

/-- The fused operations of R150: ±(a·b) ± c. -/
def FFmt.fma (f : FFmt) (mode : RMode) (negProd negAdd : Bool) (a b c : Nat) : Nat × Fl :=
  let x := f.decode a
  let y := f.decode b
  let z := f.decode c
  let x' := if negProd then x.negate else x
  let z' := if negAdd then z.negate else z
  f.deliver mode ((x.snan.or y.snan).or z.snan) (fmaVal mode.isDown x' y z')

/-- A value converted to a format (R70, R71): NaN and infinities by the target, finite values rounded. -/
def FFmt.convert (f : FFmt) (mode : RMode) (v : FVal) : Nat × Fl :=
  match v with
  | .nan s =>
    match f with
    | .e2m1 => (0, Fl.invalid)
    | _ => (f.nanCode, if s then Fl.invalid else Fl.none)
  | .inf n => (f.inf n, if f.saturates then Fl.invalid else Fl.none)
  | .fin n m e => f.roundE mode { neg := n, m := { n := m, d := 1, e := e } }

/-- The real order of two finite or infinite values: −1, 0 or 1. -/
def cmpVal (a b : FVal) : Int :=
  match a, b with
  | .inf x, .inf y => if x = y then 0 else if x then -1 else 1
  | .inf x, _ => if x then -1 else 1
  | _, .inf y => if y then 1 else -1
  | .fin n1 m1 e1, .fin n2 m2 e2 =>
    let r := (addDyadic n1 m1 e1 (!n2) m2 e2).1
    if r < 0 then -1 else if r = 0 then 0 else 1
  | _, _ => 0

/-- R80: minimumNumber or maximumNumber, with −0 below +0. -/
def FFmt.minmax (f : FFmt) (isMax : Bool) (a b : Nat) : Nat × Fl :=
  let x := f.decode a
  let y := f.decode b
  let fl := x.snan.or y.snan
  if x.isNan then (if y.isNan then (f.nanCode, fl) else (b, fl))
  else if y.isNan then (a, fl)
  else
    let c := cmpVal x y
    let aLess := if c = 0 then (x.neg && !y.neg) else decide (c < 0)
    let eq := decide (c = 0) && x.neg == y.neg
    if eq then (a, fl)
    else if aLess = isMax then (b, fl) else (a, fl)

/-- R73: an integer converted to a format. -/
def FFmt.ofInt (f : FFmt) (mode : RMode) (i : Int) : Nat × Fl := f.roundE mode (Exact.ofInt i)

/-- A value rounded to an integer by a mode: the integer and whether it differs (R72). -/
def roundInt (mode : RMode) (x : Exact) : Int × Bool :=
  let g := x.m.grid 0
  let a := x.m.pick mode x.neg 0
  (if x.neg then -(a : Int) else a, decide (g.2.1 ≠ 0))

/-- R72: a value converted to an integer of a width. -/
def toInteger (mode : RMode) (signed : Bool) (w : Nat) (v : FVal) : Int × Fl :=
  let hi : Int := if signed then 2 ^ (w - 1) - 1 else 2 ^ w - 1
  let lo : Int := if signed then -(2 ^ (w - 1)) else 0
  match v with
  | .nan _ => (hi, Fl.invalid)
  | .inf n => (if n then lo else hi, Fl.invalid)
  | .fin n m e =>
    let r := roundInt mode { neg := n, m := { n := m, d := 1, e := e } }
    if hi < r.1 then (hi, Fl.invalid)
    else if r.1 < lo then (lo, Fl.invalid)
    else (r.1, { Fl.none with nx := r.2 })

/-- R68: one step of the generator. -/
def xsStep (s : Word) : Word :=
  let s := s ^^^ (s <<< 13)
  let s := s ^^^ (s >>> 7)
  s ^^^ (s <<< 17)

/-- R68: the generator's state after n steps. -/
def xsState (s : Word) : Nat → Word
  | 0 => s
  | n + 1 => xsState (xsStep s) n

/-- R68: the draw of element i. -/
def drawOf (s0 : Word) (i : Nat) : Nat := (xsState s0 (i + 1)).toNat >>> 32

/-- R55: the IEEE total order on FP32 encodings, as an integer that orders them. -/
def totalKey (b : Nat) : Int :=
  if b < 2 ^ 31 then (b : Int) else -((b - 2 ^ 31 : Nat) : Int) - 1

end Sys2Proof.Machine
end

