-- ==== Sys2Proof/Machine/Operands.lean ====
section
/-! DEFINITION. Operand forms: immediates, the fields of vtype and vcfgst (R19, R24), element formats (R50), elements of
a vector register (R35), and the second operand of a VA instruction (R138). -/

namespace Sys2Proof.Machine

/-- A 12-bit immediate, sign-extended. -/
def imm12 (i : BitVec 12) : Word := i.signExtend 64

/-- A branch offset: imm[12:1] with its zero bit, sign-extended (R98). -/
def immBranch (i : BitVec 12) : Word := (i ++ (0 : BitVec 1)).signExtend 64

/-- A jump offset: imm[20:1] with its zero bit, sign-extended. -/
def immJump (i : BitVec 20) : Word := (i ++ (0 : BitVec 1)).signExtend 64

/-- An upper immediate, sign-extended. -/
def immUpper (i : BitVec 20) : Word := (i ++ (0 : BitVec 12)).signExtend 64

/-- The element formats (R50): integers by signedness and width, floating formats, block-scaled by element and scale
code, and group-scaled. -/
inductive Fmt where
  | int (signed : Bool) (w : Nat)
  | fp (f : FFmt)
  | blk (el sc : Nat)
  | i4g
  | i3g
deriving DecidableEq, Repr

/-- The format of a code (R50). -/
def Fmt.ofCode (c : Nat) : Option Fmt :=
  if c < 4 then some (.int true (8 * 2 ^ c))
  else if c < 8 then some (.int false (8 * 2 ^ (c - 4)))
  else if 0x10 ≤ c ∧ c < 0x20 ∧ c % 4 ≠ 3 then some (.blk (c / 4 % 4) (c % 4))
  else
    match c with
    | 0x08 => some (.fp .fp16)
    | 0x09 => some (.fp .bf16)
    | 0x0A => some (.fp .fp32)
    | 0x0B => some (.fp .fp64)
    | 0x0C => some (.fp .e4m3)
    | 0x0D => some (.fp .e5m2)
    | 0x0E => some (.fp .e2m1)
    | 0x20 => some .i4g
    | 0x21 => some .i3g
    | _ => none

/-- The width of an element (R50). -/
def Fmt.sew : Fmt → Nat
  | .int _ w => w
  | .fp f => f.width
  | .blk el _ => if el ≤ 1 then 8 else 4
  | .i4g => 4
  | .i3g => 4

/-- An arithmetic floating format (R50). -/
def Fmt.isArith : Fmt → Bool
  | .fp .fp16 => true
  | .fp .bf16 => true
  | .fp .fp32 => true
  | .fp .fp64 => true
  | _ => false

/-- An integer format. -/
def Fmt.isInt : Fmt → Bool
  | .int _ _ => true
  | _ => false

/-- A signed integer format. -/
def Fmt.isSigned : Fmt → Bool
  | .int true _ => true
  | _ => false

/-- A block- or group-scaled format (R51). -/
def Fmt.isScaled : Fmt → Bool
  | .blk _ _ => true
  | .i4g => true
  | .i3g => true
  | _ => false

/-- A block-scaled format. -/
def Fmt.isBlock : Fmt → Bool
  | .blk _ _ => true
  | _ => false

/-- vtype.FMT (R19). -/
def vtFmt (v : Word) : Nat := field v 0 6
/-- vtype.BLK (R19). -/
def vtBlk (v : Word) : Nat := field v 6 3
/-- vtype.RM (R19). -/
def vtRm (v : Word) : Nat := field v 9 3
/-- vtype.CANON (R19). -/
def vtCanon (v : Word) : Bool := v.getLsbD 12

/-- The length in elements of a block code: 1, 8, 16, 32 or 64 (R99, R131). -/
def blkLen (code : Nat) : Nat := if code = 0 then 1 else 2 ^ (code + 2)

/-- vcfgst.CFG (R24). -/
def cfgOn (w : Word) : Bool := w.getLsbD 63
/-- VLEN: 2 to the power of vcfgst.LVLEN (R24). -/
def cfgVlen (w : Word) : Nat := 2 ^ field w 9 4
/-- The declared widest width in bits (R24). -/
def cfgWidth (w : Word) : Nat := 8 * 2 ^ field w 7 2
/-- VLMAX (R27); 0 while unconfigured (R21). -/
def cfgVlmax (w : Word) : Nat := if cfgOn w then cfgVlen w / cfgWidth w else 0
/-- The number of vector registers of an nv code (R24). -/
def nvOf (code : Nat) : Nat := 2 ^ code
/-- vcfgst.ND (R24). -/
def cfgNd (w : Word) : Nat := field w 3 4
/-- VLMAX32 of a distribution register (R32). -/
def cfgVlmax32 (w : Word) : Nat := cfgVlen w / 32

/-- Element i of a register at a width (R35). -/
def elemAt (v : VReg) (sew i : Nat) : Nat := (v.extractLsb' (i * sew) sew).toNat

/-- A register with element i replaced. -/
def elemSet (v : VReg) (sew i x : Nat) : VReg :=
  (v &&& ~~~((BitVec.ofNat 16384 (2 ^ sew - 1)) <<< (i * sew))) ||| (BitVec.ofNat 16384 (x % 2 ^ sew) <<< (i * sew))

/-- Bit i of a mask register (R36). -/
def maskBit (v : VReg) (i : Nat) : Bool := v.getLsbD i

/-- A register with bits from `lo` up to `hi` set to ones. -/
def onesFrom (v : VReg) (lo hi : Nat) : VReg := v ||| (BitVec.ofNat 16384 (2 ^ hi - 2 ^ lo))

/-- A vector register. -/
def Hart.vget (t : Hart) (r : Reg) : VReg := t.v.get r

/-- Replaces a vector register. -/
def Hart.vset (t : Hart) (r : Reg) (v : VReg) : Hart := { t with v := t.v.set r.val v r.isLt }

/-- The element that a register's number one above names: the companion (R170). -/
def nextReg (r : Reg) : Reg := ⟨(r.val + 1) % 32, Nat.mod_lt _ (by decide)⟩

/-- A number read as a signed integer of a width. -/
def asSigned (w x : Nat) : Int := if x < 2 ^ (w - 1) then (x : Int) else (x : Int) - 2 ^ w

/-- An integer as a number of a width (R52: wraps). -/
def wrapTo (w : Nat) (i : Int) : Nat := (i.emod (2 ^ w)).toNat

/-- An element's integer value by its format's signedness (R52). -/
def intVal (signed : Bool) (w x : Nat) : Int := if signed then asSigned w x else (x : Int)

/-- R52: sat_iN or sat_nN. -/
def saturate (signed : Bool) (w : Nat) (i : Int) : Int :=
  let hi : Int := if signed then 2 ^ (w - 1) - 1 else 2 ^ w - 1
  let lo : Int := if signed then -(2 ^ (w - 1)) else 0
  if hi < i then hi else if i < lo then lo else i

/-- imm5 as an element: sign-extended, or read as unsigned, by its funct6 (R88, R138). -/
def imm5 (signed : Bool) (sew : Nat) (i : BitVec 5) : Nat :=
  if signed then wrapTo sew i.toInt else i.toNat % 2 ^ sew

/-- R138: the second operand of element i; the scalar was captured at issue. -/
def operandS (t : Hart) (xb : Word) (s : VaSrc) (immSigned : Bool) (sew i : Nat) : Nat :=
  match s with
  | .vv r => elemAt (t.vget r) sew i
  | .vx _ => xb.toNat % 2 ^ sew
  | .vi k => imm5 immSigned sew k

/-- R60: an element written under I3g carries in bit 3 a copy of bit 2. -/
def fixI3g (f : Fmt) (x : Nat) : Nat :=
  match f with
  | .i3g => x % 8 + (if x % 8 ≥ 4 then 8 else 0)
  | _ => x

end Sys2Proof.Machine
end

