-- ==== Sys2Proof/Machine/CommitUnit.lean ====
section
/-! DEFINITION. The commit unit of a render pass's owner: its log, ticket lists, blending and reorder store (R353 to
R365, R256). -/

namespace Sys2Proof.Machine

/-- The samples per pixel of a pass: 1, 2 or 4 (R353). -/
def Pass.nsamp (p : Pass) : Nat := 2 ^ p.samples

/-- The side of a region in pixels (R353). -/
def Pass.side (p : Pass) : Nat := 8 * 2 ^ p.region

/-- The regions across the screen (R354). -/
def Pass.across (p : Pass) : Nat := (p.width + p.side - 1) / p.side

/-- The regions down the screen (R354). -/
def Pass.down (p : Pass) : Nat := (p.height + p.side - 1) / p.side

/-- The pixel in its region that pixel p of block b is (R354). -/
def Pass.pixelAt (p : Pass) (b px : Nat) : Nat × Nat :=
  let w := p.side / 4
  (4 * (b % w) + px % 4, 2 * (b / w) + px / 4)

/-- Whether pixel px of a block of a region lies on the screen (R354). -/
def Pass.onScreen (p : Pass) (region b px : Nat) : Bool :=
  let xy := p.pixelAt b px
  decide (region % p.across * p.side + xy.1 < p.width) && decide (region / p.across * p.side + xy.2 < p.height)

/-- The cover bits of one pixel (R359). -/
def Pass.pixelCover (p : Pass) (cover : BitVec 32) (px : Nat) : Nat :=
  cover.toNat >>> (px * p.nsamp) % 2 ^ p.nsamp

/-- A cover without the samples beyond the screen's edge (R360). -/
def Pass.clip (p : Pass) (region b : Nat) (cover : BitVec 32) : BitVec 32 :=
  (List.range 8).foldl (fun c px =>
    if p.onScreen region b px then c
    else c &&& ~~~(BitVec.ofNat 32 ((2 ^ p.nsamp - 1) * 2 ^ (px * p.nsamp)))) cover

/-- The active pass of a number. -/
def State.pass (s : State) (tag n : Nat) : Option Pass := (s.ctx tag).bind (fun c => Tab.get? c.passes n)

/-- The owner unit of a logical core in a pass. -/
def Pass.unit (p : Pass) (l : Nat) : Option OwnerUnit := p.owners.find? (fun u => u.lcore == l)

/-- Replaces the owner unit of a logical core. -/
def Pass.setUnit (p : Pass) (u : OwnerUnit) : Pass :=
  { p with owners := p.owners.map (fun v => if v.lcore = u.lcore then u else v) }

/-- Replaces an owner unit of a context's pass. -/
def State.setUnit (s : State) (tag n : Nat) (u : OwnerUnit) : State :=
  s.onCtx tag (fun c => { c with passes := Tab.modify c.passes n (fun p => p.setUnit u) })

/-! What the unit meets. -/

/-- The unit that an owner's image lies with meets uncorrectable data, or a broken obligation for which no result is stated:
no instruction consumes it, and its context takes a context fault of a kind (R14, R438, R440; log 67). -/
def State.unitFault (s : State) (tag l kind : Nat) : State :=
  let e : Event := .contextFault tag kind (((s.residentCore tag l).map dieOf).getD 0) l 0
  if s.agenda.contains e then s else s.post e

/-- R438: whether bytes of an owner's scratchpad hold uncorrectable data, where its image is resident. -/
def State.ownerBad (s : State) (tag l off n : Nat) : Bool :=
  match s.residentCore tag l with
  | some c => s.badCore.any (CoreCell.inScratch c off n)
  | none => false

/-- R438: the correctable errors of bytes that the unit reads of an owner's scratchpad, and of the unit itself. -/
def State.ownerMeets (s : State) (tag l off n : Nat) : State :=
  match s.residentCore tag l with
  | some c => s.correct c (fun e => e.inScratch c off n || e.isUnit c)
  | none => s

/-- R438: whether the commit unit of an owner holds uncorrectable data. -/
def State.unitBad (s : State) (tag l : Nat) : Bool :=
  match s.residentCore tag l with
  | some c => s.badCore.any (CoreCell.isUnit c)
  | none => false

/-- A word of an owner's scratchpad. -/
def State.ownerWord (s : State) (tag l off : Nat) : Nat :=
  match s.logicalImg tag l with
  | some m => natLE (Memory.read m.scratch off 4)
  | none => 0

/-- Writes bytes of an owner's scratchpad in its die order, clearing reservations there (R123, R364). -/
def State.ownerWrite (s : State) (tag l off : Nat) (data : List Byte) : State :=
  let s1 := s.onLogical tag l (fun m => { m with scratch := Memory.write m.scratch off data })
  match s.residentCore tag l with
  | some c => s1.clearResv none (Loc.scratch c off).line
  | none => s1

/-- Whether an entry is the lowest of its block at every pixel its cover touches (R363). -/
def OwnerUnit.lowest (u : OwnerUnit) (p : Pass) (e : LogEntry) : Bool :=
  (List.range 8).all (fun px =>
    p.pixelCover e.cover px == 0 ||
      u.live.all (fun f => decide (e.ticket ≤ f.ticket) || f.block != e.block || p.pixelCover f.cover px == 0))

/-- R304: the lowest ticket below a commit's own in the list of some pixel that it covers. -/
def OwnerUnit.blocking (u : OwnerUnit) (p : Pass) (ticket block : Nat) (cover : BitVec 32) : Option Nat :=
  let below := u.live.filter (fun f => decide (f.ticket < ticket) && f.block == block &&
    (List.range 8).any (fun px => p.pixelCover f.cover px != 0 && p.pixelCover cover px != 0))
  below.foldl (fun a f => match a with | none => some f.ticket | some t => some (min t f.ticket)) none

/-- R364: one channel of one sample blended: s the source, sA its clamped alpha, k the stored byte. -/
def blendChannel (blend : Nat) (s sA k : Nat) : Nat :=
  let d := (FFmt.fp32.round .rne false { n := k, d := 255, e := 0 }).1
  let d := if k = 0 then 0 else d
  let r := match blend with
    | 0 => s
    | 1 =>
      let t := (FFmt.fp32.sub .rne 0x3F800000 sA).1
      (FFmt.fp32.add .rne s (FFmt.fp32.mul .rne d t).1).1
    | _ => (FFmt.fp32.add .rne s d).1
  match FFmt.fp32.decode r with
  | .fin neg m e =>
    if neg then 0 else min 255 (roundInt .rne { neg := false, m := { n := m * 255, d := 1, e := e } }).1.toNat
  | .inf neg => if neg then 0 else 255
  | .nan _ => 0

/-- R364: a source channel, NaN as 0, clamped to 0 to 1. -/
def clampUnit (b : Nat) : Nat :=
  match FFmt.fp32.decode b with
  | .nan _ => 0
  | v =>
    if v.neg then 0
    else if cmpVal v (.fin false 1 0) > 0 then 0x3F800000 else b

/-- R364: the word of one sample after blending, from the stored word and the four source channels. -/
def blendSample (blend : Nat) (k : Nat) (src : List (BitVec 32)) : Nat :=
  let s := src.map (fun b => clampUnit b.toNat)
  let sA := s.getD 3 0
  (List.range 4).foldl (fun w c => w + blendChannel blend (s.getD c 0) sA (k >>> (8 * c) % 256) * 2 ^ (8 * c)) 0

/-- R359: a word of colour that is undefined takes a free value (log 18). -/
def State.freeColour (s : State) (tag l off : Nat) : State :=
  let r := s.draw
  r.2.ownerWrite tag l off (bytesLE 4 (r.1.toNat % 2 ^ 32))

/-- R363, R364: the samples of a commit and its entry blended into the owner's colour area; in a pass whose colour is
undefined they take free values, and uncorrectable data is not written onward (R439). -/
def State.blend (s : State) (tag l : Nat) (p : Pass) (e : LogEntry) (k : Commit) : State :=
  (List.range (8 * p.nsamp)).foldl (fun s j =>
    if (e.cover &&& k.cover).getLsbD j then
      let xy := p.pixelAt e.block (j / p.nsamp)
      let off := p.coff + 4 * ((xy.2 * p.side + xy.1) * p.nsamp + j % p.nsamp)
      if p.spoiled then s.freeColour tag l off
      else if s.ownerBad tag l off 4 then s.unitFault tag l 2
      else (s.ownerMeets tag l off 4).ownerWrite tag l off (bytesLE 4 (blendSample p.blend (s.ownerWord tag l off) ((k.colours.drop (4 * j)).take 4)))
    else s) s

/-- R256: a back-pressured zcommit of a context offers its commit again when a reorder entry frees or a ticket is blended
or voided. -/
def State.wakeCommits (s : State) (tag : Nat) : State :=
  s.cores.foldl (fun s c =>
    if (c.2.serving.map Prod.fst) = some tag then
      c.2.img.harts.foldl (fun s h =>
        let e : Event := .commitReoffer { core := c.1, h := h.1 }
        if h.2.zwait.isSome && !s.agenda.contains e then s.post e else s) s
    else s) s

/-- R360: an entry retires; the count of entries retired from the front is stored in the log's header. -/
def State.storeRetired (s : State) (tag l : Nat) (p : Pass) (u : OwnerUnit) : State :=
  let front := (List.range u.pos).foldl (fun a k => if a = k ∧ u.retired.contains k then k + 1 else a) 0
  s.ownerWrite tag l (p.loff + 4) (bytesLE 4 (front % 2 ^ 32))

/-- R363: a commit that is due is blended, its entry retires, and the store is examined again in ascending ticket
order; `fuel` bounds the commits of the store. -/
def State.blendDue (s : State) (tag n l : Nat) : Nat → State
  | 0 => s
  | fuel + 1 =>
    match s.pass tag n with
    | none => s
    | some p =>
      match p.unit l with
      | none => s
      | some u =>
        let sorted := sortBy (fun a b => decide (a.ticket ≤ b.ticket)) u.store
        let cand := sorted.findSome? (fun k =>
          match u.live.find? (fun e => e.ticket == k.ticket && e.block == k.block) with
          | none => some (k, none)
          | some e => if u.lowest p e then some (k, some e) else none)
        match cand with
        | none => s
        | some (k, none) =>
          ((s.setUnit tag n { u with store := u.store.erase k }).wakeCommits tag).blendDue tag n l fuel
        | some (k, some e) =>
          let u' : OwnerUnit :=
            { u with store := u.store.erase k, live := u.live.erase e, blended := (e.ticket, e.block) :: u.blended,
                     retired := e.num :: u.retired }
          let s1 := (s.blend tag l p e k).setUnit tag n u'
          ((s1.storeRetired tag l p u').wakeCommits tag).blendDue tag n l fuel

/-- The store examined after a blend or a void (R363). -/
def State.examine (s : State) (tag n l : Nat) : State :=
  match (s.pass tag n).bind (fun p => p.unit l) with
  | some u => s.blendDue tag n l (u.store.length + 1)
  | none => s

/-- R360, R362: the live entry of a ticket and block is voided, if there is one. -/
def State.voidEntry (s : State) (tag n l ticket block : Nat) : State :=
  match s.pass tag n with
  | none => s
  | some p =>
    match p.unit l with
    | none => s
    | some u =>
      match u.live.find? (fun e => e.ticket == ticket && e.block == block) with
      | none => s
      | some e =>
        let u' : OwnerUnit := { u with live := u.live.erase e, retired := e.num :: u.retired }
        (((s.setUnit tag n u').storeRetired tag l p u').wakeCommits tag).examine tag n l

/-- R359: whether a reserved bit of a log entry is set. -/
def entryReserved (bs : List Byte) : Bool := decide (at_ bs 6 2 / 2 ≠ 0) || decide (at_ bs 12 4 ≠ 0)

/-- R360: one published entry of the log is taken. One in uncorrectable data (R438), or with a reserved bit set, which is
refused (R15; log 18), faults the context, and is not taken. -/
def State.takeEntry (s : State) (tag n l : Nat) (p : Pass) (u : OwnerUnit) : State :=
  let off := p.loff + 128 + 16 * (u.pos % p.logn)
  match s.logicalImg tag l with
  | none => s
  | some m =>
    let bs := Memory.read m.scratch off 16
    if s.ownerBad tag l off 16 then s.unitFault tag l 2
    else if entryReserved bs then s.unitFault tag l 6
    else
    let s := s.ownerMeets tag l off 16
    let ticket := at_ bs 0 4
    let block := at_ bs 4 2
    let isVoid := decide (at_ bs 6 2 % 2 = 1)
    let u1 : OwnerUnit := { u with pos := u.pos + 1 }
    if isVoid then
      let s1 := (s.setUnit tag n { u1 with retired := u.pos :: u1.retired }).voidEntry tag n l ticket block
      match (s1.pass tag n).bind (fun p => p.unit l) with
      | some u2 => s1.storeRetired tag l p u2
      | none => s1
    else if u.live.any (fun e => e.block == block && decide (ticket ≤ e.ticket))
        || u.blended.any (fun e => e.2 == block && decide (ticket ≤ e.1)) then
      let u2 : OwnerUnit := { u1 with retired := u.pos :: u1.retired }
      let lerr := s.ownerWord tag l (p.loff + 8)
      ((s.setUnit tag n u2).ownerWrite tag l (p.loff + 8) (bytesLE 4 (lerr / 2 * 2 + 1))).storeRetired tag l p u2
    else
      let e : LogEntry := { num := u.pos, ticket := ticket, block := block,
                            cover := p.clip u.region block (BitVec.ofNat 32 (at_ bs 8 4)) }
      s.setUnit tag n { u1 with live := u1.live ++ [e] }

/-- R360: the published entries taken in log order, at most `fuel` of them. -/
def State.pollN (s : State) (tag n l : Nat) : Nat → State
  | 0 => s
  | fuel + 1 =>
    match s.pass tag n with
    | none => s
    | some p =>
      match p.unit l with
      | none => s
      | some u => (s.takeEntry tag n l p u).pollN tag n l fuel

/-- R359: a pass whose log has been broken has undefined colour: the colour areas of all its owners take free values
(log 18). -/
def State.colourUndefined (s : State) (tag n : Nat) (p : Pass) : State :=
  let words := p.side * p.side * p.nsamp
  let s1 := p.owners.foldl (fun s u => (List.range words).foldl (fun s j => s.freeColour tag u.lcore (p.coff + 4 * j)) s) s
  s1.onCtx tag (fun c => { c with passes := Tab.modify c.passes n (fun p => { p with spoiled := true, filled := true }) })

/-- R360: the commit unit reads lwp and takes the entries published since. A log whose rules have been broken leaves the pass's
colour undefined (R359). -/
def State.readLog (s : State) (tag n l : Nat) (p : Pass) (u : OwnerUnit) : State :=
  let k := (s.ownerWord tag l p.loff + 2 ^ 32 - u.pos % 2 ^ 32) % 2 ^ 32
  let s1 := (s.ownerMeets tag l p.loff 128).pollN tag n l (min k p.logn)
  if p.spoiled && !p.filled then s1.colourUndefined tag n p else s1

/-- R359: whether a reserved byte of an owner's log header is not zero. -/
def State.headerReserved (s : State) (tag l loff : Nat) : Bool :=
  match s.logicalImg tag l with
  | some m => (Memory.read m.scratch (loff + 12) 116).any (fun b => b != 0)
  | none => false

/-- R360: the commit unit turns to its log. Uncorrectable data in it, or in the log's header (R438), and a reserved byte of the
header that is not zero (R15; log 18), fault the context. -/
def State.takeLog (s : State) (tag n l : Nat) : State :=
  match s.pass tag n with
  | none => s
  | some p =>
    match p.unit l with
    | none => s
    | some u =>
      if s.unitBad tag l || s.ownerBad tag l p.loff 128 then s.unitFault tag l 2
      else if s.headerReserved tag l p.loff then s.unitFault tag l 6
      else s.readLog tag n l p u

/-- R362, R405: what helpers have left to be voided while the owner's image was saved, once its log is read. -/
def State.voidLeft (s : State) (tag n l : Nat) : State :=
  match (s.pass tag n).bind (fun p => p.unit l) with
  | some u =>
    if u.voids.isEmpty then s
    else u.voids.foldl (fun s v => s.voidEntry tag n l v.1 v.2) (s.setUnit tag n { u with voids := [] })
  | none => s

/-- R360: the commit unit of a resident owner takes what its log has published; while the image is saved nothing of it moves
(R405). -/
def State.pollLog (s : State) (tag n l : Nat) : State :=
  if (s.residentCore tag l).isNone then s else (s.takeLog tag n l).voidLeft tag n l

/-- R362: a live entry of a ticket and block is to be voided: at once, or when the owner's image is resident again (R405). -/
def State.voidLater (s : State) (tag n l ticket block : Nat) : State :=
  match (s.pass tag n).bind (fun p => p.unit l) with
  | some u => (s.setUnit tag n { u with voids := u.voids ++ [(ticket, block)] }).pollLog tag n l
  | none => s

/-- What becomes of an offered commit (R256). -/
inductive Offer where
  | accepted (s : State)
  | refused (s : State)

/-- R256, R363: a commit offered to the commit unit of an owner, which first reads its log. While the owner's image is
saved the commit is not accepted (R405). -/
def State.offer (s : State) (tag n l : Nat) (k : Commit) : Offer :=
  if (s.residentCore tag l).isNone then .refused s
  else
  let s := s.pollLog tag n l
  match s.pass tag n with
  | none => .accepted s
  | some p =>
    match p.unit l with
    | none => .accepted s
    | some u =>
      match u.live.find? (fun e => e.ticket == k.ticket && e.block == k.block) with
      | none => .accepted s
      | some e =>
        let stored := s.setUnit tag n { u with store := u.store ++ [k] }
        if u.lowest p e then .accepted (stored.examine tag n l)
        else if u.store.length < 32 then .accepted stored
        else .refused s

end Sys2Proof.Machine
end

