-- ==== Sys2Proof/Machine/RaySlots.lean ====
section
/-! DEFINITION. Ray slots as the tasks and the helpers see them: completion records, verdicts, the end of a shader
task, cancelling (R259 to R265). -/

namespace Sys2Proof.Machine

/-- The status codes of a completion record (R263). -/
def rayHIT : Nat := 0
/-- MISS. -/
def rayMISS : Nat := 1
/-- DEPTH_REFUSED. -/
def rayREFUSED : Nat := 2
/-- FAULTED. -/
def rayFAULTED : Nat := 3
/-- CANCELLED. -/
def rayCANCELLED : Nat := 4
/-- NONE. -/
def rayNONE : Nat := 5
/-- PENDING. -/
def rayPENDING : Nat := 6

/-- A ray with its completion entered as the `order`-th of its helper (R263). -/
def Ray.complete (r : Ray) (status order : Nat) : Ray :=
  { r with phase := .complete, status := status, order := order, work := [], cand := none }

/-- Enters the completion of a slot in the mailbox (R263). -/
def Hart.completeRay (t : Hart) (slot status : Nat) : Hart :=
  match Tab.get? t.rays slot with
  | some r => { t with rays := Tab.set t.rays slot (r.complete status t.rayOrder), rayOrder := t.rayOrder + 1 }
  | none => t

/-- Changes a ray slot in use. -/
def Hart.onRay (t : Hart) (slot : Nat) (f : Ray → Ray) : Hart := { t with rays := Tab.modify t.rays slot f }

/-- The ray of a shader task, while its slot still holds that trace. -/
def State.linkedRay (s : State) (tag : Nat) (k : RayLink) : Option Ray :=
  ((s.logicalImg tag k.lcore).bind (fun m => Tab.get? (m.hart k.h).rays k.slot)).filter (fun r => r.uid == k.uid)

/-- Changes the hardware context that traces the ray of a shader task. -/
def State.onTracer (s : State) (tag : Nat) (k : RayLink) (f : Hart → Hart) : State :=
  s.onLogical tag k.lcore (fun m => m.onHart k.h f)

/-- Lets a ray go on: its traversal moves next where its core is resident (R260, R265). -/
def State.wakeRay (s : State) (tag lcore h slot : Nat) : State :=
  match s.residentCore tag lcore with
  | some c => s.post (.rayTraversal { core := c, h := h } slot)
  | none => s

/-- Whether a hit record is as good as another: the least t, then the lower instance, then the lower primitive (R260).
The earlier record wins a full tie. -/
def Hit.before (a b : Hit) : Bool :=
  let c := cmpVal (FFmt.fp32.decode a.t.toNat) (FFmt.fp32.decode b.t.toNat)
  decide (c < 0) || (decide (c = 0) && (decide (a.inst.toNat < b.inst.toNat)
    || (a.inst == b.inst && decide (a.prim.toNat < b.prim.toNat))))

/-- R260: an accepted candidate lowers tmax and replaces a worse hit; under flags[1] the search ends. -/
def Ray.accept (r : Ray) (c : Hit) (stop : Bool) : Ray :=
  let best := match r.best with
    | some b => if c.before b then c else b
    | none => c
  { r with best := some best, tmax := c.t, cand := none, stopAll := r.stopAll || stop || r.flags.getLsbD 1 }

/-- R260, R261: a candidate is rejected. -/
def Ray.reject (r : Ray) (stop : Bool) : Ray := { r with cand := none, stopAll := r.stopAll || stop }

/-- R262: a shader task of a ray was marked done with a code that is not zero: the ray completes FAULTED, unless it has
completed or was cancelled before. -/
def State.rayTaskFailed (s : State) (tag : Nat) (k : RayLink) : State :=
  match s.linkedRay tag k with
  | some r =>
    match r.phase with
    | .complete => s
    | .cancelling => s
    | _ => s.onTracer tag k (fun t => t.completeRay k.slot rayFAULTED)
  | none => s

/-- R260, R261, R264: a shader task of a ray has retired: a candidate without a verdict is rejected, a closest-hit or
miss task completes its ray, and a cancelled ray completes when no task of it is left. -/
def State.rayTaskRetired (s : State) (tag : Nat) (k : RayLink) : State :=
  match s.linkedRay tag k with
  | some r =>
    let r' : Ray := { r with tasks := r.tasks - 1 }
    let put (r : Ray) : State := s.onTracer tag k (fun t => t.onRay k.slot (fun _ => r))
    match r.phase with
    | .verdict =>
      if r.token = k.token then
        (put { r'.reject false with phase := .running }).wakeRay tag k.lcore k.h k.slot
      else put r'
    | .shading =>
      if r.token = k.token then
        (put r').onTracer tag k (fun t => t.completeRay k.slot (if r.best.isSome then rayHIT else rayMISS))
      else put r'
    | .cancelling =>
      if r'.tasks = 0 then (put r').onTracer tag k (fun t => t.completeRay k.slot rayCANCELLED) else put r'
    | _ => put r'
  | none => s

/-- R264: a ray is cancelled; its completion waits for its shader tasks. -/
def Hart.cancelRay (t : Hart) (slot : Nat) : Hart :=
  match Tab.get? t.rays slot with
  | some r =>
    match r.phase with
    | .complete => t
    | .cancelling => t
    | _ =>
      let t1 := t.onRay slot (fun r => { r with phase := .cancelling, work := [], cand := none })
      if r.tasks = 0 then t1.completeRay slot rayCANCELLED else t1
  | none => t

/-- The slot whose candidate a token names, among the hardware contexts of a context: logical core, hidx and slot
(R261). -/
def State.tokenRay (s : State) (tag token : Nat) : Option (Nat × Nat × Nat) :=
  match s.ctx tag with
  | some c =>
    c.ctab.findSome? (fun e =>
      (s.logicalImg tag e.1).bind (fun m =>
        m.harts.findSome? (fun f =>
          f.2.rays.findSome? (fun g =>
            if g.2.phase = .verdict ∧ g.2.token = token then some (e.1, f.1, g.1) else none))))
  | none => none

/-- A number no other trace or candidate of the context has (R261). -/
def State.newToken (s : State) (tag : Nat) : Nat × State :=
  match s.ctx tag with
  | some c => (c.nextToken, s.setCtx tag { c with nextToken := c.nextToken + 1 })
  | none => (0, s)

/-- R263: the completion that rwait returns next: the oldest not yet returned. -/
def Hart.nextCompletion (t : Hart) : Option (Nat × Ray) :=
  t.rays.foldl (fun a e =>
    if e.2.phase = .complete ∧ e.2.returned = false then
      match a with
      | none => some e
      | some b => if e.2.order < b.2.order then some e else a
    else a) none

/-- Whether a ray of the helper is outstanding (R263). -/
def Hart.rayOutstanding (t : Hart) : Bool := t.rays.any (fun e => e.2.phase != .complete)

end Sys2Proof.Machine
end

