-- ==== Sys2Proof/Machine/Sched.lean ====
section
/-! DEFINITION. Tasks and where they go: effective priority (R302, R304), the order of a queue (R303), eligibility
(R306), placement (R307), first queueing (R296 to R300), the search of a taker (R305), done and retired tasks (R275,
R298, R310), barrier arrivals (R277, R308, R309), and the fencing of classes (R433, R436). -/

namespace Sys2Proof.Machine

/-! Events to the host. -/

/-- Records an event for the host's completion queue; 4,096 are kept, later ones are counted (R376, R448). -/
def State.postEvent (s : State) (e : Completion) : State :=
  if s.mgmt.events.length < 4096 then { s with mgmt := { s.mgmt with events := s.mgmt.events ++ [e] } }
  else { s with mgmt := { s.mgmt with lost := s.mgmt.lost + 1 } }

/-! Priority and order. -/

/-- The resident cc of a context on a die (R302, R303). -/
def Ctx.residentAt (c : Ctx) (die : Nat) : Nat := Tab.getD c.residentCc die 0

/-- The die whose queues hold a task. -/
def Queue.die' : Queue → Nat
  | .quad d _ => d
  | .die d => d

/-- W of R302. -/
def Ctx.waitedCc (c : Ctx) (t : Task) : Nat := t.waited + (c.residentAt t.queue.die' - t.since)

/-- PRIO of a record (R266). -/
def TaskRec.prio (r : TaskRec) : Nat := (r.ctl.setWidth 3).toNat

/-- CONT of a record. -/
def TaskRec.cont (r : TaskRec) : Bool := r.ctl.getLsbD 3

/-- TV of a record. -/
def TaskRec.tv (r : TaskRec) : Bool := r.ctl.getLsbD 4

/-- R302: a task's priority with aging alone, and whether it is aged. -/
def Ctx.agedPrio (c : Ctx) (t : Task) : Nat × Bool :=
  let p := t.tr.prio
  if p = 7 then (7, false) else (min (p + c.waitedCc t / 4096) 6, decide (p + c.waitedCc t / 4096 ≥ 7))

/-- R304: the blocking ticket of a commit that waits for acceptance, as its owner's log stands. -/
def Ctx.blockedBy (c : Ctx) (k : Offered) : Option Nat :=
  (Tab.get? c.passes k.pass).bind (fun p => (p.unit k.owner).bind (fun u => u.blocking p k.ticket k.block k.cover))

/-- The helpers of a context that wait in zcommit with a blocking ticket: the ticket and their task (R304). -/
def State.commitWaiters (s : State) (tag : Nat) : List (Nat × Task) :=
  match s.ctx tag with
  | some c =>
    c.ctab.flatMap (fun e =>
      match s.logicalImg tag e.1 with
      | some m => m.harts.filterMap (fun f =>
          match f.2.zwait, f.2.task with
          | some z, some k => (c.blockedBy z).map (fun b => (b, k.task))
          | _, _ => none)
      | none => [])
  | none => []

/-- The reorder-store entries of a context: their blocking ticket and effective priority (R304). -/
def Ctx.storeWaiters (c : Ctx) : List (Nat × Nat) :=
  c.passes.flatMap (fun p => p.2.owners.flatMap (fun u =>
    u.store.filterMap (fun k => (u.blocking p.2 k.ticket k.block k.cover).map (fun b => (b, k.prio)))))

/-- R302, R304: effective priority; `fuel` bounds a chain of waiters, along which tickets fall. -/
def Ctx.effPrio (c : Ctx) (waiters : List (Nat × Task)) : Nat → Task → Nat
  | 0, t => (c.agedPrio t).1
  | fuel + 1, t =>
    let a := (c.agedPrio t).1
    if t.tr.tv then
      let tk := t.tr.ticket.toNat
      let fromStore := c.storeWaiters.foldl (fun m w => if w.1 = tk then max m w.2 else m) 0
      let fromHelpers := waiters.foldl (fun m w => if w.1 = tk then max m (c.effPrio waiters fuel w.2) else m) 0
      max a (max fromStore fromHelpers)
    else a

/-- The effective priority of a task of a context. -/
def State.prioOf (s : State) (tag : Nat) (t : Task) : Nat :=
  match s.ctx tag with
  | some c =>
    let w := s.commitWaiters tag
    c.effPrio w (w.length + 1) t
  | none => t.tr.prio

/-- R303: whether a task is taken before another of the same queue. -/
def State.taskBefore (s : State) (tag : Nat) (a b : Task) : Bool :=
  let ea := s.prioOf tag a
  let eb := s.prioOf tag b
  let aged (t : Task) : Bool := ((s.ctx tag).map (fun c => (c.agedPrio t).2)).getD false
  if ea ≠ eb then decide (eb < ea)
  else if ea = 6 ∧ (aged a || aged b) then
    if aged a && aged b then decide (a.seq < b.seq) else aged a
  else if a.tr.key ≠ b.tr.key then decide (a.tr.key.toNat < b.tr.key.toNat)
  else decide (a.seq < b.seq)

/-! Where a task can run. -/

/-- Whether an opcode-use mask is covered by a capability mask. -/
def covers (caps need : Word) : Bool := need &&& ~~~caps == 0

/-- R307: whether a kernel's scratchpad need fits a context's partition. -/
def Ctx.fits (c : Ctx) (k : KernelFacts) : Bool := decide (k.scratch + k.ringbytes ≤ c.scratch)

/-- R307: whether a task is runnable on a core of a context's core table whose physical core satisfies a test (log 19). -/
def State.runnableOn (s : State) (c : Ctx) (t : Task) (p : Nat → Nat → Bool) : Bool :=
  c.fits t.facts && c.ctab.any (fun e => p e.1 e.2 && covers (s.core e.2).capmask t.facts.opmask)

/-- The distance of two dies on the 8×8 mesh (R307; log 19). -/
def meshDistance (a b : Nat) : Nat :=
  let gap (x y : Nat) : Nat := max x y - min x y
  gap (a / 8) (b / 8) + gap (a % 8) (b % 8)

/-- R307: the queue of a task that comes to a quad's local queue, or to a die's queue, or none where it can be placed
nowhere. Quads are the context's own: four logical cores each (log 20). -/
def State.place (s : State) (c : Ctx) (t : Task) (die : Nat) (quad : Option Nat) : Option Queue :=
  let onQuad := match quad with
    | some q => s.runnableOn c t (fun l _ => l / 4 == q)
    | none => false
  if onQuad then quad.map (fun q => Queue.quad die q)
  else if s.runnableOn c t (fun _ p => dieOf p == die) then some (.die die)
  else if t.tr.domain = 0xFF then
    let dies := (List.range 64).filter (fun d => s.runnableOn c t (fun _ p => dieOf p == d))
    (dies.foldl (fun (a : Option Nat) d =>
      match a with
      | none => some d
      | some b => if meshDistance die d < meshDistance die b then some d else some b) none).map Queue.die
  else none

/-- R300: the records of a context that count against its partition on a die: queued and held tasks, and the
primitives its passes hold (R356). -/
def Ctx.partCount (c : Ctx) (die : Nat) : Nat :=
  (c.tasks.filter (fun t => t.queue.die' == die)).length
    + ((c.passes.flatMap (fun p => ((p.2.owners.flatMap (fun u => u.inbox)).filter (fun r => r.die == die)).map
        (fun r => (p.1, r.ticket)))).dedup).length

/-- R300: whether the partition refuses a record. -/
def Ctx.partFull (c : Ctx) (die : Nat) (cont : Bool) : Bool :=
  if cont then c.partCount die == c.qpart else decide (c.partCount die ≥ c.qpart - c.qpart / 8)

/-! Launches. -/

/-- Changes a launch of a context. -/
def State.onLaunch (s : State) (tag n : Nat) (f : Launch → Launch) : State :=
  s.onCtx tag (fun c => { c with launches := Tab.modify c.launches n f })

/-- R298: a launch whose count has returned to zero after close completes next. -/
def State.checkLaunch (s : State) (tag n : Nat) : State :=
  match (s.ctx tag).bind (fun c => Tab.get? c.launches n) with
  | some l => if n ≠ 0 ∧ l.closed ∧ l.outstanding = 0 ∧ !l.completed then s.post (.launchComplete tag n) else s
  | none => s

/-- R298: the outstanding count of a launch falls by one. -/
def State.leaveLaunch (s : State) (tag n : Nat) : State :=
  (s.onLaunch tag n (fun l => { l with outstanding := l.outstanding - 1 })).checkLaunch tag n

/-- R298, R297, R409: a task of a launch reports a code that is not zero: the lowest sequence number's counts, and in
the service launch each is reported to the host at once. -/
def State.reportCode (s : State) (tag n seq code : Nat) : State :=
  if code = 0 then s
  else if n = 0 then
    s.postEvent { seq := 0, cmd := 0x81, tag := tag, status := code, value := BitVec.ofNat 64 seq, detail := 0 }
  else
    s.onLaunch tag n (fun l => { l with fail :=
      match l.fail with
      | some (q, k) => if seq < q then some (seq, code) else some (q, k)
      | none => some (seq, code) })

/-- R297, R298, R307: a task fails with a placement error; in the service launch the failure is reported with a status
the spec does not state (log 14); a shader task's ray completes FAULTED (R260). -/
def State.placementError (s : State) (tag : Nat) (t : Task) (counted : Bool) : State :=
  let s1 : State :=
    if t.launch = 0 then
      let r := s.draw
      r.2.postEvent { seq := 0, cmd := 0x81, tag := tag, status := r.1.toNat % 2 ^ 32, value := BitVec.ofNat 64 t.seq,
                      detail := 0 }
    else s.onLaunch tag t.launch (fun l => { l with perr := l.perr + 1 })
  let s2 := match t.ray with
    | some k => (s1.rayTaskFailed tag k).rayTaskRetired tag k
    | none => s1
  if counted then s2.leaveLaunch tag t.launch else s2

/-! Queueing. -/

/-- R437: whether a die selects a task of an opted-in context for shadow execution. -/
def State.selects (s : State) (tag die seq : Nat) : Bool :=
  Tab.getD s.mgmt.shadow tag false && decide ((seq ^^^ (s.die die).seed) % 2 ^ 20 = 0)

/-- R296, R298, R303: a task is first queued or directly started: it takes the next sequence number, its launch counts
it, and the die may select it for shadow execution. -/
def State.firstQueue (s : State) (tag die : Nat) (t : Task) : Task × State :=
  match s.ctx tag with
  | none => (t, s)
  | some c =>
    let t' : Task := { t with seq := c.nextSeq, waited := 0, since := c.residentAt die }
    let c' : Ctx :=
      if s.selects tag die c.nextSeq then
        { c with shadows := c.shadows ++ [{ seq := c.nextSeq, die := die, opmask := t.facts.opmask, primary := none,
                                            copy := none, hp := none, hc := none, since := c.residentAt die }],
                 tasks := c.tasks ++ [{ t' with queue := .die die, shadow := true, ray := none }] }
      else c
    (t', (s.setCtx tag { c' with nextSeq := c.nextSeq + 1 }).onLaunch tag t.launch (fun l =>
      { l with outstanding := l.outstanding + 1, tasks := l.tasks + 1 }))

/-- Puts a task into the queue that the placement rules give, keeping its age (R302); none where it can be placed
nowhere. -/
def State.queueTask (s : State) (tag die : Nat) (quad : Option Nat) (t : Task) : Option (Queue × State) :=
  match s.ctx tag with
  | none => none
  | some c =>
    match s.place c t die quad with
    | none => none
    | some q =>
      let t' : Task := { t with queue := q, waited := c.waitedCc t, since := c.residentAt q.die' }
      some (q, s.setCtx tag { c with tasks := c.tasks ++ [t'] })

/-- R307: the placement rules applied again to every queued task of a context on a die. -/
def State.replaceTasks (s : State) (tag die : Nat) : State :=
  match s.ctx tag with
  | none => s
  | some c =>
    c.tasks.foldl (fun s t =>
      if t.queue.die' = die ∧ !t.shadow then
        match s.ctx tag with
        | none => s
        | some c1 =>
          let quad := match t.queue with
            | .quad _ q => some q
            | .die _ => none
          match s.place c1 t die quad with
          | some q =>
            if q = t.queue then s
            else s.setCtx tag { c1 with tasks := c1.tasks.map (fun u =>
              if u.seq = t.seq ∧ !u.shadow then
                { u with queue := q, waited := c1.waitedCc u, since := c1.residentAt q.die' } else u) }
          | none =>
            (s.setCtx tag { c1 with tasks := c1.tasks.filter (fun u => u.seq != t.seq || u.shadow) }).placementError tag t true
      else s) s

/-! Taking. -/

/-- R306, R437: whether a queued task is eligible for a core. -/
def State.eligible (s : State) (tag core : Nat) (t : Task) : Bool :=
  s.tagOf core == some tag && covers (s.core core).capmask t.facts.opmask && t.heldBy.isNone &&
    (if t.shadow then
      match ((s.ctx tag).bind (fun c => c.shadows.find? (fun h => h.seq == t.seq))).bind Shadow.primary with
      | some p => p / 8 != core / 8
      | none => false
    else true)

/-- The step of R305's search at which a core meets a queue, or none where it never does. `qsel` is R301's. -/
def State.searchRank (s : State) (tag core : Nat) (qsel : BitVec 4) (q : Queue) : Option Nat :=
  let d := dieOf core
  let mine := quadOf core
  match q with
  | .die e => if e = d ∧ qsel.getLsbD 3 then some 10000 else none
  | .quad e lq =>
    if e ≠ d then none
    else
      match (List.range 4).findSome? (fun k => s.residentCore tag (lq * 4 + k)) with
      | none => none
      | some p =>
        let g := quadOf p
        if g = mine then (if qsel.getLsbD 0 then some 0 else none)
        else if g = mine ^^^ 1 then (if qsel.getLsbD 1 then some 1 else none)
        else if qsel.getLsbD 2 then
          let up := (g + 4096 - mine) % 4096
          let down := (mine + 4096 - g) % 4096
          some (if up ≤ down then 2 * up else 2 * down + 1)
        else none

/-- R305, R303: the task that a core's search takes, from step `first` on: 0 for qtake, 1 for qsteal. -/
def State.search (s : State) (tag core first : Nat) (qsel : BitVec 4) : Option Task :=
  match s.ctx tag with
  | none => none
  | some c =>
    (c.tasks.foldl (fun (a : Option (Nat × Task)) t =>
      if s.eligible tag core t then
        match s.searchRank tag core qsel t.queue with
        | none => a
        | some r =>
          if r < first then a
          else
            match a with
            | none => some (r, t)
            | some (r', u) => if r < r' ∨ (r = r' ∧ s.taskBefore tag t u) then some (r, t) else a
      else a) none).map Prod.snd

/-- Removes a task from the queues of its context. -/
def State.unqueue (s : State) (tag : Nat) (t : Task) : State :=
  s.onCtx tag (fun c => { c with tasks := c.tasks.filter (fun u => u.seq != t.seq || u.shadow != t.shadow) })

/-- R290: whether some queue that qsel names holds a task eligible for the core. -/
def State.queueReady (s : State) (core : Nat) : Bool :=
  match s.tagOf core with
  | some tag => (s.search tag core 0 (s.img core).qsel).isSome
  | none => false

/-- R400: whether a task of the die's queues is eligible for the core, whatever its control context searches. -/
def State.taskReady (s : State) (core : Nat) : Bool :=
  match s.tagOf core with
  | some tag =>
    match s.ctx tag with
    | some c => c.tasks.any (fun t => t.queue.die' == dieOf core && s.eligible tag core t)
    | none => false
  | none => false

/-! Barriers. -/

/-- R276, R308: the scope instance of a logical core for a scope code; a quad or cluster is the context's own (log 20). -/
def scopeInst (scope : BitVec 3) (lcore core : Nat) : Nat :=
  match scope.toNat with
  | 2 => lcore / 4
  | 3 => lcore / 8
  | 4 => dieOf core
  | _ => 0

/-- R308: the default N of a quad or cluster domain: the cores of it that serve the context. -/
def Ctx.defaultN (c : Ctx) (scope : BitVec 3) (inst : Nat) : Nat :=
  let w := if scope = 2 then 4 else 8
  (c.ctab.filter (fun e => e.1 / w == inst)).length

/-- A barrier domain of a context; the domain 0 of a quad or cluster exists without allocation (R308). -/
def Ctx.domainAt (c : Ctx) (scope : BitVec 3) (inst dom : Nat) : Option Domain :=
  match c.domains.find? (fun d => d.scope == scope && d.inst == inst && d.dom == dom) with
  | some d => some d
  | none =>
    if (scope = 2 ∨ scope = 3) ∧ dom = 0 then
      some { scope := scope, inst := inst, dom := 0, n := c.defaultN scope inst, count := 0, phase := 0, tick := 0, doneTick := 0 }
    else none

/-- Replaces a barrier domain of a context. -/
def Ctx.setDomain (c : Ctx) (d : Domain) : Ctx :=
  { c with domains := d :: c.domains.filter (fun e => !(e.scope == d.scope && e.inst == d.inst && e.dom == d.dom)) }

/-- Clears the pending bits of a completed phase in an image (R277). -/
def Img.clearPending (m : Img) (p : Pending) : Img :=
  { m with harts := Tab.mapVal m.harts (fun _ t => { t with pending := t.pending.filter (fun q => q != p) }) }

/-- Clears the pending bits of a completed phase in every hardware context of a context, resident or saved. -/
def State.clearPending (s : State) (tag : Nat) (p : Pending) : State :=
  let s1 : State := { s with cores := Tab.mapVal s.cores (fun _ k =>
    if (k.serving.map Prod.fst) = some tag then { k with img := k.img.clearPending p } else k) }
  s1.onCtx tag (fun c => { c with images := Tab.mapVal c.images (fun _ i =>
    { i with cores := Tab.mapVal i.cores (fun _ e => (e.1.clearPending p, e.2)) }) })

/-- The pending bit of a hardware context for a domain (R277). -/
def Hart.pendingAt (t : Hart) (scope : BitVec 3) (inst dom : Nat) : Option Pending :=
  t.pending.find? (fun p => p.scope == scope && p.inst == inst && p.dom == dom)

/-- R277: an arrival of a hardware context at a domain, with the release side of R331 at .mod and wider: the die's
owned lines up to the arrival's tick are written back (log 21). -/
def State.arrive (s : State) (i : HartId) (tag : Nat) (d : Domain) : State :=
  match s.ctx tag with
  | none => s
  | some c =>
    let p := (s.core i.core).ptick
    let wide := decide (5 ≤ d.scope.toNat)
    let mark : Pending := { scope := d.scope, inst := d.inst, dom := d.dom, phase := d.phase }
    let d1 : Domain := { d with count := d.count + 1, tick := if !wide then d.tick else if d.count = 0 then p else tickMax d.tick p }
    let s1 := if wide then s.drain (dieOf i.core) p else s
    let s2 := s1.onHart i (fun t => { t with pending := mark :: t.pending })
    let c := (s2.ctx tag).getD c
    if d1.count = d1.n then
      (s2.setCtx tag (c.setDomain { d1 with count := 0, phase := (d.phase + 1) % 2 ^ 16, doneTick := d1.tick })).clearPending tag mark
    else s2.setCtx tag (c.setDomain d1)

/-! Done and retired. -/

/-- R310: the arrival that a done task makes at the die domain its record names, where the domain is allocated to the
context and no arrival of the hardware context is pending there. -/
def State.doneArrival (s : State) (i : HartId) (tag : Nat) (t : Task) : State :=
  if t.tr.domain.toNat < 64 then
    match s.ctx tag with
    | none => s
    | some c =>
      match c.domainAt 4 (dieOf i.core) t.tr.domain.toNat with
      | none => s
      | some d =>
        if ((s.hart i).pendingAt 4 d.inst d.dom).isSome then s else s.arrive i tag d
  else s

/-- R275, R298, R310: a helper's task is marked done with a code: its continuations become takeable, its launch learns
the code, and a failing shader task ends its ray (R262). -/
def State.markDone (s : State) (i : HartId) (tag code : Nat) : State :=
  match (s.hart i).task with
  | none => s
  | some k =>
    if k.task.done then s
    else
      let t := k.task
      let s1 := s.onHart i (fun h => { h with task := some { k with task := { t with done := true } } })
      let s2 := s1.onCtx tag (fun c => { c with tasks := c.tasks.map (fun u =>
        if u.heldBy = some t.seq then { u with heldBy := none } else u) })
      let s3 := s2.reportCode tag t.launch t.seq code
      let s4 := s3.doneArrival i tag t
      match t.ray with
      | some r => if code = 0 then s4 else s4.rayTaskFailed tag r
      | none => s4

/-- R362: an unmet shading obligation voids the live entry of its ticket and block, once the owner is resident (R405). -/
def State.voidObligation (s : State) (tag : Nat) (k : HelperTask) : State :=
  match k.obligation with
  | some o => if k.met then s else s.voidLater tag o.pass o.owner o.ticket o.block
  | none => s

/-- R270, R296, R298: a helper retires. Its pool share returns, its annex and registers are gone, its pending barrier
bits stay until hstart clears them (R309), and sip bit 17 is set (R290). `counts` is false for the retirements that
are not the task's (R436, R437). -/
def State.retireHelper (s : State) (i : HartId) (tag : Nat) (counts : Bool) : State :=
  let h := s.hart i
  let s1 := (s.dropAnnex tag i.core h.annex).setHart i { Hart.init .u with pending := h.pending }
  let s2 := s1.onImg i.core (fun m => { m with mip := setBit m.mip 17 true, mwaits := m.mwaits.filter (fun w => w.1 != i.h) })
  match h.task with
  | none => s2
  | some k =>
    if counts then
      let s3 := s2.voidObligation tag k
      let s4 := match k.task.ray with
        | some r => s3.rayTaskRetired tag r
        | none => s3
      if k.task.done then s4.leaveLaunch tag k.task.launch else s4
    else s2

/-- R436: the fenced-capability trap of a helper: it retires without qdone, and its task is queued again unchanged. -/
def State.requeueHelper (s : State) (i : HartId) (tag : Nat) : State :=
  match (s.hart i).task with
  | none => s.retireHelper i tag false
  | some k =>
    let s1 := s.retireHelper i tag false
    if k.task.shadow then s1
    else
      match s1.queueTask tag (dieOf i.core) (some ((s1.core i.core).lcore / 4)) k.task with
      | some (_, s2) => s2
      | none => s1.placementError tag k.task true

/-- R439: a machine check of a helper: it retires as by hexit, its task done with code 0xFFFFFFF1. -/
def State.machineCheckHelper (s : State) (i : HartId) (tag : Nat) : State :=
  (s.markDone i tag 0xFFFFFFF1).retireHelper i tag true

/-! Capability classes. -/

/-- The matrix classes (R430). -/
def matrixClasses : Word := 0x0FFFF80000000000

/-- R434: classes fenced on a core; one fenced before is fenced for the life of the record. -/
def CoreRec.fence (mask : Word) (r : CoreRec) : CoreRec :=
  let new := mask &&& r.caps
  if new = 0 then r
  else
    { r with caps := r.caps &&& ~~~mask, fences := r.fences + 1, fenced := r.fenced ||| new,
             perm := r.perm ||| (new &&& r.fenced), streak := r.streak.filter (fun e => !new.getLsbD e.1) }

/-- R433: classes quarantined on a core. -/
def CoreRec.quarantine (mask : Word) (r : CoreRec) : CoreRec := { r with quar := r.quar ||| mask }

/-- R435: the quarantine of classes lifted. -/
def CoreRec.lift (mask : Word) (r : CoreRec) : CoreRec := { r with quar := r.quar &&& ~~~mask }

/-- R434: classes restored, but those fenced for the life of the record. -/
def CoreRec.restore (mask : Word) (r : CoreRec) : CoreRec :=
  let back := mask &&& ~~~r.perm
  { r with caps := r.caps ||| back, streak := r.streak.filter (fun e => !back.getLsbD e.1) }

/-- Writes a core's record, and capmask with it (R431); a change of caps or quar is dated (R432). -/
def State.putRec (s : State) (core : Nat) (r : CoreRec) : State :=
  s.onCore core (fun k =>
    let same := k.crec.caps == r.caps && k.crec.quar == r.quar
    { k with crec := { r with when_ := if same then k.crec.when_ else s.devStore.life }, capmask := r.running })

/-- R433: some classes changed in a core's record, and capmask with them; tasks are placed again. A change of a matrix class
is made for the eight cores of the cluster at once; where one is fenced the cluster is pre-empted, and where one is
quarantined its image may have to move (R434). -/
def State.setCaps (s : State) (core : Nat) (mask : Word) (f : Word → CoreRec → CoreRec) : State :=
  let old := (s.core core).crec
  let s1 := s.putRec core (f mask old)
  let shared := mask &&& matrixClasses
  let s2 :=
    if shared = 0 then s1
    else (List.range 8).foldl (fun s k =>
      let c := core / 8 * 8 + k
      if c = core then s else s.putRec c (f shared (s.core c).crec)) s1
  let s3 := s2.ctxs.foldl (fun s e => s.replaceTasks e.1 (dieOf core)) s2
  let s4 := if old.caps &&& ~~~(f mask old).caps &&& matrixClasses = 0 then s3
    else s3.onDie (dieOf core) (fun d => { d with clusters := Tab.modify d.clusters (clusterOf core) (fun cl => { cl with evict := true }) })
  if old.running &&& ~~~(f mask old).running &&& matrixClasses = 0 then s4
  else s4.post (.sliceEnd (dieOf core) (clusterOf core))

/-- R437: both cores of unequal hashes are quarantined for every class of the kernel. -/
def State.quarantine (s : State) (core : Nat) (mask : Word) : State := s.setCaps core mask CoreRec.quarantine

/-- R437: the hash of a run at its comparison point: the values of x1 to x31 folded in. -/
def Hart.finalHash (t : Hart) (k : HelperTask) : Word :=
  t.x.toList.tail.foldl Config.hashFold k.hash

/-- R437: a run of a selected task reaches its comparison point; unequal hashes quarantine both cores, and a shadow
helper retires without effect. -/
def State.compareShadow (s : State) (i : HartId) (tag : Nat) : State :=
  let h := s.hart i
  match h.task, s.ctx tag with
  | some k, some c =>
    if !k.folds then s
    else
      let v := h.finalHash k
      let upd (r : Shadow) : Shadow := if k.task.shadow then { r with hc := some v } else { r with hp := some v }
      let recs := c.shadows.map (fun r => if r.seq = k.task.seq then upd r else r)
      let s1 := s.setCtx tag { c with shadows := recs }
      let s2 := if k.task.shadow then s1.retireHelper i tag false
        else s1.onHart i (fun t => { t with task := some { k with folds := false } })
      match recs.find? (fun r => r.seq == k.task.seq) with
      | some r =>
        match r.hp, r.hc, r.primary, r.copy with
        | some a, some b, some p, some q =>
          let s3 := s2.onCtx tag (fun c => { c with shadows := c.shadows.filter (fun x => x.seq != r.seq) })
          if a = b then s3 else (s3.quarantine p r.opmask).quarantine q r.opmask
        | _, _, _, _ => s2
      | none => s2
  | _, _ => s

/-- R437: a store of a run that folds its hash: address, width and data are folded in. -/
def HelperTask.foldStore (k : HelperTask) (va : Word) (n : Nat) (data : Word) : HelperTask :=
  { k with hash := Config.hashFold (Config.hashFold (Config.hashFold k.hash va) (BitVec.ofNat 64 n)) data }

end Sys2Proof.Machine
end

