-- ==== Sys2Proof/Machine/Ops.lean ====
section
/-! DEFINITION. The named operations that instructions are made of: completing, waiting, taking an exception and
returning from one (R45 to R49, R289 to R291, R436, R439, R460), the lookahead window and the chain at issue (R39 to
R47, R101), the register annex (R28 to R31), and loads and stores under shadow execution (R437). -/

namespace Sys2Proof

/-- The encoding of a register in xtval: class in [7:5], number in [4:0] (R31, R43). -/
def RegName.code : RegName → Nat
  | .x n => n
  | .v n => 32 + n
  | .d n => 64 + n

/-- Whether a register is a vector or distribution register. -/
def RegName.isVd : RegName → Bool
  | .x _ => false
  | _ => true

/-- The slots a register takes (R27). -/
def RegName.slots : RegName → Nat
  | .d _ => 12
  | _ => 1

/-- The order in which registers of one recency stand, most recent first: distribution registers before vector
registers, and lower numbers before higher (R30). -/
def RegName.rank : RegName → Nat
  | .d n => n
  | .v n => 64 + n
  | .x n => 128 + n

end Sys2Proof

namespace Sys2Proof.Machine

/-- The outcome of a step. -/
abbrev Out := Host.Outcome State Fault Refusal

/-! Completing. -/

/-- An instruction issues: it counts in the windows open before it (R41). -/
def Hart.passWindows (t : Hart) : Hart :=
  { t with windows := t.windows.map (fun w => { w with left := w.left - 1 }) }

/-- An instruction of a length completes: the pc moves past it, minstret counts it. -/
def Hart.complete (t : Hart) (len : Nat) : Hart :=
  { t.passWindows with pc := t.pc + BitVec.ofNat 64 len, minstret := t.minstret + 1 }

/-- An instruction of a length completes. -/
def State.done (s : State) (len : Nat) : Out := .next (s.onMe (fun t => t.complete len))

/-- An instruction completes and the pc goes to an address. -/
def State.jump (s : State) (target : Word) : Out :=
  .next (s.onMe (fun t => { t.complete 0 with pc := target }))

/-! Waiting. -/

/-- Whether an instruction is one of those that the vector sequencer executes (R39). -/
def Instr.isSequenced : Instr → Bool
  | .dadd .. | .dsub .. | .dmul .. | .dmax .. | .dmin .. | .dmix .. | .dscale .. | .dcond .. | .dtag .. | .dpoint ..
  | .dgauss .. | .dmom .. | .dqnt .. | .dcdf .. | .dld .. | .dst .. => false
  | .xbox .. | .xtri .. | .tfetch .. | .tgrad .. | .gfeat .. | .zcommit .. => false
  | _ => true

/-- The step of another agent that moves a flight on: the sequencer's, the condenser's, the quad units', or the commit
unit's. -/
def Flight.mover (f : Flight) (h : HartId) : Event :=
  match f.instr with
  | .zcommit .. => .commitReoffer h
  | .xbox .. | .xtri .. | .tfetch .. | .tgrad .. | .gfeat .. => .graphicsRecordExecute h
  | i => if Instr.isSequenced i then .elementGroupExecute h else .distributionElement h

/-- An instruction waits at issue: the pc stays, and the oldest instruction in flight moves next (log 6). -/
def State.stall (s : State) : Out :=
  match s.me.chain with
  | f :: _ => .next (s.post (f.mover s.cur))
  | [] => .next s

/-! Taking an exception. -/

/-- Whether what a flight has read is a descriptor or record, which it reads again when it has stopped (R241, R256). -/
def Flight.rereads (f : Flight) : Bool :=
  match f.instr with
  | .vbdot _ => false
  | .dld .. => false
  | _ => true

/-- A flight as it is recorded: it gives up its translations (R185) and its descriptor. -/
def Flight.recorded (f : Flight) : Flight :=
  { f with desc := if f.rereads then [] else f.desc, pages := [], probed := false, probeTrap := none }

/-- Whether a flight stands inside an element group, record or element with some of its accesses performed: no stopping
point, but for a fault or a machine check (R45). -/
def Flight.inside (f : Flight) : Bool :=
  decide (f.sub ≠ 0) || (match f.instr with
    | .dld .. => !f.desc.isEmpty
    | _ => false)

/-- Whether some flight of a hardware context stands inside a group. -/
def Hart.inside (t : Hart) : Bool := t.chain.any Flight.inside

/-- The flights of a hardware context that stand inside a group move next. -/
def State.finishGroups (s : State) (h : HartId) : State :=
  ((s.hart h).chain.filter Flight.inside).foldl (fun s f => s.post (f.mover h)) s

/-- The chain record of a list of flights, oldest first (R46). -/
def recordOf (l : List Flight) : List (Option Flight) :=
  (l.map (fun (f : Flight) => some f.recorded) ++ [none, none, none, none]).take 4

/-- Whether no entry of the chain record is held. -/
def Hart.recordEmpty (t : Hart) : Bool := t.chainRec.all (fun e => e.isNone)

/-- R46, R49, R460: the flights of a hardware context stop and are recorded, with the resume PC; its windows end, its
reservation is cleared (R123). -/
def Hart.stopAll (t : Hart) (resume : Word) : Hart :=
  let t1 : Hart :=
    match t.chain with
    | [] => if t.recordEmpty then { t with vrpc := resume } else t
    | l => { t with chainRec := recordOf l, vrpc := resume }
  { t1 with chain := [], windows := [], resv := none, zwait := none }

/-- Entry to S-mode (R289): sepc, scause and stval, the status and the mode, and the pc at stvec, which is direct. -/
def Hart.enterS (t : Hart) (cause tval epc stvec : Word) : Hart :=
  let st := setBit t.mstatus stSPIE (t.mstatus.getLsbD stSIE)
  let st := setBit (setBit st stSIE false) stSPP (t.mode != .u)
  { t with sepc := epc, scause := cause, stval := tval, mstatus := st, mode := .s, pc := stvec &&& ~~~3#64 }

/-- Entry to M-mode, on a die manager core, by RISC-V (R137, R290). -/
def Hart.enterM (t : Hart) (cause tval epc mtvec : Word) : Hart :=
  let st := setBit t.mstatus stMPIE (t.mstatus.getLsbD stMIE)
  let st := setField (setBit st stMIE false) stMPP 2 t.mode.code
  { t with mepc := epc, mcause := cause, mtval := tval, mstatus := st, mode := .m, pc := mtvec &&& ~~~3#64 }

/-- R403, R440: a control context that cannot enter its handler stops, and its context takes a context fault of
kind 6. -/
def State.stopControl (s : State) (tag : Nat) : State :=
  let c := s.core s.cur.core
  (s.onMe (fun t => { t with stopped := true })).post
    (.contextFault tag 6 (dieOf s.cur.core) c.lcore 0)

/-- Whether stvec still equals rt on a core of a context (R403). -/
def State.atRt (s : State) (tag : Nat) : Bool :=
  match s.ctx tag with
  | some c => s.myCore.img.stvec == c.rt
  | none => false

/-- A hardware context no longer stands in mwait (R209, R214). -/
def State.leaveMwait (s : State) : State :=
  if (s.img s.cur.core).mwaits.any (fun w => w.1 == s.cur.h) then
    s.onImg s.cur.core (fun m => { m with mwaits := m.mwaits.filter (fun w => w.1 != s.cur.h) })
  else s

/-- The flights of the executing hardware context stop and are recorded, and it leaves what it waits in (R45, R46). -/
def State.stopMe (s : State) : State := s.leaveMwait.onMe (fun t => t.stopAll t.pc)

/-- Enters the S-mode handler of a serving core, or stops a control context whose stvec still equals rt (R403). -/
def State.enterServing (s : State) (tag : Nat) (cause tval epc : Word) : State :=
  let s1 := s.stopMe
  if s.cur.h = 0 ∧ s.atRt tag then s1.stopControl tag
  else s1.onMe (fun t => t.enterS cause tval epc s.myCore.img.stvec)

/-- Enters the handler on a core that serves no context: M-mode, or S-mode where medeleg delegates the cause from
below M-mode (R137). -/
def State.enterManager (s : State) (cause : Nat) (tval epc : Word) : State :=
  let k := s.myCore
  let s1 := s.stopMe
  if s.me.mode ≠ .m ∧ k.medeleg.getLsbD cause then
    s1.onMe (fun t => t.enterS (BitVec.ofNat 64 cause) tval epc k.img.stvec)
  else s1.onMe (fun t => t.enterM (BitVec.ofNat 64 cause) tval epc k.mtvec)

/-- R439, R432, R434: a machine check stops the hardware context, with the address in stval; a helper's task is done with
MACHINE_CHECK and the helper retires. The eighth consumed error marks the core failed. -/
def State.machineCheck (s : State) (tag : Nat) (tval epc : Word) : State :=
  let c := s.cur.core
  let s1 := s.onCore c (fun k => { k with crec := { k.crec with uncorr := k.crec.uncorr + 1 } })
  let s2 := if (s1.core c).crec.uncorr ≥ 8 then s1.post (.coreFailed c) else s1
  let s3 := s2.leaveMwait.onMe (fun t => { t.stopAll t.pc with stopped := true, sepc := epc, scause := 19, stval := tval })
  if s.cur.h = 0 then s3 else s3.machineCheckHelper s.cur tag

/-- R289, R432, R439: a machine check on a core that serves no context stops the hardware context, and is reported to firmware,
with the address in mtval. -/
def State.machineCheckManager (s : State) (tval epc : Word) : State :=
  let s1 := s.onCore s.cur.core (fun k => { k with crec := { k.crec with uncorr := k.crec.uncorr + 1 } })
  s1.leaveMwait.onMe (fun t => { t.stopAll t.pc with stopped := true, mepc := epc, mcause := 19, mtval := tval })

/-- Takes a synchronous exception raised by the instruction at `epc` (R289). -/
def State.takeAt (s : State) (t : Trap) (epc : Word) : State :=
  match s.myCore.serving with
  | some (tag, _) =>
    if t.cause = 19 then s.machineCheck tag t.tval epc
    else if t.cause = 31 ∧ s.cur.h ≠ 0 then s.requeueHelper s.cur tag
    else s.enterServing tag (BitVec.ofNat 64 t.cause) t.tval epc
  | none => if t.cause = 19 then s.machineCheckManager t.tval epc else s.enterManager t.cause t.tval epc

/-- The instruction at the pc takes an exception. -/
def State.trap (s : State) (cause : Nat) (tval : Word) : Out :=
  .next (s.takeAt { cause := cause, tval := tval } s.me.pc)

/-- An illegal-instruction trap: xtval holds the instruction's bits (R82, R101). -/
def State.illegal (s : State) : Out := s.trap 2 (s.ir.setWidth 64)

/-- R290: an interrupt of the control context: xepc is the first instruction not issued, xtval is 0. -/
def State.takeInterrupt (s : State) (tag code : Nat) : State :=
  s.enterServing tag (BitVec.ofNat 64 (2 ^ 63 + code)) 0 s.me.pc

/-! Returning. -/

/-- R48, R49: the recorded instructions are in flight again, oldest first and fully blocking. -/
def Hart.rerun (t : Hart) : Hart :=
  let l := t.chainRec.filterMap id
  { t with chain := l, chainRec := [none, none, none, none],
           windows := l.map (fun f => { id := f.id, left := 0, reads := [], writes := [], masked := false }) }

/-- R49: a return to an address: with a chain record held it is re-run and execution goes on at vrpc. -/
def Hart.resume (t : Hart) (epc : Word) : Hart :=
  if t.recordEmpty then { t with pc := epc } else { t.rerun with pc := t.vrpc }

/-- The standard return from S-mode. -/
def Hart.sret (t : Hart) : Hart :=
  let prev : Mode := if t.mstatus.getLsbD stSPP then .s else .u
  let st := setBit t.mstatus stSIE (t.mstatus.getLsbD stSPIE)
  let st := setBit (setBit (setBit st stSPIE true) stSPP false) stMPRV false
  ({ t with mstatus := st, mode := prev }).resume t.sepc

/-- The standard return from M-mode. -/
def Hart.mret (t : Hart) : Hart :=
  let prev := Mode.ofCode (field t.mstatus stMPP 2)
  let st := setBit t.mstatus stMIE (t.mstatus.getLsbD stMPIE)
  let st := setField (setBit st stMPIE true) stMPP 2 0
  let st := if prev = .m then st else setBit st stMPRV false
  ({ t with mstatus := st, mode := prev }).resume t.mepc

/-! Accesses. -/

/-- What an instruction does with the result of an access. -/
def Acc.run {α : Type} (r : Acc α) (k : α → State → Out) : Out :=
  match r with
  | .ok a s => k a s
  | .trap t s => s.trap t.cause t.tval
  | .wait s => .next s

/-- R437: bytes read, with the half bytes that a shadow helper has stored laid over. -/
def overlayStored (t : Tab Byte) (va : Nat) (bs : List Byte) : List Byte :=
  bs.mapIdx (fun j b =>
    let half (k : Nat) : Nat := ((Tab.get? t (2 * (va + j) + k)).map BitVec.toNat).getD (b.toNat / 16 ^ k % 16)
    BitVec.ofNat 8 (half 0 + 16 * half 1))

/-- R437: the distinct dwords that a run has stored. -/
def dwordsStored (t : Tab Byte) : Nat := ((t.map (fun e => e.1 / 16)).dedup).length

/-- Whether the executing helper is a shadow. -/
def State.isShadow (s : State) : Bool :=
  match s.me.task with
  | some k => k.task.shadow
  | none => false

/-- R437: bytes read by the executing hardware context, a shadow's own stores laid over. -/
def State.seen (s : State) (va : Word) (bs : List Byte) : List Byte :=
  match s.me.task with
  | some k => if k.task.shadow then overlayStored k.stored va.toNat bs else bs
  | none => bs

/-- A load of the executing hardware context. -/
def State.read (s : State) (va : Word) (n : Nat) : Acc (List Byte) :=
  (s.load va n).bind (fun bs s => .ok (s.seen va bs) s)

/-- A load of the executing hardware context from a place already found. -/
def State.readAt (s : State) (va : Word) (pl : Place) (n : Nat) : Acc (List Byte) :=
  (s.loadAt va pl n).bind (fun bs s => .ok (s.seen va bs) s)

/-- A read of the executing hardware context from a place already found that is none of the loads that R282 names. -/
def State.readUntagged (s : State) (va : Word) (pl : Place) (n : Nat) : Acc (List Byte) :=
  (s.readOwn s.cur pl n).bind (fun bs s => .ok (s.seen va bs) s)

/-- A read of n bytes of one line on behalf of the executing hardware context that is none of the loads that R282
names. -/
def State.unitRead (s : State) (va : Word) (n : Nat) : Acc (List Byte) :=
  (s.dataPlace .load va n).bind (fun pl s => s.readUntagged va pl n)

/-- R266, R278, R283, R285: a structure read by an instruction at issue, aligned: a misalignment takes cause 4, a
faulting read the causes of R186 with the faulting address. Read dword by dword. -/
def State.readRecord (s : State) (va : Word) (align n : Nat) : Acc (List Byte) :=
  if va.toNat % align ≠ 0 then .fail 4 va s
  else
    (Acc.list (fun j s => s.unitRead (va + BitVec.ofNat 64 (8 * j)) 8) (List.range (n / 8)) s).bind
      (fun l s => .ok l.flatten s)

/-- Bytes recorded at their addresses by halves, zeros too. -/
def tabWrite (t : Tab Byte) (a : Nat) : List Byte → Tab Byte
  | [] => t
  | b :: l =>
    tabWrite (Tab.set (Tab.set t (2 * a) (BitVec.ofNat 8 (b.toNat % 16))) (2 * a + 1) (BitVec.ofNat 8 (b.toNat / 16))) (a + 1) l

/-- R437: a store of a selected task's run is folded into its hash, and what it stores is kept; the 513th distinct dword is the
comparison point. -/
def State.foldWith (s : State) (fold : HelperTask → HelperTask) (keep : Tab Byte → Tab Byte) : State :=
  match s.me.task with
  | some k =>
    if k.folds then
      let k2 : HelperTask := { fold k with stored := keep k.stored }
      if dwordsStored k2.stored ≤ 512 then s.onMe (fun t => { t with task := some k2 })
      else s.compareShadow s.cur s.myTag
    else s
  | none => s

/-- R437: what a store of bytes does to the hash of a selected task's run, and to what it has stored. -/
def State.foldStore (s : State) (va : Word) (data : List Byte) : State :=
  s.foldWith (fun k => k.foldStore va data.length (BitVec.ofNat 64 (natLE data))) (fun t => tabWrite t va.toNat data)

/-- R437: the same for the store of half a byte, whose width counts as no byte; its data say which half it is. -/
def State.foldHalf (s : State) (va : Word) (hi : Bool) (x : Nat) : State :=
  s.foldWith (fun k => k.foldStore va 0 (BitVec.ofNat 64 (x % 16 + 16 * hi.toNat)))
    (fun t => Tab.set t (2 * va.toNat + hi.toNat) (BitVec.ofNat 8 (x % 16)))

/-- The store of the executing hardware context to a place, folded; a shadow's is not performed (R437). -/
def State.putStore (s : State) (va : Word) (pl : Place) (data : List Byte) : Acc Unit :=
  if s.isShadow then .ok () (s.foldStore va data)
  else (s.issueStore s.cur pl data).bind (fun _ s => .ok () (s.foldStore va data))

/-- A store of the vector kind to a place, folded; a shadow's is not performed (R437). It is performed as its element is,
so that no later access of the hardware context goes before it (R181). -/
def State.putVector (s : State) (va : Word) (pl : Place) (data : List Byte) : Acc Unit :=
  if s.isShadow then .ok () (s.foldStore va data)
  else (s.storeNow s.cur pl data).bind (fun _ s => .ok () (s.foldStore va data))

/-- A store of the vector kind, naturally aligned. -/
def State.writeVector (s : State) (va : Word) (data : List Byte) : Acc Unit :=
  if va.toNat % data.length ≠ 0 then .fail 6 va s
  else (s.dataPlace .store va data.length).bind (fun pl s => s.putVector va pl data)

/-- A store of the executing hardware context. One that is misaligned on a page that faults takes the misalignment: R186
does not order the two (log 24). -/
def State.write (s : State) (va : Word) (data : List Byte) : Acc Unit :=
  if va.toNat % data.length ≠ 0 then .fail 6 va s
  else (s.dataPlace .store va data.length).bind (fun pl s => s.putStore va pl data)

/-! The registers an instruction names. -/

/-- The registers an instruction reads and writes, and whether it is masked (R42). -/
structure Uses where
  reads : List RegName
  writes : List RegName
  masked : Bool

/-- The x registers of a list; x0 is no register that changes. -/
def xs (l : List Reg) : List RegName := (l.filter (fun r => r != 0)).map (fun r => RegName.x r.val)

/-- What a base instruction uses. -/
def Uses.base (r w : List Reg) : Uses := { reads := xs r, writes := xs w, masked := false }

/-- v0 (R36). -/
def maskReg : RegName := .v 0

/-- What a VA instruction with two sources uses; `readsD` says that vd is a source too, `xd` that vd is an x register. -/
def Uses.va (m : Bool) (vd vs2 : Reg) (s : VaSrc) (readsD : Bool) : Uses :=
  let src := match s with
    | .vv r => [RegName.v r.val]
    | .vx r => xs [r]
    | .vi _ => []
  { reads := (RegName.v vs2.val :: src) ++ (if readsD then [RegName.v vd.val] else []) ++ (if m then [maskReg] else [])
    writes := [RegName.v vd.val], masked := m }

/-- What an instruction of the VA, VM or LX format uses (R42, R87 to R97). -/
def Instr.uses : Instr → Uses
  | .vadd o | .vsub o | .vrsub o | .vmul o | .vmulh o | .vdiv o | .vrem o | .vmin o | .vmax o | .vsadd o | .vssub o
  | .vand o | .vor o | .vxor o | .vsll o | .vsrl o | .vsra o | .vsgnj o | .vsgnjn o | .vsgnjx o | .vceq o | .vcne o
  | .vclt o | .vcle o | .vcgt o | .vcge o | .vmerge o | .vslideup o | .vslidedown o | .vgather o | .vredsum o
  | .vredmin o | .vredmax o | .vscan o => Uses.va o.m o.vd o.vs2 o.s false
  | .vmv o =>
    { reads := (match o.s with | .vv r => [RegName.v r.val] | .vx r => xs [r] | .vi _ => []) ++ (if o.m then [maskReg] else [])
      writes := [RegName.v o.vd.val], masked := o.m }
  | .vfma o | .vfms o | .vfnma o => Uses.va o.m o.vd o.vs2 o.s true
  | .vcompress o | .vmand o | .vmor o | .vmxor o | .vmandn o => Uses.va o.m o.vd o.vs2 (.vv o.vs1) false
  | .vbdot o =>
    { reads := [.v o.vs2.val, .v (nextReg o.vs2).val, .v o.vs1.val, .v (nextReg o.vs1).val, .v o.vd.val]
        ++ (if o.m then [maskReg] else [])
      writes := [.v o.vd.val], masked := o.m }
  | .vsqrt o | .vrcp o | .vrsqrt o | .vexp2 o | .vlog2 o | .vsin o | .vcos o | .vtanh o | .vclass o | .vabs o
  | .vneg o => { reads := .v o.vs2.val :: (if o.m then [maskReg] else []), writes := [.v o.vd.val], masked := o.m }
  | .vid o => { reads := if o.m then [maskReg] else [], writes := [.v o.vd.val], masked := o.m }
  | .vmpop o | .vmfirst o | .vmvxs o =>
    { reads := .v o.vs2.val :: (if o.m then [maskReg] else []), writes := xs [o.vd], masked := o.m }
  | .vmvsx o => { reads := xs [o.vs2], writes := [.v o.vd.val], masked := o.m }
  | .vcvt o => { reads := .v o.vs2.val :: (if o.m then [maskReg] else []), writes := [.v o.vd.val], masked := o.m }
  | .vbexp o => { reads := .v o.vs2.val :: (if o.m then [maskReg] else []), writes := [.v o.vd.val], masked := o.m }
  | .vbpack o =>
    { reads := .v o.vs2.val :: (if o.m then [maskReg] else []), writes := [.v o.vd.val, .v (nextReg o.vd).val], masked := o.m }
  | .vld o | .vldSt o => { reads := xs [o.a] ++ (if o.m then [maskReg] else []), writes := [.v o.d.val], masked := o.m }
  | .vldIx o =>
    { reads := xs [o.a] ++ .v o.b.val :: (if o.m then [maskReg] else []), writes := [.v o.d.val], masked := o.m }
  | .vamoadd o | .vamomin o | .vamomax o | .vamoswap o =>
    { reads := xs [o.a] ++ .v o.b.val :: .v o.d.val :: (if o.m then [maskReg] else []), writes := [.v o.d.val], masked := o.m }
  | .vst o | .vstSt o =>
    { reads := xs [o.a, o.b] ++ .v o.d.val :: (if o.m then [maskReg] else []), writes := [], masked := o.m }
  | .vstIx o =>
    { reads := xs [o.a] ++ .v o.b.val :: .v o.d.val :: (if o.m then [maskReg] else []), writes := [], masked := o.m }
  | .mcfg _ a => Uses.base [a] []
  | .mopa _ _ a b | .mld _ _ a b | .mst _ _ a b | .mstRel _ _ a b | .mwexp _ a b => Uses.base [a, b] []
  | .dadd _ d a b | .dsub _ d a b | .dmul _ d a b | .dmax _ d a b | .dmin _ d a b =>
    { reads := [.d a.val, .d b.val], writes := [.d d.val], masked := false }
  | .dmix _ d a b => { reads := .d d.val :: .d a.val :: xs [b], writes := [.d d.val], masked := false }
  | .dscale _ d a b => { reads := [.d d.val, .v a.val, .v b.val], writes := [.d d.val], masked := false }
  | .dcond _ d a b => { reads := [.d a.val, .v b.val], writes := [.d d.val], masked := false }
  | .dtag _ d a => { reads := xs [a], writes := [.d d.val], masked := false }
  | .dpoint _ d a => { reads := [.v a.val], writes := [.d d.val], masked := false }
  | .dgauss _ d a b => { reads := [.v a.val, .v b.val], writes := [.d d.val], masked := false }
  | .dmom _ d a _ => { reads := [.d a.val], writes := [.v d.val], masked := false }
  | .dqnt _ d a b => { reads := .d a.val :: xs [b], writes := [.v d.val], masked := false }
  | .dcdf _ d a b => { reads := [.d a.val, .v b.val], writes := [.v d.val], masked := false }
  | .dld _ d a => { reads := xs [a], writes := [.d d.val], masked := false }
  | .dst _ d a => { reads := .d d.val :: xs [a], writes := [], masked := false }
  | .xbox _ d a b | .xtri _ d a b | .vdedup _ d a b | .tgrad _ d a b =>
    { reads := [.v a.val, .v b.val], writes := [.v d.val], masked := false }
  | .xedge _ d a b | .tfetch _ d a b => { reads := .v a.val :: xs [b], writes := [.v d.val], masked := false }
  | .gfeat _ d a b => { reads := .v a.val :: xs [d, b], writes := [], masked := false }
  | .zcommit _ a b => { reads := .v a.val :: xs [b], writes := [], masked := false }
  | .trace _ d a b => { reads := .v a.val :: xs [b], writes := xs [d], masked := false }
  | .rwait _ d => Uses.base [] [d]
  | .rget _ d a => { reads := xs [a], writes := [.v d.val], masked := false }
  | .rhit _ a b => Uses.base [a, b] []
  | .rcancel _ a => Uses.base [a] []
  | _ => { reads := [], writes := [], masked := false }

/-- What an instruction uses under a vtype: under a block- or group-scaled format vcvt also reads the companion of its
source (R169, R170). -/
def Instr.usesUnder (i : Instr) (vtype : Word) : Uses :=
  match i with
  | .vcvt o =>
    if ((Fmt.ofCode (vtFmt vtype)).map Fmt.isScaled).getD false then
      { Instr.uses i with reads := .v (nextReg o.vs2).val :: (Instr.uses i).reads }
    else Instr.uses i
  | _ => Instr.uses i

/-- What an instruction uses at issue. -/
def State.usesNow (s : State) (i : Instr) : Uses := Instr.usesUnder i s.me.vtype

/-- What an instruction in flight uses. -/
def Flight.uses (f : Flight) : Uses := Instr.usesUnder f.instr f.vtype

/-! The lookahead window and the chain at issue. -/

/-- The conflicts of an instruction with an open window, as xtval names them (R42, R43). -/
def Window.conflicts (w : Window) (u : Uses) : List Nat :=
  let touched := u.reads ++ u.writes ++ (if u.masked then [maskReg] else [])
  let kept := w.reads ++ (if w.masked then [maskReg] else [])
  (touched.filter (fun r => w.writes.contains r)).map RegName.code
    ++ (u.writes.filter (fun r => r.isVd && kept.contains r)).map (fun r => 256 + r.code)

/-- The least of a list of numbers. -/
def leastOf : List Nat → Option Nat
  | [] => none
  | a :: t => some (t.foldl min a)

/-- Whether a window waits for its instruction: none is left in it and the instruction is in flight (R44). -/
def Hart.mustWait (t : Hart) : Bool := t.windows.any (fun w => w.left == 0 && t.chain.any (fun f => f.id == w.id))

/-- R39: a register of an instruction that an older instruction in flight still writes: an x register interlocks. -/
def Hart.interlocked (t : Hart) (u : Uses) : Bool :=
  t.chain.any (fun f => (Instr.uses f.instr).writes.any (fun r => !r.isVd && (u.reads.contains r || u.writes.contains r)))

/-- Steps 7 of R101 and the waits at issue: R39, R42 to R44. An idle hardware context passes at once. -/
def State.lookahead (s : State) (u : Uses) (k : State → Out) : Out :=
  let t := s.me
  if t.windows.isEmpty && t.chain.isEmpty then k s
  else if t.mustWait then s.stall
  else
    let live := t.windows.filter (fun w => w.left != 0)
    match leastOf (live.flatMap (fun w => w.conflicts u)) with
    | some c => s.trap 24 (BitVec.ofNat 64 c)
    | none => if t.interlocked u then s.stall else k (s.onMe (fun t => { t with windows := live }))

/-- A base instruction: its sources, its destination, and its effect. -/
def State.base (s : State) (r w : List Reg) (k : State → Out) : Out := s.lookahead (Uses.base r w) k

/-- Step 4 of R101: an instruction below whose privilege an illegal-instruction trap is taken. -/
def State.needs (s : State) (min : Mode) (k : State → Out) : Out := if s.me.mode.atLeast min then k s else s.illegal

/-- Goes on when nothing of the hardware context is in the chain. -/
def State.unchained (s : State) (k : State → Out) : Out := if s.me.chain.isEmpty then k s else s.stall

/-- An instruction that waited until every earlier one has completed: their windows end (R42). -/
def Hart.closeWindows (t : Hart) : Hart := if t.windows.isEmpty then t else { t with windows := [] }

/-- Waits until nothing of the hardware context is in flight. -/
def State.drained (s : State) (k : State → Out) : Out :=
  s.unchained (fun s => if s.me.windows.isEmpty then k s else k (s.onMe Hart.closeWindows))

/-! The register annex. -/

/-- The vector and distribution registers that an instruction names, each once (R30). -/
def Uses.named (u : Uses) : List RegName :=
  ((u.reads ++ u.writes ++ (if u.masked then [maskReg] else [])).filter (fun r => r.isVd)).dedup

/-- The slots of a list of registers. -/
def slotsOf (l : List RegName) : Nat := l.foldl (fun n r => n + r.slots) 0

/-- vcfgst.SLOTS (R24). -/
def cfgSlots (w : Word) : Nat := field w 14 7

/-- vcfgst.ANX (R24). -/
def cfgAnx (w : Word) : Bool := w.getLsbD 13

/-- Registers of one recency, in order. -/
def inRank (l : List RegName) : List RegName := sortBy (fun a b => decide (a.rank ≤ b.rank)) l

/-- R30: an instruction that names registers issues: they become the most recently used. -/
def Hart.touch (t : Hart) (names : List RegName) : Hart :=
  { t with resident := inRank (names.filter (fun r => t.resident.contains r))
      ++ t.resident.filter (fun r => !names.contains r) }

/-- The lines or scratchpad dwords of a hardware context's annex in which something is wrong: an access that faults, or an
error (R31, R438); none of the model's annexes has one but by what the part's cells do (log 67). -/
def State.annexBad (s : State) (t : Hart) : Option Nat :=
  match t.annex with
  | some a =>
    match a.place with
    | .phys pa => (s.faulty ++ s.bad).find? (fun ln => decide (pa < ln * 128 + 128) && decide (ln * 128 < pa + a.bytes))
    | .scratch c off => if (s.badCore ++ s.soft).any (CoreCell.inScratch c off a.bytes) then some off else none
  | none => none

/-- R30, step 1: victims leave until `need` slots are free; the last of the list is the least recently used. `fuel`
bounds the victims. -/
def evict (names : List RegName) (slots need : Nat) : Nat → List RegName → List RegName
  | 0, l => l
  | fuel + 1, l =>
    if slotsOf l + need ≤ slots then l
    else
      match (l.reverse.find? (fun r => !names.contains r)) with
      | some v => evict names slots need fuel (l.filter (fun r => r != v))
      | none => l

/-- R30, steps 1 and 2: the swap that brings the named registers into the pool. Registers keep their values: where
they lie is not visible to a program (R29, R32). -/
def Hart.swap (t : Hart) (names : List RegName) : Hart :=
  let missing := names.filter (fun r => !t.resident.contains r)
  let kept := evict names (cfgSlots t.vcfgst) (slotsOf missing) t.resident.length t.resident
  { t with resident := inRank missing ++ kept, zeroMarks := t.zeroMarks.filter (fun r => !missing.contains r) }

/-- Where a register lies in an annex, in 32-byte pieces from the annex's start: the arrangement is not stated, and decides
only which access meets an error (log 67). -/
def annexPieces (t : Hart) (a : Annex) (r : RegName) : List Nat :=
  let unit := cfgVlen t.vcfgst / 8
  let pos := match r with
    | .v n => n
    | .d n => 2 ^ field t.vcfgst 0 3 + 12 * n
    | .x _ => 0
  (List.range (r.slots * unit / 32)).map (fun j => if a.bytes = 0 then 0 else (pos * unit + 32 * j) % a.bytes)

/-- The annex fault of a register (R31). -/
def annexFault (r : RegName) : Trap := { cause := 25, tval := BitVec.ofNat 64 r.code }

/-- R31: what the write-out of a victim meets. -/
def State.annexWrite (s : State) (t : Hart) (r : RegName) : Option Trap :=
  match t.annex with
  | some a =>
    match a.place with
    | .phys pa => if (annexPieces t a r).any (fun o => s.faulty.contains ((pa + o) / 128)) then some (annexFault r) else none
    | .scratch _ _ => none
  | none => none

/-- R31, R439: what the reading of a register from the annex meets: a fault, or uncorrectable data. -/
def State.annexRead (s : State) (t : Hart) (r : RegName) : Option Trap :=
  match t.annex with
  | some a =>
    let l := annexPieces t a r
    match a.place with
    | .phys pa =>
      if l.any (fun o => s.faulty.contains ((pa + o) / 128)) then some (annexFault r)
      else (l.find? (fun o => s.isBad (pa + o))).map (fun o => { cause := 19, tval := BitVec.ofNat 64 ((pa + o) / 128 * 128) })
    | .scratch c off =>
      if l.any (fun o => s.badCore.any (CoreCell.inScratch c (off + o) 32)) then some { cause := 19, tval := 0 } else none
  | none => none

/-- R30, step 1, R31: victims are written out one by one until there is room; one whose write-out faults stays. `fuel`
bounds the victims. -/
def State.writeOut (s : State) (names : List RegName) (need : Nat) : Nat → Hart → Option Trap × Hart
  | 0, t => (none, t)
  | fuel + 1, t =>
    if slotsOf t.resident + need ≤ cfgSlots t.vcfgst then (none, t)
    else
      match t.resident.reverse.find? (fun r => !names.contains r) with
      | none => (none, t)
      | some v =>
        match s.annexWrite t v with
        | some e => (some e, t)
        | none => s.writeOut names need fuel { t with resident := t.resident.filter (fun r => r != v) }

/-- R30, step 2, R28, R31: named registers are read in one by one; one marked zero reads no memory, and one whose reading
fails stays in the annex. -/
def State.readIn (s : State) : List RegName → Hart → Option Trap × Hart
  | [], t => (none, t)
  | r :: l, t =>
    match (if t.zeroMarks.contains r then none else s.annexRead t r) with
    | some e => (some e, t)
    | none => s.readIn l { t with resident := r :: t.resident, zeroMarks := t.zeroMarks.filter (fun q => q != r) }

/-- R30, R31: the swap over an annex with an error in it, access by access: the trap it meets, and the registers as they
then lie. -/
def State.swapCarefully (s : State) (names : List RegName) (t : Hart) : Option Trap × Hart :=
  let missing := names.filter (fun r => !t.resident.contains r)
  match s.writeOut names (slotsOf missing) t.resident.length t with
  | (some e, t1) => (some e, t1)
  | (none, t1) => s.readIn (inRank missing) t1

/-- The correctable errors of a hardware context's annex corrected and counted (R438). -/
def State.correctAnnex (s : State) (c : Nat) (t : Hart) : State :=
  match t.annex with
  | some a =>
    match a.place with
    | .scratch k off => s.correct c (CoreCell.inScratch k off a.bytes)
    | .phys _ => s
  | none => s

/-- Whether an instruction's registers need a swap. -/
def Hart.needsSwap (t : Hart) (names : List RegName) : Bool :=
  cfgAnx t.vcfgst && names.any (fun r => !t.resident.contains r)

/-- Step 8 of R101: the annex swap before an instruction issues (R30, R31). -/
def State.annexed (s : State) (u : Uses) (k : State → Out) : Out :=
  let t := s.me
  let names := u.named
  if t.needsSwap names then
    s.drained (fun s =>
      match s.annexBad t with
      | none => k (s.onMe (fun t => (t.swap names).touch names))
      | some _ =>
        match (s.correctAnnex s.cur.core t).swapCarefully names s.me with
        | (some e, t1) => ((s.correctAnnex s.cur.core t).onMe (fun _ => t1)).trap e.cause e.tval
        | (none, t1) => k ((s.correctAnnex s.cur.core t).onMe (fun _ => t1.touch names)))
  else if cfgAnx t.vcfgst then k (s.onMe (fun t => t.touch names))
  else k s

/-- R438, R439: the registers that an instruction reads from the pool: correctable errors are corrected and counted,
uncorrectable data is a machine check with xtval 0, after the older instructions of the chain have completed. -/
def State.pooled (s : State) (u : Uses) (k : State → Out) : Out :=
  if (s.badCore ++ s.soft).isEmpty then k s
  else
    let mine := CoreCell.inRegs s.cur.core s.cur.h (u.reads ++ (if u.masked then [maskReg] else []))
    if s.badCore.any mine then s.drained (fun s => s.trap 19 0)
    else k (s.correct s.cur.core mine)

/-! Capability classes. -/

/-- R436: an instruction whose class has a 0 in capmask takes the fenced-capability trap, after the older instructions
of the chain have completed. -/
def State.classed (s : State) (cls : Option Nat) (k : State → Out) : Out :=
  match cls with
  | some c => if s.myCore.capmask.getLsbD c then k s else s.drained (fun s => s.trap 31 (BitVec.ofNat 64 c))
  | none => k s

/-! Instructions in flight. -/

/-- Steps 5 to 8 of R101 for an instruction of the VA, VM or LX format, the fenced-capability trap, and the wait for a
place in the chain (R26, R37, R47). `cfg` says that it names a vector or distribution register. -/
def State.issueVec (s : State) (i : Instr) (cfg fmtOk : Bool) (cls : Option Nat) (k : State → Out) : Out :=
  if cfg && !cfgOn s.me.vcfgst then s.illegal
  else if !fmtOk then s.illegal
  else
    s.lookahead (s.usesNow i) (fun s => s.annexed (s.usesNow i) (fun s => s.classed cls (fun s => s.pooled (s.usesNow i) k)))

/-- The instructions that record a carry at every stop (R46, R195): the reductions and the scan. Before its first group the
carry of one holds nothing yet. -/
def Instr.carries : Instr → Bool
  | .vredsum _ | .vredmin _ | .vredmax _ | .vscan _ => true
  | _ => false

/-- An instruction goes into flight: it captures its scalars and controls (R46), the pc moves on, and its window opens
(R41). -/
def Hart.launch (t : Hart) (i : Instr) (l : Nat) (windowed : Bool) (xa xb : Word) : Hart :=
  let f : Flight :=
    { id := t.nextId, instr := i, pc := t.pc, xa := xa, xb := xb, vl := t.vl.toNat, vpad := t.vpad.toNat,
      vtype := t.vtype, vstride := t.vstride, seed := t.vsrng, idx := 0, sub := 0,
      carry := if Instr.carries i then some [] else none, desc := [], pages := [], probed := false, probeTrap := none }
  let u := f.uses
  let w : List Window :=
    if windowed then [{ id := t.nextId, left := l, reads := u.reads.filter RegName.isVd, writes := u.writes, masked := u.masked }]
    else []
  let t1 := t.complete 4
  { t1 with nextId := t.nextId + 1, chain := t.chain ++ [f], windows := t1.windows ++ w }

/-- What one move of a flight did. -/
inductive Move where
  /-- it goes on -/
  | more (f : Flight) (s : State)
  /-- it has completed -/
  | over (s : State)
  /-- it takes a trap at the element it stands at -/
  | trap (t : Trap) (f : Flight) (s : State)
  /-- it cannot move now -/
  | wait (s : State)

/-- The flight launched last holds translations made at issue (R185, R187). -/
def Hart.holdPages (t : Hart) (pages : List TlbEntry) : Hart :=
  { t with chain := t.chain.map (fun g => if g.id + 1 = t.nextId then { g with pages := pages } else g) }

/-- Whether a shadow helper has retired since a state (R437). -/
def State.retiredSince (s before : State) : Bool := before.me.task.isSome && s.me.task.isNone

/-- Replaces the flight of the same number in the chain. -/
def Hart.setFlight (t : Hart) (f : Flight) : Hart :=
  { t with chain := t.chain.map (fun g => if g.id = f.id then f else g) }

/-- Removes a flight from the chain. -/
def Hart.endFlight (t : Hart) (id : Nat) : Hart := { t with chain := t.chain.filter (fun g => g.id != id) }

/-- The window of a flight that has completed ends with it where issued work is left in flight (R42; log 8). -/
def Hart.endWindow (t : Hart) (hold : Bool) (id : Nat) : Hart :=
  if hold then { t with windows := t.windows.filter (fun w => w.id != id) } else t

/-- The elements of a flight's restart index that one record of its instruction takes. -/
def Flight.stride (f : Flight) : Nat :=
  match f.instr with
  | .gfeat .. => 4
  | .xbox .. | .tgrad .. | .tfetch .. => 8
  | .xtri .. => 16
  | _ => 1

/-- A flight that may not stop at the element g stands at, since its group has begun: what it has done of the group is kept
(R45). -/
def Flight.keep (f g : Flight) : Flight := if g.idx = f.idx then g else { g with idx := f.idx, sub := (g.idx - f.idx) / f.stride }

/-- The state after a move of a flight of the executing hardware context (R45, R49). -/
def State.moved (s : State) (id : Nat) (m : Move) : State :=
  match m with
  | .more f s => s.onMe (fun t => t.setFlight f)
  | .over s => s.onMe (fun t => (t.endFlight id).endWindow s.hold id)
  | .trap t f s => (s.onMe (fun t => t.setFlight f)).takeAt t f.pc
  | .wait s => s

/-- Runs a flight to its end, its trap, or a wait; `fuel` bounds its moves. -/
def State.runFlight (mv : Flight → State → Move) (s : State) (id : Nat) : Nat → State
  | 0 => s
  | fuel + 1 =>
    match s.me.chain.find? (fun f => f.id == id) with
    | none => s
    | some f =>
      match mv f s with
      | .more f' s' => (s'.onMe (fun t => t.setFlight f')).runFlight mv id fuel
      | m => s.moved id m

/-- An instruction of R47 issues: into the chain, and through to its end at once unless issued work is left in flight
(log 7). `moves` bounds its moves; `also` is what else changes at issue. -/
def State.fly (s : State) (i : Instr) (l : Nat) (windowed : Bool) (xa xb : Word) (moves : Nat)
    (mv : Flight → State → Move) (also : Hart → Hart := id) : Out :=
  if s.hold then
    if s.me.chain.length < 4 then .next (s.onMe (fun t => also (t.launch i l windowed xa xb))) else s.stall
  else
    s.unchained (fun s =>
      let id := s.me.nextId
      .next ((s.onMe (fun t => also (t.launch i l windowed xa xb))).runFlight mv id moves))

/-- R49, R186: a fault that an instruction of R47 meets before its first element: it is taken with SIDX = 0. -/
def State.trapFirst (s : State) (i : Instr) (xa xb : Word) (t : Trap) : Out :=
  s.drained (fun s =>
    let pc := s.me.pc
    .next ((s.onMe (fun h => h.launch i 0 false xa xb)).takeAt t pc))

/-- R41, R97: the window of a long-latency instruction that is carried out at issue: it counts as in flight until L
instructions have issued, or one of them waits for it (log 8). Where issued work is left in flight it has completed. -/
def Hart.openWindow (t : Hart) (hold : Bool) (l : Nat) (reads writes : List RegName) : Hart :=
  if hold || l == 0 then t
  else
    { t with nextId := t.nextId + 1,
             windows := t.windows ++ [{ id := t.nextId, left := l, reads := reads.filter RegName.isVd, writes := writes, masked := false }] }

/-- A long-latency instruction of the LX or TX format that is carried out at issue completes, and its window opens. -/
def State.doneLong (s : State) (l : BitVec 4) (reads writes : List RegName) : Out :=
  .next (s.onMe (fun t => (t.complete 4).openWindow s.hold l.toNat reads writes))

/-- An instruction that completes at issue with a result. -/
def State.doneWith (s : State) (d : Reg) (v : Word) : Out := (s.setX d v).done 4

/-- A long-latency instruction that completes at issue with a result. -/
def State.doneWithLong (s : State) (l : BitVec 4) (d : Reg) (v : Word) : Out := (s.setX d v).doneLong l [] (xs [d])

end Sys2Proof.Machine
end

