-- ==== Sys2Proof/Machine/Fetch.lean ====
section
/-! DEFINITION. Fetching and decoding an instruction (R81, R82, R118), and choosing what issues next (R271, R290, R311). -/

namespace Sys2Proof.Machine

/-- R438: a line of a core's instruction cache met: one that cannot be corrected is discarded, and fetched again. -/
def State.meetFetch (s : State) (c ln : Nat) : State :=
  if (s.badCore ++ s.soft).isEmpty then s
  else
    let s1 := if s.badCore.contains (.icache c ln) then
        s.onCore c (fun k => { k with icache := k.icache.filter (fun e => e.1 != ln) })
      else s
    s1.meetCopy c (CoreCell.isFetch c ln)

/-- The line of a core's instruction cache, or the line as the die's memory gives it, which then enters the cache; the
oldest leaves a full one (R118; log 11, log 12). -/
def State.fetchLine (s : State) (c ln : Nat) : Line × State :=
  let s := s.meetFetch c ln
  match (s.core c).icache.find? (fun e => e.1 == ln) with
  | some e => (e.2, s)
  | none =>
    let r := s.readPhys (dieOf c) (s.core c).ptick .once (s.accTag c) (ln * 128) 128
    let v := lineOf r.1
    (v, r.2.2.onCore c (fun k => { k with icache := ((ln, v) :: k.icache).take Config.icacheLines }))

/-- Fetches the parcel at an address (R82). A fetch that consumes uncorrectable data is a machine check (R439). -/
def State.fetchParcel (s : State) (va : Word) : Acc (List Byte) :=
  let t := s.me
  let p : Priv := { mode := t.mode, sum := t.mstatus.getLsbD stSUM, mxr := t.mstatus.getLsbD stMXR }
  (s.translate s.cur.core p .fetch va 2 none).bind (fun pl s =>
    match pl with
    | .mem pa _ _ =>
      if s.isBad pa then .fail 19 (BitVec.ofNat 64 (pa / 128 * 128)) s
      else
        let r := s.fetchLine s.cur.core (pa / 128)
        .ok (lineRead r.1 (pa % 128) 2) r.2
    | _ => .fail 1 va s)

/-- Fetches the instruction at the pc: one parcel, or the first two (R81, R82). -/
def State.fetch (s : State) : Acc (List Byte) :=
  let pc := s.pc
  (s.fetchParcel pc).bind (fun a s =>
    if (a.getD 0 0).extractLsb' 0 2 = 3 then (s.fetchParcel (pc + 2)).bind (fun b s => .ok (a ++ b) s)
    else .ok a s)

/-- The bits of fetched bytes, as xtval shows them (R82). -/
def fetchedBits (bs : List Byte) : BitVec 32 := BitVec.ofNat 32 (natLE bs)

/-- Fetches and decodes the next instruction; bytes that decode to nothing are an illegal instruction (R101). The
machine holds the instruction's bits while it executes. -/
def State.nextInstr (s : State) : Acc Instr :=
  s.fetch.bind (fun bs s =>
    match decode bs with
    | .ok d => .ok d.instr { s with ir := d.bits }
    | .error _ => .ok .illegalInstruction { s with ir := fetchedBits bs })

/-! Selection. -/

/-- Whether the control context of a core may issue: on a core that serves a context or a die manager core, unless it
has stopped or was found waiting at issue in this slot (R311). -/
def State.controlReady (s : State) (c : Nat) : Bool :=
  !(s.hart { core := c, h := 0 }).stopped && !s.tried.contains { core := c, h := 0 }

/-- Whether a helper may issue: it is live, has not stopped, and was not found waiting at issue in this slot (R311). -/
def State.helperReady (s : State) (c h : Nat) : Bool :=
  let t := s.hart { core := c, h := h }
  t.live && !t.stopped && !s.tried.contains { core := c, h := h }

/-- The helpers of a core in hidx order after one of them, wrapping from 10 to 1 (R311). -/
def helpersAfter (l : Nat) : List Nat := (List.range 10).map (fun j => (l + j) % 10 + 1)

/-- R311, R312: the hardware context of a core that issues next. A helper that hyield has passed over comes when no other
hardware context of the core is ready (R271). -/
def State.selectHart (s : State) (c : Nat) : Option Nat :=
  let order := helpersAfter (s.img c).lastHelper
  let free (h : Nat) : Bool := (s.hart { core := c, h := h }).yield.isNone
  if s.cc % 11 = 0 ∧ s.controlReady c then some 0
  else
    match order.find? (fun h => s.helperReady c h && free h) with
    | some h => some h
    | none => if s.controlReady c then some 0 else order.find? (fun h => s.helperReady c h)

/-- R271: a hardware context has issued, or is not ready: those that wait for it by hyield stop waiting for it. -/
def Hart.sawIssue (t : Hart) (h : Nat) : Hart :=
  match t.yield with
  | some (l, n) =>
    let l' := l.filter (fun g => g != h)
    { t with yield := if l'.isEmpty then none else some (l', n) }
  | none => t

/-- The hardware contexts of a core that have executed hyield see that one has issued, or is not ready (R271). -/
def Img.seen (m : Img) (h : Nat) : Img :=
  { m with harts := if m.harts.any (fun e => e.2.yield.isSome) then Tab.mapVal m.harts (fun _ t => t.sawIssue h) else m.harts }

/-- A hardware context of a core has issued: those that hyield for it see it, and a helper is the last that did (R271,
R311). -/
def State.noteIssue (s : State) (i : HartId) : State :=
  s.onImg i.core (fun m => { (m.seen i.h) with lastHelper := if i.h = 0 then m.lastHelper else i.h })

/-- The issue slot of a core in this cycle is over, and the next core's comes; after the last one's the cycle ends (R311; log
6). -/
def State.passSlot (s : State) (c : Nat) : State :=
  if s.running.head? = some c then
    { s with running := s.running.tail ++ [c], slot := s.slot - 1, tried := [] }
  else { s with tried := [] }

/-- What an issue slot left: a hardware context that stands where it stood was waiting at issue, and another of its core is
tried (R311); otherwise it has issued. -/
def State.settle (s : State) (i : HartId) (before : Hart) : State :=
  let t := s.hart i
  if t.pc = before.pc ∧ t.minstret = before.minstret ∧ t.live = before.live ∧ !t.stopped then
    { (s.onImg i.core (fun m => m.seen i.h)) with tried := i :: s.tried }
  else (s.noteIssue i).passSlot i.core

/-! Interrupts. -/

/-- The bits of sip as they stand: QIP follows the queues (R290). -/
def State.pendingBits (s : State) (c : Nat) : Word :=
  setBit (s.img c).mip 16 (decide ((s.img c).taken.length < 4) && s.queueReady c)

/-- R290: the interrupt that the control context of a core takes next, if it takes one. -/
def State.dueInterrupt (s : State) (c : Nat) : Option Nat :=
  let t := s.hart { core := c, h := 0 }
  let on := (s.img c).mie
  if (s.core c).serving.isNone ∨ t.stopped ∨ !t.mstatus.getLsbD stSIE then none
  else
    if on.getLsbD 17 && (s.img c).mip.getLsbD 17 then some 17
    else if on.getLsbD 16 && (s.pendingBits c).getLsbD 16 then some 16
    else if on.getLsbD 1 && (s.img c).mip.getLsbD 1 then some 1
    else none

end Sys2Proof.Machine
end

