-- ==== Sys2Proof/Machine/Control.lean ====
section
/-! DEFINITION. Accesses of engines and of firmware (R336, R339, R374, R392), completion records (R376, R448), and the
control window by which a runtime submits commands (R374, R375). -/

namespace Sys2Proof

/-- n bytes of a command record from an offset of at least 16 (R374). -/
def Cmd.arg (c : Cmd) (off n : Nat) : Nat := c.args.toNat >>> (8 * (off - 16)) % 2 ^ (8 * n)

/-- The first byte of a command record, in a range, that is not zero. -/
def Cmd.nonzero (c : Cmd) (off n : Nat) : Option Nat :=
  (List.range n).findSome? (fun j => if c.arg (off + j) 1 = 0 then none else some (off + j))

end Sys2Proof

namespace Sys2Proof.Machine

/-- The privilege that an engine's accesses are checked under: R and W of the leaf alone (log 22). -/
def enginePriv : Priv := { mode := .s, sum := true, mxr := false }

/-- R336, R392: the place of an engine's access of one line in a context's address space, outside the windows; none
where it cannot be serviced. -/
def State.enginePlace (s : State) (tag : Nat) (kind : AccKind) (va : Word) : Option Place :=
  let a := va.toNat
  if 2 ^ 56 ≤ a ∨ inWindows a then none
  else
    match (s.ctx tag).bind (fun c => c.leafOf a) with
    | some l =>
      if leafRefuses l.pte l.size kind enginePriv then none
      else
        let pa := leafPlace l.pte l.size a
        if paOk pa then some (.mem pa (l.pte.getLsbD 9 && isDevice pa) (l.pte.getLsbD 5)) else none
    | none => none

/-- The pieces of an address range that lie in one line each; `fuel` bounds the pieces. -/
def linePieces (va : Nat) : Nat → Nat → List (Nat × Nat)
  | 0, _ => []
  | _, 0 => []
  | fuel + 1, n =>
    let k := min n (128 - va % 128)
    (va, k) :: linePieces (va + k) fuel (n - k)

/-- The pieces of a range of n bytes. -/
def pieces (va n : Nat) : List (Nat × Nat) := linePieces va (n / 128 + 2) n

/-- R336: an engine's read of a range, by an agent of die q at a tick: its bytes, its tick after it, and the state; none
where it cannot be serviced. Uncorrectable data that it meets faults the context (R440). -/
def State.engineRead (s : State) (q tag : Nat) (p : Tick) (va n : Nat) : Option (List Byte × Tick × State) :=
  (pieces va n).foldl (fun a e =>
    match a with
    | none => none
    | some (bs, p, s) =>
      match s.enginePlace tag .load (BitVec.ofNat 64 e.1) with
      | some (.mem pa _ g) =>
        if s.isBad pa then
          some (bs ++ List.replicate e.2 0, p,
            s.post (.contextFault tag 2 q 0xFFFFF (BitVec.ofNat 64 (pa / 128 * 128))))
        else
          let r := s.readPhys q p .once (if g then 0 else tag) pa e.2
          some (bs ++ r.1, r.2.1, r.2.2)
      | _ => none) (some ([], p, s))

/-- R336: an engine's write of a range: every piece is written through. -/
def State.engineWrite (s : State) (q tag : Nat) (p : Tick) (va : Nat) (data : List Byte) : Option (Tick × State) :=
  (pieces va data.length).foldl (fun a e =>
    match a with
    | none => none
    | some (p, s) =>
      match s.enginePlace tag .store (BitVec.ofNat 64 e.1) with
      | some (.mem pa sh g) =>
        let r := s.writePhys q p (if sh then .home else .through) (if g then 0 else tag) pa
          ((data.drop (e.1 - va)).take e.2)
        some (r.1, r.2.clearResv none (.phys (pa / 128 * 128)))
      | _ => none) (some (p, s))

/-- A write of firmware at physical addresses and at a tick, at the home or at the host-line cache (R336, R338). -/
def State.physWriteAt (s : State) (q : Nat) (p : Tick) (pa : Nat) (data : List Byte) : State :=
  (pieces pa data.length).foldl (fun s e =>
    if paOk e.1 then
      ((s.writePhys q p .home 0 e.1 ((data.drop (e.1 - pa)).take e.2)).2).clearResv none (.phys (e.1 / 128 * 128))
    else s) s

/-- A write of firmware at physical addresses. -/
def State.physWrite (s : State) (q : Nat) (pa : Nat) (data : List Byte) : State := s.physWriteAt q s.horizon pa data

/-- A read of firmware at physical addresses; none where an address does not exist (R374). -/
def State.physRead (s : State) (q : Nat) (pa n : Nat) : Option (List Byte × State) :=
  (pieces pa n).foldl (fun a e =>
    match a with
    | none => none
    | some (bs, s) =>
      if paOk e.1 then
        let s1 := s.recall (e.1 / 128)
        let r := s1.readPhys q s1.horizon .once 0 e.1 e.2
        some (bs ++ r.1, r.2.2)
      else none) (some ([], s))

/-! Completion records. -/

/-- The 32 bytes of a completion record (R376). -/
def Completion.bytes (c : Completion) : List Byte :=
  bytesLE 8 c.seq.toNat ++ bytesLE 2 c.cmd ++ bytesLE 2 c.tag ++ bytesLE 4 c.status ++ bytesLE 8 c.value.toNat
    ++ bytesLE 8 c.detail.toNat

/-- The physical address of a host address (R314, R443). -/
def hostPa (a : Nat) : Nat := 2 ^ 55 + a % 2 ^ 55

/-- Whether the completion ring takes a record (R448); during RESYNC nothing is posted (R450). -/
def Mgmt.ringOpen (m : Mgmt) : Bool :=
  m.qen && !m.rsb && decide ((m.cplqTail - m.cplqHead).toNat < m.cplqSize.toNat)

/-- Posts a record to the completion ring (R448), which raises MSI-X vector 0 (R443). -/
def State.postRecord (s : State) (c : Completion) : State :=
  let m := s.mgmt
  let at' := hostPa (m.cplqBase.toNat + 32 * (m.cplqTail.toNat % m.cplqSize.toNat))
  { (s.physWrite 0 at' c.bytes) with mgmt := { m with cplqTail := m.cplqTail + 1, msix := m.msix + 1 } }

/-- A record posted, or kept until the ring takes it (R448). -/
def State.complete (s : State) (c : Completion) : State :=
  if s.mgmt.waiting.isEmpty && s.mgmt.ringOpen then s.postRecord c
  else { s with mgmt := { s.mgmt with waiting := s.mgmt.waiting ++ [c] } }

/-- R448: records and events that wait are posted in order while the ring takes them, one at a time. -/
def State.pumpRing (s : State) : State :=
  if s.mgmt.ringOpen then
    match s.mgmt.waiting with
    | c :: l => ({ s with mgmt := { s.mgmt with waiting := l } } : State).postRecord c
    | [] =>
      match s.mgmt.events with
      | c :: l => ({ s with mgmt := { s.mgmt with events := l } } : State).postRecord c
      | [] => s
  else s

/-! The answer to a command. -/

/-- OK. -/
def stOK : Nat := 0
/-- BUSY. -/
def stBUSY : Nat := 1
/-- BAD_FIELD. -/
def stBAD : Nat := 2
/-- NO_MEMORY. -/
def stNOMEM : Nat := 3
/-- NO_TAG. -/
def stNOTAG : Nat := 4
/-- NOT_PERMITTED. -/
def stNOTPERM : Nat := 5
/-- IN_USE. -/
def stINUSE : Nat := 6
/-- FATAL. -/
def stFATAL : Nat := 7
/-- NO_CONTEXT. -/
def stNOCTX : Nat := 8

/-- R375, R376: the answer to a command: a completion record to the host, or the reply dword, an engine write that is
dropped where the page can no longer be written. `code` is the command's. -/
def State.answer (s : State) (c : Cmd) (code status : Nat) (value detail : Word) : State :=
  match c.path with
  | .host => s.complete { seq := c.seq, cmd := code, tag := c.tag, status := status, value := value, detail := detail }
  | .window =>
    let q := dieOf c.src.core
    match (s.flush c.src.core).state.engineWrite q c.tag (s.core c.src.core).ptick c.seq.toNat
        (bytesLE 8 (2 ^ 63 + status)) with
    | some (_, s1) => s1
    | none => s

/-- The detail of BAD_FIELD: a byte offset in the record (0) or a block (R376). -/
def badAt (block off : Nat) : Word := BitVec.ofNat 64 (block * 2 ^ 32 + off)

/-- A command refused for a field. -/
def State.badField (s : State) (c : Cmd) (code block off : Nat) : State := s.answer c code stBAD 0 (badAt block off)

/-! Reading a command. -/

/-- The event of a command code, or none where no command has it (R377). -/
def commandEvent (code : Nat) (c : Cmd) : Option Event :=
  match code with
  | 0x01 => some (.create c)
  | 0x02 => some (.destroy c)
  | 0x03 => some (.launch c)
  | 0x05 => some (.setsched c)
  | 0x08 => some (.openPass c)
  | 0x09 => some (.closePass c)
  | 0x0A => some (.allocDomain c)
  | 0x0B => some (.freeDomain c)
  | 0x0C => some (.allocGroup c)
  | 0x0D => some (.freeGroup c)
  | 0x10 => some (.map c)
  | 0x11 => some (.unmap c)
  | 0x12 => some (.protect c)
  | 0x13 => some (.page c)
  | 0x14 => some (.notify c)
  | 0x20 => some (.templateMake c)
  | 0x21 => some (.templateDrop c)
  | 0x30 => some (.attest c)
  | 0x31 => some (.fwStage c)
  | 0x32 => some (.lifecycle c)
  | _ => none

/-- The command that a step of the agenda performs, if it performs one. -/
def stepCmd : Event → Option Cmd
  | .create c | .destroy c | .launch c | .setsched c | .openPass c | .closePass c | .allocDomain c | .freeDomain c
  | .allocGroup c | .freeGroup c | .map c | .unmap c | .protect c | .page c | .notify c | .templateMake c
  | .templateDrop c | .attest c | .fwStage c | .lifecycle c => some c
  | _ => none

/-- Whether a step of the agenda performs a command of the host. -/
def hostStep (e : Event) : Bool :=
  match stepCmd e with
  | some c => decide (c.path = .host)
  | none => false

/-- What a command touches (R378): a range of pages, a domain, a pass or a group. -/
inductive Touched where
  | pages (va n : Nat)
  | domain (scope dom inst : Nat)
  | pass (n : Nat)
  | group (n : Nat)
  | nothing
deriving DecidableEq, Repr

/-- R378: what the command of a step touches; PAGE touches the page that holds its address. -/
def Ctx.touches (x : Ctx) : Event → Touched
  | .map c | .unmap c | .protect c => .pages (c.arg 16 8) (c.arg 24 8)
  | .page c =>
    match x.leafOf (c.arg 16 8) with
    | some l => .pages l.va l.size
    | none => .pages (c.arg 16 8 / 4096 * 4096) 4096
  | .allocDomain c | .freeDomain c => .domain (c.arg 16 1) (c.arg 17 1) (c.arg 24 8)
  | .openPass c | .closePass c => .pass (c.arg 16 8)
  | .allocGroup c => .group (c.arg 16 4)
  | .freeGroup c => .group (c.arg 16 8)
  | _ => .nothing

/-- Whether two commands touch the same page, domain, pass or group. -/
def Touched.meets : Touched → Touched → Bool
  | .pages a n, .pages b m => decide (a < b + m) && decide (b < a + n)
  | .nothing, _ => false
  | a, b => a == b

/-- R378: whether a command of a context is performed after an earlier one of it: both are the host's, both one hardware
context's, or they touch the same thing. -/
def Ctx.follows (x : Ctx) (earlier later : Event) : Bool :=
  match stepCmd earlier, stepCmd later with
  | some a, some b =>
    a.tag == b.tag &&
      ((a.path == b.path && (decide (b.path = .host) || a.src == b.src)) || (x.touches earlier).meets (x.touches later))
  | _, _ => false

/-- R378, R408: whether a command waits: behind one that it follows and that has been read and not performed, or, for the host,
behind the delivery of a launch of its context (log 35). -/
def State.mustDefer (s : State) (c : Cmd) (code : Nat) (e : Event) : Bool :=
  match s.ctx c.tag with
  | some x =>
    decide (code ≠ 0x02) &&
      ((x.deferred ++ s.agenda).any (fun w => x.follows w e)
        || (decide (c.path = .host) && x.launches.any (fun l => l.2.pendingCmd.isSome)))
  | none => false

/-- R185, R393: what has still to wait for accesses of its context to complete stands first again among those that wait: nothing
that comes after it in order has moved (R378). -/
def State.defer (s : State) (tag : Nat) (e : Event) : State := s.onCtx tag (fun x => { x with deferred := e :: x.deferred })

/-- R377, R447: the life-cycle states in which the commands of contexts are accepted: Provisioned and Deployed. -/
def State.inService (s : State) : Bool := s.mgmt.lcs == 1 || s.mgmt.lcs == 2

/-- R451: the sequence number of the last host command read; a RESYNC performs every command read before it tells it. -/
def State.noteSeq (s : State) (path : CmdPath) (seq : Word) : State :=
  match path with
  | .host => { s with mgmt := { s.mgmt with lastSeq := seq } }
  | .window => s

/-- R452: every LIFECYCLE, accepted or refused, clears the challenge; this is one that is refused as it is read. -/
def State.spendChallenge (s : State) (code : Nat) : State := if code = 0x32 then { s with challenge := none } else s

/-- R374: a command record that the firmware has read moves next; one that the life-cycle state does not accept (R447),
reserved bytes, a window record's tag and an unknown code are refused at once. -/
def State.takeCommand (s0 : State) (path : CmdPath) (tag : Nat) (bs : List Byte) (src : HartId) (sstatus : Word) : State :=
  let code := at_ bs 0 2
  let c : Cmd :=
    { path := path, tag := tag, seq := BitVec.ofNat 64 (at_ bs 8 8), args := BitVec.ofNat 384 (at_ bs 16 48), src := src,
      sstatus := sstatus }
  let s := s0.noteSeq path c.seq
  if !s.inService ∧ code ≠ 0x30 ∧ code ≠ 0x32 then s.answer c code stNOTPERM 0 0
  else
  match (if path = .window then nonzeroIn bs 2 2 else none) with
  | some _ => (s.spendChallenge code).badField c code 0 2
  | none =>
    match nonzeroIn bs 4 4 with
    | some o => (s.spendChallenge code).badField c code 0 o
    | none =>
      match commandEvent code c with
      | some e =>
        if s.mustDefer c code e then s.onCtx tag (fun x => { x with deferred := x.deferred ++ [e] }) else s.post e
      | none => s.answer c code stNOTPERM 0 0

/-- The control window (R375, R383). -/
def controlWindow : Word := 0x00FFFFF000800000#64

/-- R375: whether the reply address of a window command is a dword of mapped, writable device or host memory. A page that is
still to be backed, or to be copied on write, is no writable memory yet (log 79). -/
def State.replyOk (s : State) (tag : Nat) (va : Nat) : Bool :=
  va % 8 == 0 && (s.enginePlace tag .store (BitVec.ofNat 64 va)).isSome

/-- R375: an sd to the control window submits the record whose address it stores. -/
def State.submitCommand (s : State) (record : Word) : Acc Unit :=
  match s.tagOf s.cur.core with
  | none => .fail 7 controlWindow s
  | some tag =>
    if s.me.mode = .u ∨ record.toNat % 64 ≠ 0 then .fail 7 controlWindow s
    else
      match Acc.list (fun j s => s.read (record + BitVec.ofNat 64 (8 * j)) 8) (List.range 8) s with
      | .ok l s1 =>
        let bs := l.flatten
        if s1.replyOk tag (at_ bs 8 8) then
          (s1.flush s1.cur.core).bind (fun _ s2 =>
            .ok () (s2.takeCommand .window tag bs s2.cur s2.me.readSstatus))
        else .fail 7 controlWindow s1
      | .trap t s1 => if t.cause = 19 then .trap t s1 else .fail 7 controlWindow s1
      | .wait s1 => .wait s1

end Sys2Proof.Machine
end

