-- ==== Sys2Proof/Machine/Scalar.lean ====
section
/-! DEFINITION. The base integer set (R116, R117): one meaning per instruction over the shared forms. A length is the
instruction's in bytes: a compressed instruction behaves as its expansion (R86). -/

namespace Sys2Proof.Machine

/-- R85: a hint reads nothing for ordering and changes nothing. -/
def State.nop (s : State) (len : Nat) : Out := s.base [] [] (fun s => s.done len)

/-- An instruction that computes x[d] from registers; with d = x0 it is a hint (R85). -/
def State.compute (s : State) (len : Nat) (d : Reg) (src : List Reg) (v : State → Word) : Out :=
  if d = 0 then s.nop len else s.base src [d] (fun s => (s.setX d (v s)).done len)

/-- A branch (R116). -/
def State.branch (s : State) (len : Nat) (a b : Reg) (off : Word) (c : Word → Word → Bool) : Out :=
  s.base [a, b] [] (fun s => if c (s.x a) (s.x b) then s.jump (s.pc + off) else s.done len)

/-- A jump that links rd (R117). -/
def State.link (s : State) (len : Nat) (d : Reg) (src : List Reg) (target : State → Word) : Out :=
  s.base src [d] (fun s =>
    let t := target s
    (s.setX d (s.pc + BitVec.ofNat 64 len)).jump t)

/-- A jump's target in a register: bit 0 is cleared (R117). -/
def evenOf (w : Word) : Word := w &&& ~~~1#64

/-- An instruction in flight that accesses memory (R128). -/
def Flight.isMemory (f : Flight) : Bool :=
  match f.instr with
  | .vld .. | .vldSt .. | .vldIx .. | .vst .. | .vstSt .. | .vstIx .. => true
  | .vamoadd _ | .vamomin _ | .vamomax _ | .vamoswap _ => true
  | .dld .. | .dst .. | .tfetch .. | .gfeat .. => true
  | .zcommit .. => f.desc.isEmpty
  | _ => false

/-- R181, R320: a scalar access follows every access of the vector and LX instructions in flight; the model never
overtakes where R181 lets it (log 7). -/
def State.inOrder (s : State) (k : State → Out) : Out := if s.me.chain.any Flight.isMemory then s.stall else k s

/-- R211: waits for the matrix commands that the hardware context issued; the unit's next command moves first. -/
def State.matrixDone (s : State) (k : State → Out) : Out :=
  if (s.img s.cur.core).mq.any (fun c => c.h == s.cur.h) then .next (s.post (.matrixCommandExecute s.cur.core)) else k s

/-- The ray of a hardware context whose traversal has reads still to make (R128, R259): one that runs, or goes on after a
verdict. -/
def Hart.rayReading (t : Hart) : Option Nat :=
  (t.rays.find? (fun e => e.2.phase == .running || e.2.phase == .verdict)).map Prod.fst

/-- Waits until every access that the instructions of the hardware context have made has been performed, those of matrix
commands among them (R211). -/
def State.madeDone (s : State) (k : State → Out) : Out :=
  if s.me.chain.any Flight.isMemory then s.stall else s.matrixDone k

/-- Waits until every earlier access of the hardware context has been performed (R128), the reads of its rays among them
(R259); the traversal that has reads to make moves first. -/
def State.accessesDone (s : State) (k : State → Out) : Out :=
  s.madeDone (fun s =>
    match s.me.rayReading with
    | some slot => .next (s.post (.rayTraversal s.cur slot))
    | none => k s)

/-- A release at .die scope of what the instructions of the hardware context have accessed: it is performed (R127, R320). -/
def State.madeReleased (s : State) (k : State → Out) : Out :=
  s.madeDone (fun s => (s.flush s.cur.core).run (fun _ s => k s))

/-- A release at .die scope (R127, R320): every access that the hardware context made before is performed. -/
def State.released (s : State) (k : State → Out) : Out :=
  s.accessesDone (fun s => (s.flush s.cur.core).run (fun _ s => k s))

/-- A scalar load of n bytes from x[a] + off (R117); a load to x0 performs its access. -/
def State.loadReg (s : State) (len : Nat) (d a : Reg) (off : Word) (n : Nat) (signed : Bool) : Out :=
  s.base [a] [d] (fun s => s.inOrder (fun s =>
    (s.read (s.x a + off) n).run (fun bs s => (s.setX d (extend signed bs)).done len)))

/-- A scalar store of the low n bytes of x[b] to x[a] + off (R117). -/
def State.storeReg (s : State) (len : Nat) (a b : Reg) (off : Word) (n : Nat) : Out :=
  s.base [a, b] [] (fun s => s.inOrder (fun s =>
    (s.write (s.x a + off) (lowBytes n (s.x b))).run (fun _ s => s.done len)))

/-- A dword store; one to the control window is a release at .die scope and submits a command (R375). A shadow's is
not performed (R437). -/
def State.storeDword (s : State) (len : Nat) (a b : Reg) (off : Word) : Out :=
  if s.x a + off = controlWindow ∧ (s.tagOf s.cur.core).isSome then
    s.base [a, b] [] (fun s => s.released (fun s =>
      let folded (s : State) : State := s.foldStore controlWindow (lowBytes 8 (s.x b))
      if s.isShadow && s.me.mode != .u then (folded s).done len
      else (s.submitCommand (s.x b)).run (fun _ s => (folded s).done len)))
  else s.storeReg len a b off 8

/-- A word result, sign-extended. -/
def sext32 (w : Word) : Word := (w.setWidth 32).signExtend 64

/-- A 32-bit operation on the low words. -/
def onWords (f : BitVec 32 → BitVec 32 → BitVec 32) (a b : Word) : Word := (f (a.setWidth 32) (b.setWidth 32)).signExtend 64

/-- 1 or 0. -/
def boolWord (b : Bool) : Word := if b then 1 else 0

/-- R117: signed division: all ones by zero, the dividend on overflow. -/
def divS {w : Nat} (a b : BitVec w) : BitVec w := if b = 0 then BitVec.allOnes w else a.sdiv b

/-- R117: signed remainder: the dividend by zero, zero on overflow. -/
def remS {w : Nat} (a b : BitVec w) : BitVec w := if b = 0 then a else a.srem b

/-- R117: unsigned division: all ones by zero. -/
def divU {w : Nat} (a b : BitVec w) : BitVec w := if b = 0 then BitVec.allOnes w else a / b

/-- R117: unsigned remainder: the dividend by zero. -/
def remU {w : Nat} (a b : BitVec w) : BitVec w := if b = 0 then a else a % b

/-- The high half of a product of integers. -/
def mulHigh (x y : Int) : Word := BitVec.ofInt 64 (x * y / 2 ^ 64)

/-- The low 6 bits of a register, as a shift amount. -/
def shamt (w : Word) : Nat := w.toNat % 64

/-- The low 5 bits of a register, as a shift amount. -/
def shamtW (w : Word) : Nat := w.toNat % 32

/-- LUI (R116). -/
def execLui (d : Reg) (i : BitVec 20) (s : State) : Out := s.compute 4 d [] (fun _ => immUpper i)

/-- AUIPC (R116). -/
def execAuipc (d : Reg) (i : BitVec 20) (s : State) : Out := s.compute 4 d [] (fun s => s.pc + immUpper i)

/-- JAL (R116). -/
def execJal (d : Reg) (off : BitVec 20) (s : State) : Out := s.link 4 d [] (fun s => s.pc + immJump off)

/-- JALR (R116, R117). -/
def execJalr (d a : Reg) (i : BitVec 12) (s : State) : Out := s.link 4 d [a] (fun s => evenOf (s.x a + imm12 i))

/-- BEQ (R116). -/
def execBeq (a b : Reg) (off : BitVec 12) (s : State) : Out := s.branch 4 a b (immBranch off) (fun x y => x == y)

/-- BNE (R116). -/
def execBne (a b : Reg) (off : BitVec 12) (s : State) : Out := s.branch 4 a b (immBranch off) (fun x y => x != y)

/-- BLT (R116). -/
def execBlt (a b : Reg) (off : BitVec 12) (s : State) : Out := s.branch 4 a b (immBranch off) (fun x y => x.slt y)

/-- BGE (R116). -/
def execBge (a b : Reg) (off : BitVec 12) (s : State) : Out := s.branch 4 a b (immBranch off) (fun x y => !x.slt y)

/-- BLTU (R116). -/
def execBltu (a b : Reg) (off : BitVec 12) (s : State) : Out := s.branch 4 a b (immBranch off) (fun x y => x.ult y)

/-- BGEU (R116). -/
def execBgeu (a b : Reg) (off : BitVec 12) (s : State) : Out := s.branch 4 a b (immBranch off) (fun x y => !x.ult y)

/-- LB (R116, R117). -/
def execLb (d a : Reg) (i : BitVec 12) (s : State) : Out := s.loadReg 4 d a (imm12 i) 1 true

/-- LH (R116, R117). -/
def execLh (d a : Reg) (i : BitVec 12) (s : State) : Out := s.loadReg 4 d a (imm12 i) 2 true

/-- LW (R116, R117). -/
def execLw (d a : Reg) (i : BitVec 12) (s : State) : Out := s.loadReg 4 d a (imm12 i) 4 true

/-- LD (R116, R117). -/
def execLd (d a : Reg) (i : BitVec 12) (s : State) : Out := s.loadReg 4 d a (imm12 i) 8 true

/-- LBU (R116, R117). -/
def execLbu (d a : Reg) (i : BitVec 12) (s : State) : Out := s.loadReg 4 d a (imm12 i) 1 false

/-- LHU (R116, R117). -/
def execLhu (d a : Reg) (i : BitVec 12) (s : State) : Out := s.loadReg 4 d a (imm12 i) 2 false

/-- LWU (R116, R117). -/
def execLwu (d a : Reg) (i : BitVec 12) (s : State) : Out := s.loadReg 4 d a (imm12 i) 4 false

/-- SB (R116, R117). -/
def execSb (a b : Reg) (i : BitVec 12) (s : State) : Out := s.storeReg 4 a b (imm12 i) 1

/-- SH (R116, R117). -/
def execSh (a b : Reg) (i : BitVec 12) (s : State) : Out := s.storeReg 4 a b (imm12 i) 2

/-- SW (R116, R117). -/
def execSw (a b : Reg) (i : BitVec 12) (s : State) : Out := s.storeReg 4 a b (imm12 i) 4

/-- SD (R116, R117, R375). -/
def execSd (a b : Reg) (i : BitVec 12) (s : State) : Out := s.storeDword 4 a b (imm12 i)

/-- ADDI (R116). -/
def execAddi (d a : Reg) (i : BitVec 12) (s : State) : Out := s.compute 4 d [a] (fun s => s.x a + imm12 i)

/-- SLTI (R116). -/
def execSlti (d a : Reg) (i : BitVec 12) (s : State) : Out := s.compute 4 d [a] (fun s => boolWord ((s.x a).slt (imm12 i)))

/-- SLTIU (R116). -/
def execSltiu (d a : Reg) (i : BitVec 12) (s : State) : Out := s.compute 4 d [a] (fun s => boolWord ((s.x a).ult (imm12 i)))

/-- XORI (R116). -/
def execXori (d a : Reg) (i : BitVec 12) (s : State) : Out := s.compute 4 d [a] (fun s => s.x a ^^^ imm12 i)

/-- ORI (R116). -/
def execOri (d a : Reg) (i : BitVec 12) (s : State) : Out := s.compute 4 d [a] (fun s => s.x a ||| imm12 i)

/-- ANDI (R116). -/
def execAndi (d a : Reg) (i : BitVec 12) (s : State) : Out := s.compute 4 d [a] (fun s => s.x a &&& imm12 i)

/-- ADDIW (R116). -/
def execAddiw (d a : Reg) (i : BitVec 12) (s : State) : Out := s.compute 4 d [a] (fun s => sext32 (s.x a + imm12 i))

/-- SLLI (R116). -/
def execSlli (d a : Reg) (h : BitVec 6) (s : State) : Out := s.compute 4 d [a] (fun s => s.x a <<< h.toNat)

/-- SRLI (R116). -/
def execSrli (d a : Reg) (h : BitVec 6) (s : State) : Out := s.compute 4 d [a] (fun s => s.x a >>> h.toNat)

/-- SRAI (R116). -/
def execSrai (d a : Reg) (h : BitVec 6) (s : State) : Out := s.compute 4 d [a] (fun s => (s.x a).sshiftRight h.toNat)

/-- SLLIW (R116). -/
def execSlliw (d a : Reg) (h : BitVec 5) (s : State) : Out := s.compute 4 d [a] (fun s => sext32 (s.x a <<< h.toNat))

/-- SRLIW (R116). -/
def execSrliw (d a : Reg) (h : BitVec 5) (s : State) : Out := s.compute 4 d [a] (fun s => (((s.x a).setWidth 32) >>> h.toNat).signExtend 64)

/-- SRAIW (R116). -/
def execSraiw (d a : Reg) (h : BitVec 5) (s : State) : Out := s.compute 4 d [a] (fun s => (((s.x a).setWidth 32).sshiftRight h.toNat).signExtend 64)

/-- ADD (R116). -/
def execAdd (d a b : Reg) (s : State) : Out := s.compute 4 d [a, b] (fun s => s.x a + s.x b)

/-- SUB (R116). -/
def execSub (d a b : Reg) (s : State) : Out := s.compute 4 d [a, b] (fun s => s.x a - s.x b)

/-- SLL (R116). -/
def execSll (d a b : Reg) (s : State) : Out := s.compute 4 d [a, b] (fun s => s.x a <<< shamt (s.x b))

/-- SLT (R116). -/
def execSlt (d a b : Reg) (s : State) : Out := s.compute 4 d [a, b] (fun s => boolWord ((s.x a).slt (s.x b)))

/-- SLTU (R116). -/
def execSltu (d a b : Reg) (s : State) : Out := s.compute 4 d [a, b] (fun s => boolWord ((s.x a).ult (s.x b)))

/-- XOR (R116). -/
def execXor (d a b : Reg) (s : State) : Out := s.compute 4 d [a, b] (fun s => s.x a ^^^ s.x b)

/-- SRL (R116). -/
def execSrl (d a b : Reg) (s : State) : Out := s.compute 4 d [a, b] (fun s => s.x a >>> shamt (s.x b))

/-- OR (R116). -/
def execOr (d a b : Reg) (s : State) : Out := s.compute 4 d [a, b] (fun s => s.x a ||| s.x b)

/-- AND (R116). -/
def execAnd (d a b : Reg) (s : State) : Out := s.compute 4 d [a, b] (fun s => s.x a &&& s.x b)

/-- SRA (R116). -/
def execSra (d a b : Reg) (s : State) : Out := s.compute 4 d [a, b] (fun s => (s.x a).sshiftRight (shamt (s.x b)))

/-- MUL (R116). -/
def execMul (d a b : Reg) (s : State) : Out := s.compute 4 d [a, b] (fun s => s.x a * s.x b)

/-- MULH (R116). -/
def execMulh (d a b : Reg) (s : State) : Out := s.compute 4 d [a, b] (fun s => mulHigh (s.x a).toInt (s.x b).toInt)

/-- MULHSU (R116). -/
def execMulhsu (d a b : Reg) (s : State) : Out := s.compute 4 d [a, b] (fun s => mulHigh (s.x a).toInt ((s.x b).toNat : Int))

/-- MULHU (R116). -/
def execMulhu (d a b : Reg) (s : State) : Out := s.compute 4 d [a, b] (fun s => mulHigh ((s.x a).toNat : Int) ((s.x b).toNat : Int))

/-- DIV (R117). -/
def execDiv (d a b : Reg) (s : State) : Out := s.compute 4 d [a, b] (fun s => divS (s.x a) (s.x b))

/-- DIVU (R117). -/
def execDivu (d a b : Reg) (s : State) : Out := s.compute 4 d [a, b] (fun s => divU (s.x a) (s.x b))

/-- REM (R117). -/
def execRem (d a b : Reg) (s : State) : Out := s.compute 4 d [a, b] (fun s => remS (s.x a) (s.x b))

/-- REMU (R117). -/
def execRemu (d a b : Reg) (s : State) : Out := s.compute 4 d [a, b] (fun s => remU (s.x a) (s.x b))

/-- ADDW (R116). -/
def execAddw (d a b : Reg) (s : State) : Out := s.compute 4 d [a, b] (fun s => sext32 (s.x a + s.x b))

/-- SUBW (R116). -/
def execSubw (d a b : Reg) (s : State) : Out := s.compute 4 d [a, b] (fun s => sext32 (s.x a - s.x b))

/-- SLLW (R116). -/
def execSllw (d a b : Reg) (s : State) : Out := s.compute 4 d [a, b] (fun s => sext32 (s.x a <<< shamtW (s.x b)))

/-- SRLW (R116). -/
def execSrlw (d a b : Reg) (s : State) : Out := s.compute 4 d [a, b] (fun s => (((s.x a).setWidth 32) >>> shamtW (s.x b)).signExtend 64)

/-- SRAW (R116). -/
def execSraw (d a b : Reg) (s : State) : Out := s.compute 4 d [a, b] (fun s => (((s.x a).setWidth 32).sshiftRight (shamtW (s.x b))).signExtend 64)

/-- MULW (R116). -/
def execMulw (d a b : Reg) (s : State) : Out := s.compute 4 d [a, b] (fun s => sext32 (s.x a * s.x b))

/-- DIVW (R117). -/
def execDivw (d a b : Reg) (s : State) : Out := s.compute 4 d [a, b] (fun s => onWords divS (s.x a) (s.x b))

/-- DIVUW (R117). -/
def execDivuw (d a b : Reg) (s : State) : Out := s.compute 4 d [a, b] (fun s => onWords divU (s.x a) (s.x b))

/-- REMW (R117). -/
def execRemw (d a b : Reg) (s : State) : Out := s.compute 4 d [a, b] (fun s => onWords remS (s.x a) (s.x b))

/-- REMUW (R117). -/
def execRemuw (d a b : Reg) (s : State) : Out := s.compute 4 d [a, b] (fun s => onWords remU (s.x a) (s.x b))

/-- BSUBNZ (R133): the difference replaces x[xs]; the branch is taken where it is positive as a signed number. xs = xv
writes zero and never branches, and xv = x0 leaves x[xs] as it is. -/
def execBsubnz (a b : Reg) (off : BitVec 12) (s : State) : Out :=
  s.base [a, b] [a] (fun s =>
    let t := s.x a - s.x b
    let s1 := s.setX a t
    if (0#64).slt t then s1.jump (s1.pc + immBranch off) else s1.done 4)

end Sys2Proof.Machine
end

