-- ==== Sys2Proof/Machine/Compressed.lean ====
section
/-! DEFINITION. The compressed instructions (R86, R120): each behaves as its 32-bit expansion, of length 2. Their
operands are read from the instruction's bits, which the machine holds while the instruction executes. -/

namespace Sys2Proof.Machine

/-- The fields of the compressed instruction that executes. -/
def State.cparts (s : State) : CParts := CParts.ofWord (s.ir.setWidth 16)

/-- The stack pointer. -/
def sp : Reg := 2

/-- The link register. -/
def ra : Reg := 1

/-- An unsigned offset scaled by a power of two. -/
def scaled {w : Nat} (i : BitVec w) (k : Nat) : Word := (i.setWidth 64) <<< k

/-- An operation on two registers of the three-bit fields, the first of them written. -/
def State.compute2 (s : State) (f : Word → Word → Word) : Out :=
  let p := s.cparts
  s.compute 2 p.r1 [p.r1, p.r2] (fun s => f (s.x p.r1) (s.x p.r2))

/-- C.ADDI4SPN: addi rd, x2, uimm. -/
def execCAddi4spn (s : State) : Out :=
  let p := s.cparts
  s.compute 2 p.r2 [sp] (fun s => s.x sp + scaled p.immSpn 2)

/-- C.LW. -/
def execCLw (s : State) : Out :=
  let p := s.cparts
  s.loadReg 2 p.r2 p.r1 (scaled p.immW 2) 4 true

/-- C.LD. -/
def execCLd (s : State) : Out :=
  let p := s.cparts
  s.loadReg 2 p.r2 p.r1 (scaled p.immD 3) 8 true

/-- C.SW. -/
def execCSw (s : State) : Out :=
  let p := s.cparts
  s.storeReg 2 p.r1 p.r2 (scaled p.immW 2) 4

/-- C.SD: it expands to sd, so the control window takes it too (R375). -/
def execCSd (s : State) : Out :=
  let p := s.cparts
  s.storeDword 2 p.r1 p.r2 (scaled p.immD 3)

/-- C.ADDI: addi rd, rd, imm. -/
def execCAddi (s : State) : Out :=
  let p := s.cparts
  s.compute 2 p.rd [p.rd] (fun s => s.x p.rd + p.imm6.signExtend 64)

/-- C.NOP. -/
def execCNop (s : State) : Out :=
  s.nop 2

/-- C.ADDIW: addiw rd, rd, imm. -/
def execCAddiw (s : State) : Out :=
  let p := s.cparts
  s.compute 2 p.rd [p.rd] (fun s => sext32 (s.x p.rd + p.imm6.signExtend 64))

/-- C.LI: addi rd, x0, imm. -/
def execCLi (s : State) : Out :=
  let p := s.cparts
  s.compute 2 p.rd [] (fun _ => p.imm6.signExtend 64)

/-- C.ADDI16SP: addi x2, x2, imm. -/
def execCAddi16sp (s : State) : Out :=
  let p := s.cparts
  s.compute 2 sp [sp] (fun s => s.x sp + ((p.imm16sp.signExtend 64) <<< 4))

/-- C.LUI: lui rd, imm. -/
def execCLui (s : State) : Out :=
  let p := s.cparts
  s.compute 2 p.rd [] (fun _ => (p.imm6.signExtend 64) <<< 12)

/-- C.SRLI. -/
def execCSrli (s : State) : Out :=
  let p := s.cparts
  s.compute 2 p.r1 [p.r1] (fun s => s.x p.r1 >>> p.imm6.toNat)

/-- C.SRAI. -/
def execCSrai (s : State) : Out :=
  let p := s.cparts
  s.compute 2 p.r1 [p.r1] (fun s => (s.x p.r1).sshiftRight p.imm6.toNat)

/-- C.ANDI. -/
def execCAndi (s : State) : Out :=
  let p := s.cparts
  s.compute 2 p.r1 [p.r1] (fun s => s.x p.r1 &&& p.imm6.signExtend 64)

/-- C.SUB. -/
def execCSub (s : State) : Out :=
  s.compute2 (fun a b => a - b)

/-- C.XOR. -/
def execCXor (s : State) : Out :=
  s.compute2 (fun a b => a ^^^ b)

/-- C.OR. -/
def execCOr (s : State) : Out :=
  s.compute2 (fun a b => a ||| b)

/-- C.AND. -/
def execCAnd (s : State) : Out :=
  s.compute2 (fun a b => a &&& b)

/-- C.SUBW. -/
def execCSubw (s : State) : Out :=
  s.compute2 (fun a b => sext32 (a - b))

/-- C.ADDW. -/
def execCAddw (s : State) : Out :=
  s.compute2 (fun a b => sext32 (a + b))

/-- C.J: jal x0. -/
def execCJ (s : State) : Out :=
  let p := s.cparts
  s.link 2 0 [] (fun s => s.pc + (p.immJ ++ (0 : BitVec 1)).signExtend 64)

/-- C.BEQZ: beq rs1, x0. -/
def execCBeqz (s : State) : Out :=
  let p := s.cparts
  s.branch 2 p.r1 0 ((p.immB ++ (0 : BitVec 1)).signExtend 64) (fun x y => x == y)

/-- C.BNEZ: bne rs1, x0. -/
def execCBnez (s : State) : Out :=
  let p := s.cparts
  s.branch 2 p.r1 0 ((p.immB ++ (0 : BitVec 1)).signExtend 64) (fun x y => x != y)

/-- C.SLLI. -/
def execCSlli (s : State) : Out :=
  let p := s.cparts
  s.compute 2 p.rd [p.rd] (fun s => s.x p.rd <<< p.imm6.toNat)

/-- C.LWSP. -/
def execCLwsp (s : State) : Out :=
  let p := s.cparts
  s.loadReg 2 p.rd sp (scaled p.immLwsp 2) 4 true

/-- C.LDSP. -/
def execCLdsp (s : State) : Out :=
  let p := s.cparts
  s.loadReg 2 p.rd sp (scaled p.immLdsp 3) 8 true

/-- C.JR: jalr x0, 0(rs1). -/
def execCJr (s : State) : Out :=
  let p := s.cparts
  s.link 2 0 [p.rd] (fun s => evenOf (s.x p.rd))

/-- C.MV: add rd, x0, rs2. -/
def execCMv (s : State) : Out :=
  let p := s.cparts
  s.compute 2 p.rd [p.rs2] (fun s => s.x p.rs2)

/-- C.EBREAK: ebreak (R119). -/
def execCEbreak (s : State) : Out :=
  s.base [] [] (fun s => s.trap 3 s.pc)

/-- C.JALR: jalr x1, 0(rs1). -/
def execCJalr (s : State) : Out :=
  let p := s.cparts
  s.link 2 ra [p.rd] (fun s => evenOf (s.x p.rd))

/-- C.ADD: add rd, rd, rs2. -/
def execCAdd (s : State) : Out :=
  let p := s.cparts
  s.compute 2 p.rd [p.rd, p.rs2] (fun s => s.x p.rd + s.x p.rs2)

/-- C.SWSP. -/
def execCSwsp (s : State) : Out :=
  let p := s.cparts
  s.storeReg 2 sp p.rs2 (scaled p.immSwsp 2) 4

/-- C.SDSP: it expands to sd. -/
def execCSdsp (s : State) : Out :=
  let p := s.cparts
  s.storeDword 2 sp p.rs2 (scaled p.immSdsp 3)

/-- A compressed HINT (R85): no operation. -/
def execHint (s : State) : Out :=
  s.nop 2

/-- An undefined, reserved or malformed encoding (R81 to R101): an illegal-instruction trap with the bits in xtval (R82). -/
def execIllegalInstruction (s : State) : Out :=
  s.illegal

end Sys2Proof.Machine
end

