-- ==== Sys2Proof/Machine/Atomic.lean ====
section
/-! DEFINITION. Atomic memory instructions (R121 to R124, R334), and the acquire and release that their bits give
(R331, R332, R335). -/

namespace Sys2Proof.Machine

/-- R332, R335: the tick after an acquire at .pod or wider: at least the pod port's (log 23). -/
def State.podTickUp (s : State) (wide : Bool) (p : Tick) : Tick := if wide then tickMax p s.podTick else p

/-- R334: the read of an atomic on physical memory, at the home: the bytes, the tick after it, and the state. With
`aq` it is an acquire at .sys. -/
def State.atomicRead (s : State) (q : Nat) (p : Tick) (aq : Bool) (tag pa n : Nat) : List Byte × Tick × State :=
  if aq then
    let r := s.acquireAt true q p tag pa n
    (r.1, r.2.2.podTickUp true r.2.1, r.2.2)
  else if isHost pa then s.readPhys q p .once tag pa n
  else
    let s1 := s.recall (pa / 128)
    (Memory.read s1.mem pa n, tickMax p (s1.homeLine (pa / 128)).wts, s1)

/-- R334: the write of an atomic on physical memory, at the home. With `rl` it is a release at .sys. -/
def State.atomicWrite (s : State) (q : Nat) (p : Tick) (rl : Bool) (tag pa : Nat) (data : List Byte) : Tick × State :=
  if rl then s.releaseAt q p tag pa data else s.writePhys q p .home tag pa data

/-- R122, R124: a read and the write that it leads to, as one access: the bytes read. `f` gives the bytes to write, if
any. A tick that may not jump so far makes the access wait before it is performed (R328). -/
def State.modify (s : State) (pl : Place) (n : Nat) (aq rl : Bool) (f : List Byte → Option (List Byte)) :
    Acc (List Byte) :=
  let i := s.cur
  match pl with
  | .scratch k off =>
    (s.readScratch k off n).bind (fun old s =>
      match f old with
      | some new => .ok old ((s.putScratch k off new).clearResv (some i) (Loc.scratch k off).line)
      | none => .ok old s)
  | .mem pa _ g =>
    if s.isBad pa then .fail 19 (BitVec.ofNat 64 (pa / 128 * 128)) s
    else
      let q := dieOf i.core
      let p := (s.core i.core).ptick
      let tag := if g then 0 else s.accTag i.core
      let r := s.atomicRead q p aq tag pa n
      match f r.1 with
      | some new =>
        let w := r.2.2.atomicWrite q r.2.1 rl tag pa new
        if s.mayJump p w.1 then .ok r.1 ((w.2.setTick i.core w.1).clearResv (some i) (.phys (pa / 128 * 128))) else .wait s
      | none => if s.mayJump p r.2.1 then .ok r.1 (r.2.2.setTick i.core r.2.1) else .wait s
  | _ => .ok [] s

/-- R320: an atomic of n bytes at a place: every earlier store is performed first. -/
def State.atomicIn (s : State) (pl : Place) (n : Nat) (aq rl : Bool) (f : List Byte → Option (List Byte)) :
    Acc (List Byte) :=
  (s.flush s.cur.core).bind (fun _ s => s.modify pl n aq rl f)

/-- R121, R122: an atomic of n bytes at an address. -/
def State.atomicAt (s : State) (va : Word) (n : Nat) (aq rl : Bool) (f : List Byte → Option (List Byte)) :
    Acc (List Byte) :=
  if va.toNat % n ≠ 0 then .fail 6 va s
  else (s.dataPlace .store va n).bind (fun pl s => s.atomicIn pl n aq rl f)

/-- R211, R321, R331: an atomic with aq or rl waits for every earlier access of the hardware context. -/
def State.ordered (s : State) (bits : Bool) (k : State → Out) : Out := if bits then s.accessesDone k else s.inOrder k

/-- R122: an AMO. `f` gives the new value from the old one and from x[b], of 8n bits. -/
def State.amo (s : State) (d a b : Reg) (n : Nat) (aq rl : Bool) (f : BitVec (8 * n) → BitVec (8 * n) → BitVec (8 * n)) :
    Out :=
  s.base [a, b] [d] (fun s => s.ordered (aq || rl) (fun s =>
    let operand : BitVec (8 * n) := (s.x b).setWidth (8 * n)
    (s.atomicAt (s.x a) n aq rl (fun old => some (bytesLE n (f (BitVec.ofNat (8 * n) (natLE old)) operand).toNat))).run
      (fun old s => (s.setX d (extend true old)).done 4)))

/-- R124: AMOCAS: x[rd] is both the compare value and the result. -/
def State.amocas (s : State) (d a b : Reg) (n : Nat) (aq rl : Bool) : Out :=
  s.base [a, b, d] [d] (fun s => s.ordered (aq || rl) (fun s =>
    let want := lowBytes n (s.x d)
    let new := lowBytes n (s.x b)
    (s.atomicAt (s.x a) n aq rl (fun old => if old = want then some new else none)).run
      (fun old s => (s.setX d (extend true old)).done 4)))

/-- R334: the read of lr on physical memory: at the home where the line is homed in the issuing die or is host-shared;
otherwise in the issuing die, which takes ownership. -/
def State.reserveRead (s : State) (q : Nat) (p : Tick) (aq shared : Bool) (tag pa n : Nat) : List Byte × Tick × State :=
  let ln := pa / 128
  if isHost pa ∨ homeDie pa = q ∨ shared then s.atomicRead q p aq tag pa n
  else
    let s := s.retag q tag ln
    let own (s : State) (p : Tick) : Owned × State :=
      match Tab.get? (s.die q).owned ln with
      | some o => (o, s)
      | none => s.obtain q p tag ln
    if aq then
      let r := s.atomicRead q p true tag pa n
      let o := own r.2.2 r.2.1
      (r.1, tickMax r.2.1 o.1.wts, o.2)
    else
      let o := own s p
      (lineRead o.1.val (pa % 128) n, tickMax p o.1.wts, o.2)

/-- R123, R334: lr reads and places the reservation on the line. -/
def State.reserve (s : State) (pl : Place) (n : Nat) (aq : Bool) : Acc (List Byte) :=
  let i := s.cur
  let hold (s : State) : State := s.onMe (fun t => { t with resv := some { line := pl.loc.line } })
  match pl with
  | .scratch k off => (s.readScratch k off n).bind (fun bs s => .ok bs (hold s))
  | .mem pa sh g =>
    if s.isBad pa then .fail 19 (BitVec.ofNat 64 (pa / 128 * 128)) s
    else
      let p := (s.core i.core).ptick
      let r := s.reserveRead (dieOf i.core) p aq sh (if g then 0 else s.accTag i.core) pa n
      if s.mayJump p r.2.1 then .ok r.1 (hold (r.2.2.setTick i.core r.2.1)) else .wait s
  | _ => .ok [] s

/-- R123, R334: whether an sc to a place succeeds: the reservation is held on its line, and the issuing die still owns
a line homed elsewhere. -/
def State.scHolds (s : State) (pl : Place) : Bool :=
  s.me.resv == some { line := pl.loc.line } &&
    (match pl with
     | .mem pa sh _ =>
       let q := dieOf s.cur.core
       isHost pa || homeDie pa == q || sh || (Tab.get? (s.die q).owned (pa / 128)).isSome
     | _ => true)

/-- R334: the store of an sc that succeeds; with `rl` a release at .sys, at the home. -/
def State.scStore (s : State) (pl : Place) (rl : Bool) (data : List Byte) : Acc Unit :=
  match pl with
  | .mem pa _ g =>
    if rl then
      let i := s.cur
      let p := (s.core i.core).ptick
      let r := s.releaseAt (dieOf i.core) p (if g then 0 else s.accTag i.core) pa data
      if s.mayJump p r.1 then .ok () ((r.2.setTick i.core r.1).clearResv (some i) (.phys (pa / 128 * 128))) else .wait s
    else s.writePlace s.cur pl data
  | _ => s.writePlace s.cur pl data

/-- LR of n bytes (R121, R123). Its address is checked as a store's, its translation is a load's (log 24). -/
def State.lr (s : State) (d a : Reg) (n : Nat) (aq : Bool) : Out :=
  s.base [a] [d] (fun s => s.ordered aq (fun s =>
    let va := s.x a
    if va.toNat % n ≠ 0 then s.trap 6 va
    else
      (((s.dataPlace .load va n).bind (fun pl s => (s.flush s.cur.core).bind (fun _ s => s.reserve pl n aq))).run
        (fun bs s => (s.setX d (extend true bs)).done 4))))

/-- SC of n bytes (R121, R123): 0 and the store, or 1 and nothing; the reservation is gone either way. Its address is
translated and checked, and its faults are taken, whether or not the reservation is held: R123 does not say (log 24). -/
def State.sc (s : State) (d a b : Reg) (n : Nat) (rl : Bool) : Out :=
  s.base [a, b] [d] (fun s => s.ordered rl (fun s =>
    let va := s.x a
    let data := lowBytes n (s.x b)
    if va.toNat % n ≠ 0 then s.trap 6 va
    else
      ((s.dataPlace .store va n).bind (fun pl s => (s.flush s.cur.core).bind (fun _ s =>
        if s.scHolds pl then (s.scStore pl rl data).bind (fun _ s => .ok (0 : Word) s) else .ok 1 s))).run
        (fun r s => ((s.onMe (fun t => { t with resv := none })).setX d r).done 4)))

/-- Signed minimum. -/
def minS {w : Nat} (a b : BitVec w) : BitVec w := if b.slt a then b else a
/-- Signed maximum. -/
def maxS {w : Nat} (a b : BitVec w) : BitVec w := if a.slt b then b else a
/-- Unsigned minimum. -/
def minU {w : Nat} (a b : BitVec w) : BitVec w := if b.ult a then b else a
/-- Unsigned maximum. -/
def maxU {w : Nat} (a b : BitVec w) : BitVec w := if a.ult b then b else a

/-- LR.W (R121, R123); rl has no effect on lr (R334). -/
def execLrW (d a : Reg) (aq _rl : Bool) (s : State) : Out := s.lr d a 4 aq

/-- SC.W (R121, R123); aq has no effect on sc (R334). -/
def execScW (d a b : Reg) (_aq rl : Bool) (s : State) : Out := s.sc d a b 4 rl

/-- AMOCAS.W (R124). -/
def execAmocasW (d a b : Reg) (aq rl : Bool) (s : State) : Out := s.amocas d a b 4 aq rl

/-- AMOSWAP.W (R121, R122). -/
def execAmoswapW (d a b : Reg) (aq rl : Bool) (s : State) : Out := s.amo d a b 4 aq rl (fun _ b => b)

/-- AMOADD.W (R121, R122). -/
def execAmoaddW (d a b : Reg) (aq rl : Bool) (s : State) : Out := s.amo d a b 4 aq rl (fun a b => a + b)

/-- AMOXOR.W (R121, R122). -/
def execAmoxorW (d a b : Reg) (aq rl : Bool) (s : State) : Out := s.amo d a b 4 aq rl (fun a b => a ^^^ b)

/-- AMOAND.W (R121, R122). -/
def execAmoandW (d a b : Reg) (aq rl : Bool) (s : State) : Out := s.amo d a b 4 aq rl (fun a b => a &&& b)

/-- AMOOR.W (R121, R122). -/
def execAmoorW (d a b : Reg) (aq rl : Bool) (s : State) : Out := s.amo d a b 4 aq rl (fun a b => a ||| b)

/-- AMOMIN.W (R121, R122). -/
def execAmominW (d a b : Reg) (aq rl : Bool) (s : State) : Out := s.amo d a b 4 aq rl minS

/-- AMOMAX.W (R121, R122). -/
def execAmomaxW (d a b : Reg) (aq rl : Bool) (s : State) : Out := s.amo d a b 4 aq rl maxS

/-- AMOMINU.W (R121, R122). -/
def execAmominuW (d a b : Reg) (aq rl : Bool) (s : State) : Out := s.amo d a b 4 aq rl minU

/-- AMOMAXU.W (R121, R122). -/
def execAmomaxuW (d a b : Reg) (aq rl : Bool) (s : State) : Out := s.amo d a b 4 aq rl maxU

/-- LR.D (R121, R123); rl has no effect on lr (R334). -/
def execLrD (d a : Reg) (aq _rl : Bool) (s : State) : Out := s.lr d a 8 aq

/-- SC.D (R121, R123); aq has no effect on sc (R334). -/
def execScD (d a b : Reg) (_aq rl : Bool) (s : State) : Out := s.sc d a b 8 rl

/-- AMOCAS.D (R124). -/
def execAmocasD (d a b : Reg) (aq rl : Bool) (s : State) : Out := s.amocas d a b 8 aq rl

/-- AMOSWAP.D (R121, R122). -/
def execAmoswapD (d a b : Reg) (aq rl : Bool) (s : State) : Out := s.amo d a b 8 aq rl (fun _ b => b)

/-- AMOADD.D (R121, R122). -/
def execAmoaddD (d a b : Reg) (aq rl : Bool) (s : State) : Out := s.amo d a b 8 aq rl (fun a b => a + b)

/-- AMOXOR.D (R121, R122). -/
def execAmoxorD (d a b : Reg) (aq rl : Bool) (s : State) : Out := s.amo d a b 8 aq rl (fun a b => a ^^^ b)

/-- AMOAND.D (R121, R122). -/
def execAmoandD (d a b : Reg) (aq rl : Bool) (s : State) : Out := s.amo d a b 8 aq rl (fun a b => a &&& b)

/-- AMOOR.D (R121, R122). -/
def execAmoorD (d a b : Reg) (aq rl : Bool) (s : State) : Out := s.amo d a b 8 aq rl (fun a b => a ||| b)

/-- AMOMIN.D (R121, R122). -/
def execAmominD (d a b : Reg) (aq rl : Bool) (s : State) : Out := s.amo d a b 8 aq rl minS

/-- AMOMAX.D (R121, R122). -/
def execAmomaxD (d a b : Reg) (aq rl : Bool) (s : State) : Out := s.amo d a b 8 aq rl maxS

/-- AMOMINU.D (R121, R122). -/
def execAmominuD (d a b : Reg) (aq rl : Bool) (s : State) : Out := s.amo d a b 8 aq rl minU

/-- AMOMAXU.D (R121, R122). -/
def execAmomaxuD (d a b : Reg) (aq rl : Bool) (s : State) : Out := s.amo d a b 8 aq rl maxU

end Sys2Proof.Machine
end

