-- ==== Sys2Proof/Machine/Ordering.lean ====
section
/-! DEFINITION. Acquire, release and fences (R125 to R130, R321, R331 to R333, R335). -/

namespace Sys2Proof.Machine

/-- Whether a scope is .mod or wider (R9). -/
def scopeWide (c : BitVec 3) : Bool := decide (5 ≤ c.toNat)

/-- Whether a scope is .pod or wider. -/
def scopePod (c : BitVec 3) : Bool := decide (6 ≤ c.toNat)

/-- R337, R129: engine work of the hardware context that has not completed: patterns it bound and jobs it submitted. -/
def State.engineBusy (s : State) (i : HartId) : Bool :=
  let d := s.die (dieOf i.core)
  let l := (s.core i.core).lcore
  let t := s.accTag i.core
  d.patterns.any (fun p => p.tag == t && p.lcore == l && p.h == i.h)
    || d.jobs.any (fun j => j.tag == t && j.lcore == l && j.h == i.h)

/-- R129, R333: a fence of predecessor and successor sets (s, v, e, r from bit 0) at a scope: an empty set orders
nothing; otherwise the predecessors are performed (those of its rays where the set holds v, R259), and at .mod and wider the die writes back its owned dirty lines up to
the core's tick. -/
def State.fenceAt (s : State) (pred succ : BitVec 4) (scope : BitVec 3) (k : State → Out) : Out :=
  if pred = 0 ∨ succ = 0 then k s
  else
    (if pred.getLsbD 1 then s.accessesDone else s.madeDone) (fun s =>
      if pred.getLsbD 2 && s.engineBusy s.cur then .next s
      else
        (s.flush s.cur.core).run (fun _ s =>
          if scopeWide scope && (pred &&& 0b1011#4) != 0 then
            k (s.drain (dieOf s.cur.core) (s.core s.cur.core).ptick)
          else k s))

/-- LDACQ's read (R126, R332): at .mod and wider an acquire at the home; otherwise a load. At .pod and wider one of a
scratchpad takes up the pod port's tick too (R335). -/
def State.acquireLoad (s : State) (va : Word) (n : Nat) (scope : BitVec 3) : Acc (List Byte) :=
  if scopeWide scope then
    if va.toNat % n ≠ 0 then .fail 4 va s
    else
      (s.dataPlace .load va n).bind (fun pl s =>
        (s.slotCheck s.cur.core pl va).bind (fun _ s =>
          (s.flush s.cur.core).bind (fun _ s =>
            match pl with
            | .mem pa _ g =>
              if s.isBad pa then .fail 19 (BitVec.ofNat 64 (pa / 128 * 128)) s
              else
                let c := s.cur.core
                let p := (s.core c).ptick
                let r := s.acquireAt (scope == 7) (dieOf c) p (if g then 0 else s.accTag c) pa n
                let p' := r.2.2.podTickUp (scopePod scope) r.2.1
                if s.mayJump p p' then .ok r.1 (r.2.2.setTick c p') else .wait s
            | _ =>
              (s.readPlace s.cur.core pl n).bind (fun bs s =>
                let c := s.cur.core
                let p := (s.core c).ptick
                let p' := s.podTickUp (scopePod scope) p
                if s.mayJump p p' then .ok bs (s.setTick c p') else .wait s))))
  else s.read va n

/-- STREL's store (R127, R130, R331), performed before it completes: after every earlier access, and at .mod and wider
at the home with its release record. A release at .pod waits for nothing more: a write into another module is performed
there before its job completes (R335; log 56). -/
def State.releaseStore (s : State) (va : Word) (data : List Byte) (scope : BitVec 3) : Acc Unit :=
  if va.toNat % data.length ≠ 0 then .fail 6 va s
  else
    (s.dataPlace .store va data.length).bind (fun pl s =>
      (s.flush s.cur.core).bind (fun _ s =>
        match pl with
        | .mem pa _ g =>
          if scopeWide scope then
            let i := s.cur
            let p := (s.core i.core).ptick
            let r := s.releaseAt (dieOf i.core) p (if g then 0 else s.accTag i.core) pa data
            if s.mayJump p r.1 then .ok () ((r.2.setTick i.core r.1).clearResv (some i) (.phys (pa / 128 * 128)))
            else .wait s
          else s.writePlace s.cur pl data
        | _ => s.writePlace s.cur pl data))

/-- LDACQ (R125, R126, R130): a load of 1, 2, 4 or 8 bytes, sign-extended. -/
def execLdacq (l : BitVec 4) (d a : Reg) (w : BitVec 2) (scope : BitVec 3) (s : State) : Out :=
  s.base [a] [d] (fun s => s.inOrder (fun s =>
    (s.acquireLoad (s.x a) (2 ^ w.toNat) scope).run (fun bs s => s.doneWithLong l d (extend true bs))))

/-- STREL (R125, R127, R130). -/
def execStrel (l : BitVec 4) (d a : Reg) (w : BitVec 2) (scope : BitVec 3) (s : State) : Out :=
  s.base [a, d] [] (fun s => s.accessesDone (fun s =>
    (s.releaseStore (s.x a) (lowBytes (2 ^ w.toNat) (s.x d)) scope).run (fun _ s => s.doneLong l [] [])))

/-- OFENCE (R129). -/
def execOfence (l : BitVec 4) (pred succ : BitVec 4) (scope : BitVec 3) (s : State) : Out :=
  s.base [] [] (fun s => s.fenceAt pred succ scope (fun s => s.doneLong l [] []))

/-- FENCE (R118): a no-op hint where pred or succ is empty; otherwise ofence.sys sv, sv. -/
def execFence (_d _a : Reg) (i : BitVec 12) (s : State) : Out :=
  let pred := i.extractLsb' 4 4
  let succ := i.extractLsb' 0 4
  if pred = 0 ∨ succ = 0 then s.nop 4
  else s.base [] [] (fun s => s.fenceAt 0b0011 0b0011 7 (fun s => s.done 4))

/-- FENCE.I (R118): earlier stores are performed, and the core's instruction cache is discarded (log 12). -/
def execFenceI (_d _a : Reg) (_i : BitVec 12) (s : State) : Out :=
  s.base [] [] (fun s => s.accessesDone (fun s =>
    (s.flush s.cur.core).run (fun _ s => (s.onCore s.cur.core (fun k => { k with icache := [] })).done 4)))

end Sys2Proof.Machine
end

