-- ==== Sys2Proof/Machine/Func.lean ====
section
/-! DEFINITION. The functions of vunary (R161), correctly rounded: each is enclosed between two bounds computed in
integers over a power of two, with a precision raised until both bounds round alike. -/

namespace Sys2Proof.Machine

/-- An enclosure: the value lies strictly between lo and hi, times 2^(−w). -/
structure Enc where
  lo : Int
  hi : Int
  w : Nat
deriving DecidableEq, Repr

/-- A positive dyadic as a magnitude. -/
def Mag.dyadic (n : Nat) (e : Int) : Mag := { n := n, d := 1, e := e }

/-- A magnitude just above n · 2^e, whose neighbours on every grid of the formats are those of an irrational value
there: a sticky bit far below n's last bit. -/
def Mag.above (n : Nat) (e : Int) : Mag := { n := n * 2 ^ 200 + 1, d := 1, e := e - 200 }

/-- A magnitude just below n · 2^e. -/
def Mag.below (n : Nat) (e : Int) : Mag := { n := n * 2 ^ 200 - 1, d := 1, e := e - 200 }

/-- The number of trials of rising precision. -/
def trials : List Nat := [128, 256, 512, 1024, 2048]

/-- Rounds an enclosed positive irrational value, at the first precision where both bounds agree. -/
def roundEnc (f : FFmt) (mode : RMode) (neg : Bool) (enc : Nat → Enc) (shift : Int) : List Nat → Nat × Fl
  | [] => (0, Fl.none)
  | w :: t =>
    let b := enc w
    let lo := f.round mode neg (Mag.dyadic b.lo.toNat (shift - b.w))
    if t.isEmpty then lo
    else if 0 < b.lo ∧ lo = f.round mode neg (Mag.dyadic b.hi.toNat (shift - b.w)) then lo
    else roundEnc f mode neg enc shift t

/-- Σ 1 / ((2k+1) · q^(2k+1)) over 2^w, for k from the first, with alternating signs where asked: the partial sums of
atanh or atan of 1/q. `p` is 2^w / q^(2k+1). -/
def invSeries (q2 : Nat) (alt : Bool) : Nat → Nat → Nat → Bool → Int → Int
  | 0, _, _, _, acc => acc
  | fuel + 1, p, k, sgn, acc =>
    if p = 0 then acc
    else
      let t : Int := (p / k : Nat)
      invSeries q2 alt fuel (p / q2) (k + 2) (if alt then !sgn else sgn) (if sgn then acc - t else acc + t)

/-- ln 2 over 2^w, within w units: 2 · atanh(1/3). -/
def ln2 (w : Nat) : Int := 2 * invSeries 9 false w (2 ^ w / 3) 1 false 0

/-- π over 2^w, within 20 · w units: 16 · atan(1/5) − 4 · atan(1/239). -/
def piFix (w : Nat) : Int :=
  16 * invSeries 25 true w (2 ^ w / 5) 1 false 0 - 4 * invSeries (239 * 239) true w (2 ^ w / 239) 1 false 0

/-- exp of t / 2^w for t from 0 to 2^w, over 2^w, by Taylor's series, within 3 · w units. -/
def expSeries (w : Nat) (t : Int) : Nat → Nat → Int → Int → Int
  | 0, _, _, acc => acc
  | fuel + 1, k, term, acc =>
    if term = 0 then acc
    else
      let next := term * t / (2 ^ w * (k + 1 : Nat))
      expSeries w t fuel (k + 1) next (acc + next)

/-- exp of a fraction of one, over 2^w. -/
def expFix (w : Nat) (t : Int) : Int := expSeries w t w 0 (2 ^ w) (2 ^ w)

/-- atanh of z / 2^w for |z| at most a third of 2^w, over 2^w, within w units. -/
def atanhSeries (w : Nat) (z2 : Int) : Nat → Nat → Int → Int → Int
  | 0, _, _, acc => acc
  | fuel + 1, k, p, acc =>
    if p = 0 then acc else atanhSeries w z2 fuel (k + 2) (p * z2 / 2 ^ w) (acc + p / (k : Nat))

/-- sin (odd) or cos (even) of t / 2^w for t from 0 to 2^w, by Taylor's series, over 2^w. -/
def trigSeries (w : Nat) (t2 : Int) : Nat → Nat → Int → Int → Int
  | 0, _, _, acc => acc
  | fuel + 1, k, term, acc =>
    if term = 0 then acc
    else
      let next := -(term * t2 / (2 ^ w * ((k + 1) * (k + 2) : Nat)))
      trigSeries w t2 fuel (k + 2) next (acc + next)

/-- A dyadic m · 2^e with a sign, over 2^w, rounded down. -/
def fixOf (neg : Bool) (m : Nat) (e : Int) (w : Nat) : Int :=
  let r := scale2 m 1 (e + w)
  let v : Int := (if neg then -(r.1 : Int) else r.1)
  v.fdiv (r.2 : Int)

/-- Whether m · 2^e is an integer. -/
def isIntDyadic (m : Nat) (e : Int) : Bool :=
  match e with
  | .ofNat _ => true
  | .negSucc j => m % 2 ^ (j + 1) == 0

/-- floor of ±m · 2^e. -/
def floorDyadic (neg : Bool) (m : Nat) (e : Int) : Int := fixOf neg m e 0

/-- 2^x for a finite x that is no integer: n = floor x, and 2^(x−n) enclosed. A tiny x gives just above or below 1. -/
def exp2Fin (f : FFmt) (mode : RMode) (neg : Bool) (m : Nat) (e : Int) : Nat × Fl :=
  if isIntDyadic m e then
    let n := floorDyadic neg m e
    if (4096 : Int) < n then f.round mode false (Mag.dyadic 1 4096)
    else if n < -4096 then f.round mode false (Mag.dyadic 1 (-4096))
    else f.round mode false (Mag.dyadic 1 n)
  else if (Nat.log2 m : Int) + e < -100 then f.round mode false (if neg then Mag.below 1 0 else Mag.above 1 0)
  else
    let n := floorDyadic neg m e
    if (4096 : Int) < n then f.round mode false (Mag.above 1 4096)
    else if n < -4096 then f.round mode false (Mag.above 1 (-4096))
    else
      roundEnc f mode false (fun w =>
        let fr := fixOf neg m e w - n * 2 ^ w
        let v := expFix w (fr * ln2 w / 2 ^ w)
        { lo := v - 8 * w, hi := v + 8 * w, w := w }) n trials

/-- log2 of a positive finite value: x = y · 2^k with y from 3/4 to 3/2, and log2 y = 2 · atanh z / ln 2 with
z = (y − 1) / (y + 1). -/
def log2Fin (f : FFmt) (mode : RMode) (m : Nat) (e : Int) : Nat × Fl :=
  let b := Nat.log2 m
  if m = 2 ^ b then
    let k : Int := b + e
    if k = 0 then (f.zero false, Fl.none) else f.ofInt mode k
  else
    let big := decide (3 * 2 ^ b ≤ 2 * m)
    let k : Int := b + e + (if big then 1 else 0)
    let den : Nat := if big then 2 ^ (b + 1) else 2 ^ b
    let val (w : Nat) : Int :=
      let z : Int := ((m : Int) - den) * 2 ^ w / ((m : Int) + den)
      let a := atanhSeries w (z * z / 2 ^ w) w 1 z 0
      k * 2 ^ w + 2 * a * 2 ^ w / ln2 w
    let neg := decide (val 128 < 0)
    roundEnc f mode neg (fun w =>
      let v := (val w).natAbs
      { lo := (v : Int) - 16 * w, hi := (v : Int) + 16 * w, w := w }) 0 trials

/-- The quarter of the half-turn circle in which x lies and the distance into it: x mod 2 = j/4 + t with t below 1/4,
as j and t over 2^s. -/
def octant (neg : Bool) (m : Nat) (e : Int) : Nat × Nat × Nat :=
  let s : Nat := (-e).toNat + 2
  let v : Int := fixOf neg m e s
  let r := (v.emod (2 ^ (s + 1))).toNat
  (r / 2 ^ (s - 2), r % 2 ^ (s - 2), s)

/-- sin(π·t) or cos(π·t) for t = r / 2^s in (0, 1/4], rounded with a sign. -/
def trigSmall (f : FFmt) (mode : RMode) (neg cos : Bool) (r s : Nat) : Nat × Fl :=
  let lg : Int := (Nat.log2 r : Int) - s
  if cos ∧ lg < -100 then f.round mode neg (Mag.below 1 0)
  else
    let extra := (-lg).toNat
    roundEnc f mode neg (fun w0 =>
      let w := w0 + extra
      let t := fixOf false r (-(s : Int)) w * piFix w / 2 ^ w
      let t2 := t * t / 2 ^ w
      let v := if cos then trigSeries w t2 w 0 (2 ^ w) (2 ^ w) else trigSeries w t2 w 1 t t
      { lo := v - 64 * w, hi := v + 64 * w, w := w }) 0 trials

/-- sin(π·x) of a finite nonzero x (R161). -/
def sinFin (f : FFmt) (mode : RMode) (neg : Bool) (m : Nat) (e : Int) : Nat × Fl :=
  if isIntDyadic m e then (f.zero neg, Fl.none)
  else
    let o := octant neg m e
    let j := o.1
    let t := o.2.1
    let s := o.2.2
    let sg := decide (4 ≤ j)
    let q := 2 ^ (s - 2)
    match j % 4 with
    | 0 => trigSmall f mode sg false t s
    | 1 => trigSmall f mode sg true (q - t) s
    | 2 => if t = 0 then f.ofInt mode (if sg then -1 else 1) else trigSmall f mode sg true t s
    | _ => trigSmall f mode sg false (q - t) s

/-- cos(π·x) of a finite nonzero x (R161). -/
def cosFin (f : FFmt) (mode : RMode) (neg : Bool) (m : Nat) (e : Int) : Nat × Fl :=
  let o := octant neg m e
  let j := o.1
  let t := o.2.1
  let s := o.2.2
  let q := 2 ^ (s - 2)
  match j with
  | 0 => if t = 0 then f.ofInt mode 1 else trigSmall f mode false true t s
  | 1 => trigSmall f mode false false (q - t) s
  | 2 => if t = 0 then (f.zero false, Fl.none) else trigSmall f mode true false t s
  | 3 => trigSmall f mode true true (q - t) s
  | 4 => if t = 0 then f.ofInt mode (-1) else trigSmall f mode true true t s
  | 5 => trigSmall f mode true false (q - t) s
  | 6 => if t = 0 then (f.zero false, Fl.none) else trigSmall f mode false false t s
  | _ => trigSmall f mode false true (q - t) s

/-- tanh of a finite nonzero x: (E − 1) / (E + 1) with E = e^(2|x|). -/
def tanhFin (f : FFmt) (mode : RMode) (neg : Bool) (m : Nat) (e : Int) : Nat × Fl :=
  let lg : Int := (Nat.log2 m : Int) + e
  if lg < -100 then f.round mode neg (Mag.below m e)
  else if 6 ≤ lg then f.round mode neg (Mag.below 1 0)
  else
    let extra := (-lg).toNat * 2
    roundEnc f mode neg (fun w0 =>
      let w := w0 + extra
      let y := fixOf false m (e + 1) w
      let l := ln2 w
      let n := y / l
      let big := expFix w (y - n * l) * 2 ^ n.toNat
      let v := (big - 2 ^ w) * 2 ^ w / (big + 2 ^ w)
      { lo := v - 512 * w, hi := v + 512 * w, w := w }) 0 trials

/-- The square root of a positive finite value: an integer root with a sticky bit below it. -/
def sqrtFin (f : FFmt) (mode : RMode) (m : Nat) (e : Int) : Nat × Fl :=
  let odd := decide (e % 2 ≠ 0)
  let m' := if odd then 2 * m else m
  let e' := if odd then e - 1 else e
  let n := m' * 2 ^ 160
  let r := isqrtFrom n 160 0
  if r * r = n then f.round mode false (Mag.dyadic r (e' / 2 - 80))
  else f.round mode false (Mag.dyadic (2 * r + 1) (e' / 2 - 81))

/-- 1/√x of a positive finite value. -/
def rsqrtFin (f : FFmt) (mode : RMode) (m : Nat) (e : Int) : Nat × Fl :=
  let odd := decide (e % 2 ≠ 0)
  let m' := if odd then 2 * m else m
  let e' := if odd then e - 1 else e
  let r := isqrtFrom (2 ^ 300 / m') 160 0
  if r * r * m' = 2 ^ 300 then f.round mode false (Mag.dyadic r (-(e' / 2) - 150))
  else f.round mode false (Mag.dyadic (2 * r + 1) (-(e' / 2) - 151))

/-- The eight functions of vunary (R161). -/
inductive Fn where
  | sqrt
  | rcp
  | rsqrt
  | exp2
  | log2
  | sin
  | cos
  | tanh
deriving DecidableEq, Repr

/-- A function at +∞ or −∞, by the table of R161. -/
def fnInf (f : FFmt) (g : Fn) (neg : Bool) : Nat × Fl :=
  let bad := (f.nanCode, Fl.invalid)
  match g with
  | .sqrt => if neg then bad else (f.inf false, Fl.none)
  | .rcp => (f.zero neg, Fl.none)
  | .rsqrt => if neg then bad else (f.zero false, Fl.none)
  | .exp2 => if neg then (f.zero false, Fl.none) else (f.inf false, Fl.none)
  | .log2 => if neg then bad else (f.inf false, Fl.none)
  | .sin => bad
  | .cos => bad
  | .tanh => f.ofInt .rne (if neg then -1 else 1)

/-- A function at a zero, by the table of R161. -/
def fnZero (f : FFmt) (g : Fn) (neg : Bool) : Nat × Fl :=
  match g with
  | .sqrt => (f.zero neg, Fl.none)
  | .rcp => (f.inf neg, Fl.divZero)
  | .rsqrt => (f.inf neg, Fl.divZero)
  | .exp2 => f.ofInt .rne 1
  | .log2 => (f.inf true, Fl.divZero)
  | .sin => (f.zero neg, Fl.none)
  | .cos => f.ofInt .rne 1
  | .tanh => (f.zero neg, Fl.none)

/-- A function at a finite nonzero value (R161). -/
def fnFin (f : FFmt) (mode : RMode) (g : Fn) (neg : Bool) (m : Nat) (e : Int) : Nat × Fl :=
  let bad := (f.nanCode, Fl.invalid)
  match g with
  | .sqrt => if neg then bad else sqrtFin f mode m e
  | .rcp => f.round mode neg { n := 1, d := m, e := -e }
  | .rsqrt => if neg then bad else rsqrtFin f mode m e
  | .exp2 => exp2Fin f mode neg m e
  | .log2 => if neg then bad else log2Fin f mode m e
  | .sin => sinFin f mode neg m e
  | .cos => cosFin f mode neg m e
  | .tanh => tanhFin f mode neg m e

/-- A function of an encoding (R161). -/
def FFmt.fn (f : FFmt) (mode : RMode) (g : Fn) (a : Nat) : Nat × Fl :=
  match f.decode a with
  | .nan s => (f.nanCode, if s then Fl.invalid else Fl.none)
  | .inf n => fnInf f g n
  | .fin n 0 _ => fnZero f g n
  | .fin n m e => fnFin f mode g n m e

end Sys2Proof.Machine
end

