-- ==== Sys2Proof/Machine/System.lean ====
section
/-! DEFINITION. The SYSTEM instructions other than the CSR instructions (R119, R49). -/

namespace Sys2Proof.Machine

/-- ECALL (R119): cause 8, 9 or 11 by the mode, xtval 0. -/
def execEcall (s : State) : Out :=
  s.base [] [] (fun s =>
    match s.me.mode with
    | .u => s.trap 8 0
    | .s => s.trap 9 0
    | .m => s.trap 11 0)

/-- EBREAK (R119): cause 3, xtval the pc. -/
def execEbreak (s : State) : Out := s.base [] [] (fun s => s.trap 3 s.pc)

/-- Whether a bit of mstatus keeps S-mode from an instruction (RISC-V; R137). -/
def State.forbids (s : State) (bit : Nat) : Bool := s.me.mode == .s && s.me.mstatus.getLsbD bit

/-- SRET (R49, R119): mstatus.TSR forbids it in S-mode. A helper's runtime that returns after a PAGE has answered FATAL or
NO_MEMORY has not ended the task as it must: its context is contained (R14, R391). -/
def execSret (s : State) : Out :=
  s.needs .s (fun s =>
    if s.forbids stTSR then s.illegal
    else s.base [] [] (fun s => s.drained (fun s =>
      if s.me.endTask then .next (s.post (.contextFault s.myTag 6 (dieOf s.cur.core) s.myCore.lcore 0))
      else .next (s.onMe (fun t => ({ t.passWindows with minstret := t.minstret + 1 }).sret)))))

/-- MRET (R49, R119): M-mode runs only on die manager cores. -/
def execMret (s : State) : Out :=
  s.needs .m (fun s =>
    s.base [] [] (fun s => s.drained (fun s =>
      .next (s.onMe (fun t => ({ t.passWindows with minstret := t.minstret + 1 }).mret)))))

/-- Whether a queue that qsel names holds a task (R119, R301). -/
def State.queueHolds (s : State) (c : Nat) : Bool :=
  match s.tagOf c with
  | some tag =>
    match s.ctx tag with
    | some x => x.tasks.any (fun t => (s.searchRank tag c (s.img c).qsel t.queue).isSome)
    | none => false
  | none => false

/-- R119, R290: whether wfi ends: an interrupt is pending and enabled, a queue that qsel names is not empty, or a helper of
the core has retired (log 25). -/
def State.wfiEnds (s : State) : Bool :=
  let c := s.cur.core
  let bits := s.pendingBits c
  (bits &&& (s.img c).mie) != 0 || bits.getLsbD 17 || s.queueHolds c

/-- WFI (R119): it waits until one of its events; mstatus.TW forbids it in S-mode. -/
def execWfi (s : State) : Out :=
  s.needs .s (fun s =>
    if s.forbids stTW then s.illegal
    else s.base [] [] (fun s => if s.wfiEnds then s.done 4 else .next s))

/-- Whether an entry is discarded by sfence.vma: it matches the address and the identifier that are given. -/
def TlbEntry.matches (e : TlbEntry) (va : Option Nat) (asid : Option Nat) : Bool :=
  (match va with
   | some a => decide (e.va ≤ a) && decide (a < e.va + e.size)
   | none => true)
  && (match asid with
      | some t => e.tag == t
      | none => true)

/-- SFENCE.VMA (R119): earlier stores are performed; matching entries of the core's micro-TLB and lane TLB banks are
discarded; mstatus.TVM forbids it in S-mode. -/
def execSfenceVma (a b : Reg) (s : State) : Out :=
  s.needs .s (fun s =>
    if s.forbids stTVM then s.illegal
    else
      s.base [a, b] [] (fun s => s.accessesDone (fun s =>
        (s.flush s.cur.core).run (fun _ s =>
          let va := if a = 0 then none else some (s.x a).toNat
          let asid := if b = 0 then none else some ((s.x b).toNat % 4096)
          let keep (l : List TlbEntry) : List TlbEntry := l.filter (fun e => !e.matches va asid)
          (s.onCore s.cur.core (fun k => { k with microTlb := keep k.microTlb, laneTlb := k.laneTlb.map keep })).done 4))))

end Sys2Proof.Machine
end

