-- ==== Sys2Proof/Machine/Csr.lean ====
section
/-! DEFINITION. CSR instructions (R135) and every CSR they reach: the custom ones (R102, R19 to R25, R67, R197, R301,
R323, R394, R431, R458) and the standard privileged ones (R137). -/

namespace Sys2Proof.Machine

/-- The lowest mode that may access a CSR, by its number. -/
def csrMode (c : Nat) : Mode := if c / 256 % 4 = 0 then .u else if c / 256 % 4 = 1 then .s else .m

/-- vsi0 to vsi3 and vrpc: in the read-only range, but writable from S-mode and M-mode (R102). -/
def csrIsVsi (c : Nat) : Bool := decide (0xCC5 ≤ c) && decide (c ≤ 0xCC9)

/-- Whether a CSR can be written in a mode: a write of one that R102 lists as RO is a trap; the RO registers of R458 ignore
one (R12). -/
def csrWritable (c : Nat) (m : Mode) : Bool :=
  if csrIsVsi c then m != .u
  else decide (c / 1024 ≠ 3) && c != 0x804

/-- R23: the units held by live helpers. -/
def Img.helperUnits (m : Img) : Nat := m.harts.foldl (fun n e => if e.1 ≠ 0 ∧ e.2.live then n + e.2.share else n) 0

/-- R23: FREE. -/
def Img.freeUnits (m : Img) : Nat := 32 - m.hctrl.toNat - m.helperUnits

/-- hshare as it reads (R23). -/
def Img.readHshare (m : Img) : Word := BitVec.ofNat 64 (m.freeUnits * 2 ^ 16 + m.hctrl.toNat * 2 ^ 8 + m.hnext.toNat)

/-- R23: a control context's vector configuration is discarded. -/
def Hart.unconfigure (t : Hart) : Hart := { t with vcfgst := setBit t.vcfgst 63 false }

/-- hshare written (R23). -/
def Img.writeHshare (m : Img) (v : Word) : Img :=
  let want := field v 8 6
  let ctrl := if want + m.helperUnits ≤ 32 then want else m.hctrl.toNat
  let m1 : Img := { m with hctrl := BitVec.ofNat 6 ctrl, hnext := v.setWidth 6 }
  if ctrl = m.hctrl.toNat then m1 else m1.onHart 0 Hart.unconfigure

/-- vsiN as it reads (R25). -/
def Hart.readVsi (t : Hart) (n : Nat) : Word :=
  match t.chainRec.getD n none with
  | some f => BitVec.ofNat 64 (f.idx % 2 ^ 16 + 2 ^ 16 + (if f.carry.isSome then 2 ^ 17 else 0))
  | none => 0

/-- The elements from one stopping point of a VA instruction to the next (R45, R142, R143). -/
def Flight.stopStep (f : Flight) : Nat :=
  let sew (c : Nat) : Nat := ((Fmt.ofCode c).map Fmt.sew).getD 8
  let w := sew (vtFmt f.vtype)
  let blk := blkLen (vtBlk f.vtype)
  match f.instr with
  | .vbdot _ => max (256 / w) blk
  | .vbexp _ | .vbpack _ => max 8 blk
  | .vcvt o => 256 / max w (sew o.t.toNat)
  | .vmand _ | .vmor _ | .vmxor _ | .vmandn _ | .vmpop _ | .vmfirst _ => 256
  | .vredsum _ | .vredmin _ | .vredmax _ => if vtCanon f.vtype then 32 else 256 / w
  | _ => 256 / w

/-- R25: SIDX as a write leaves it: kept for VM and distribution instructions, and at or beyond vl, where nothing is left
to do; rounded down to the nearest stopping point of any other. -/
def roundIndex (f : Flight) (idx : Nat) : Nat :=
  if f.vl ≤ idx then idx
  else
  match f.instr with
  | .vld .. | .vldSt .. | .vldIx .. | .vst .. | .vstSt .. | .vstIx .. => idx
  | .vamoadd _ | .vamomin _ | .vamomax _ | .vamoswap _ => idx
  | .dadd .. | .dsub .. | .dmul .. | .dmax .. | .dmin .. | .dmix .. | .dscale .. | .dcond .. | .dtag .. | .dpoint ..
  | .dgauss .. | .dmom .. | .dqnt .. | .dcdf .. | .dld .. | .dst .. => idx
  | .zcommit .. => 0
  | .xtri .. => idx / 16 * 16
  | .xbox .. | .tgrad .. | .tfetch .. | .gfeat .. => idx / 8 * 8
  | _ => idx / f.stopStep * f.stopStep

/-- vsiN written (R25): V := 0 discards the entry, V := 1 creates none, and SIDX takes effect without a carry. -/
def Hart.writeVsi (t : Hart) (n : Nat) (v : Word) : Hart :=
  match t.chainRec.getD n none with
  | none => t
  | some f =>
    if !v.getLsbD 16 then { t with chainRec := t.chainRec.set n none }
    else if f.carry.isSome ∨ field v 0 16 = f.idx then t
    else
      let g : Flight := { f with idx := roundIndex f (field v 0 16), sub := 0, desc := if f.inside then [] else f.desc }
      { t with chainRec := t.chainRec.set n (some g) }

/-- The bits of sie and sip (R290). -/
def sintMask : Word := 0x30002#64

/-- The bits of mie and mip on a die manager core: the supervisor's and RISC-V's machine-level ones (log 4). -/
def mintMask : Word := 0x3088A#64

/-- The causes that medeleg can delegate: those of R291 but the environment call from M-mode. -/
def medelegMask : Word := 0x30000FF08B3FE#64

/-- satp of a core as it reads (R384): on one that serves a context, Sv57, the context tag, and the PPN of the root table. -/
def State.readSatp (s : State) (c : Nat) : Word :=
  match (s.core c).serving with
  | some (tag, _) => BitVec.ofNat 64 (10 * 2 ^ 60 + tag % 4096 * 2 ^ 44 + ((s.ctx tag).map Ctx.root).getD 0 % 2 ^ 44)
  | none => (s.core c).satp

/-- satp written (R137, R384). -/
def Core.writeSatp (k : Core) (v : Word) : Core :=
  if k.serving.isSome then k
  else if field v 60 4 = 0 ∨ field v 60 4 = 10 then { k with satp := setField v 56 4 0 } else k

/-- R456: the supply in mV that firmware chooses for a die at an operating point: a free value in the range that the rule
gives. -/
def dieSupplyAt (die point : Nat) : Nat := max 540 (min 680 (Config.dieSupply die point))

/-- R456: the supply of a die in mV: what firmware chose for the clock from the die's characteristic, or wrote since. -/
def State.supplyOf (s : State) (d : Nat) : Nat :=
  match (s.die d).mopp with
  | some w => field w 16 10
  | none => dieSupplyAt d s.mgmt.point

/-- The clock of an operating point, in MHz (R456). -/
def pointMHz (n : Nat) : Nat := 425 + 25 * n

/-- OPPOINT (R443): the clock granted in MHz, and the highest supply of a die in mV. -/
def State.showPoint (s : State) : State :=
  { s with mgmt := { s.mgmt with
      oppoint := pointMHz s.mgmt.point + (List.range 64).foldl (fun n d => max n (s.supplyOf d)) 0 * 2 ^ 16 } }

/-- mcrcaps written (R433, R458): the classes that the value takes from the selected core are fenced, those it adds are
restored. -/
def State.writeCaps (s : State) (c : Nat) (v : Word) : State :=
  let r := (s.core c).crec
  (s.setCaps c (r.running &&& ~~~v) CoreRec.fence).setCaps c (v &&& ~~~r.caps) CoreRec.restore

/-- mcrquar written (R433, R458). -/
def State.writeQuar (s : State) (c : Nat) (v : Word) : State :=
  let q := (s.core c).crec.quar
  (s.setCaps c (v &&& ~~~q) CoreRec.quarantine).setCaps c (q &&& ~~~v) CoreRec.lift

/-- The physical core that mcrsel selects: of the reading core's die (R458). -/
def State.selectedCore (s : State) : Nat := dieOf s.cur.core * 16384 + field s.myCore.mcrsel 0 14

/-- The value of a CSR; none where the number names none (R102, R137, R458). -/
def State.readCsr (s : State) (c : Nat) : Option Word :=
  let t := s.me
  let k := s.myCore
  match c with
  | 0x800 => some t.vtype
  | 0x801 => some (t.vl.setWidth 64)
  | 0x802 => some t.vstride
  | 0x803 => some (t.vpad.setWidth 64)
  | 0x804 => some t.vcfgst
  | 0x805 => some t.vsrng
  | 0x806 => some (t.vexc.setWidth 64)
  | 0xCC0 => some (BitVec.ofNat 64 (cfgVlmax t.vcfgst))
  | 0xCC1 => some (BitVec.ofNat 64 (k.lcore % 2 ^ 20))
  | 0xCC2 => some (k.ptick.setWidth 64)
  | 0xCC3 => some k.capmask
  | 0xCC4 => some (BitVec.ofNat 64 s.cur.h)
  | 0xCC5 => some (t.readVsi 0)
  | 0xCC6 => some (t.readVsi 1)
  | 0xCC7 => some (t.readVsi 2)
  | 0xCC8 => some (t.readVsi 3)
  | 0xCC9 => some t.vrpc
  | 0x5C0 => some k.img.readHshare
  | 0x5C1 => some (k.img.qsel.setWidth 64)
  | 0x5C2 => some (k.img.mweight.setWidth 64)
  | 0x5C3 => some (k.img.lease.setWidth 64)
  | 0x100 => some t.readSstatus
  | 0x104 => some (k.img.mie &&& sintMask)
  | 0x105 => some k.img.stvec
  | 0x140 => some t.sscratch
  | 0x141 => some t.sepc
  | 0x142 => some t.scause
  | 0x143 => some t.stval
  | 0x144 => some (s.pendingBits s.cur.core &&& sintMask)
  | 0x180 => some (s.readSatp s.cur.core)
  | 0x300 => some t.readMstatus
  | 0x301 => some 0x8000000000941105#64
  | 0x302 => some k.medeleg
  | 0x303 => some k.mideleg
  | 0x304 => some k.img.mie
  | 0x305 => some k.mtvec
  | 0x340 => some t.mscratch
  | 0x341 => some t.mepc
  | 0x342 => some t.mcause
  | 0x343 => some t.mtval
  | 0x344 => some (s.pendingBits s.cur.core)
  | 0xB00 => some (t.mcycle + BitVec.ofNat 64 s.cc)
  | 0xB02 => some t.minstret
  | 0xF11 => some 0
  | 0xF12 => some 0
  | 0xF13 => some 0x0101#64
  | 0xF14 => some (BitVec.ofNat 64 (s.cur.core * 16 + s.cur.h))
  | 0x7C0 => some k.mcrsel
  | 0x7C1 => some (s.core s.selectedCore).capmask
  | 0x7C2 => some (s.core s.selectedCore).crec.quar
  | 0x7C3 => some s.devStore.errata
  | 0x7C4 => some (BitVec.ofNat 64 (s.supplyOf (dieOf s.cur.core) * 2 ^ 16 + s.mgmt.point))
  | 0x7C5 => some (BitVec.ofNat 64 ((s.die (dieOf s.cur.core)).temp % 2 ^ 16))
  | 0x7C6 => some (BitVec.ofNat 64 ((s.die (dieOf s.cur.core)).draw % 2 ^ 16))
  | 0x7C7 => some (BitVec.ofNat 64 (s.mgmt.lcs % 8))
  | _ => none

/-- R20: whether a value may be written to vtype. -/
def vtypeOk (v : Word) : Bool :=
  fmtDefined (v.setWidth 6) && decide (vtBlk v ≤ 4) && decide (vtRm v ≤ 5)

/-- R21: PAD after a write of vl or vpad: no more than VL, and 0 while CFG is 0. -/
def Hart.clampPad (t : Hart) : Hart :=
  { t with vpad := if !cfgOn t.vcfgst then 0 else if t.vl.ult t.vpad then t.vl else t.vpad }

/-- vl written (R21). -/
def Hart.writeVl (t : Hart) (v : Word) : Hart :=
  { t with vl := BitVec.ofNat 16 (min (field v 0 16) (cfgVlmax t.vcfgst)) }.clampPad

/-- sip or mip written: SSIP as written, QIP ignored, HRIP cleared only (R290). -/
def writePending (old v : Word) : Word := setBit (setBit old 1 (v.getLsbD 1)) 17 (old.getLsbD 17 && v.getLsbD 17)

/-- A CSR written with a value; the fates of R20, R21, R23, R67 and of the WARL fields. Of the modes of stvec and mtvec direct
alone can be stored (log 4). -/
def State.writeCsr (s : State) (c : Nat) (v : Word) : State :=
  let onK (f : Core → Core) : State := s.onCore s.cur.core f
  let onM (f : Img → Img) : State := s.onImg s.cur.core f
  match c with
  | 0x800 => s.onMe (fun t => { t with vtype := v &&& 0x1FFF#64 })
  | 0x801 => s.onMe (fun t => t.writeVl v)
  | 0x802 => s.onMe (fun t => { t with vstride := v })
  | 0x803 => s.onMe (fun t => ({ t with vpad := v.setWidth 16 } : Hart).clampPad)
  | 0x805 => s.onMe (fun t => { t with vsrng := if v = 0 then vsrngReset else v })
  | 0x806 => s.onMe (fun t => { t with vexc := v.setWidth 5 })
  | 0xCC5 => s.onMe (fun t => t.writeVsi 0 v)
  | 0xCC6 => s.onMe (fun t => t.writeVsi 1 v)
  | 0xCC7 => s.onMe (fun t => t.writeVsi 2 v)
  | 0xCC8 => s.onMe (fun t => t.writeVsi 3 v)
  | 0xCC9 => s.onMe (fun t => { t with vrpc := v &&& ~~~1#64 })
  | 0x5C0 => onM (fun m => m.writeHshare v)
  | 0x5C1 => onM (fun m => { m with qsel := v.setWidth 4 })
  | 0x5C2 => onM (fun m => { m with mweight := if field v 0 4 = 0 then 1 else v.setWidth 4 })
  | 0x5C3 => onM (fun m => { m with lease := if field v 0 8 = 0 then 1 else v.setWidth 8 })
  | 0x100 => s.onMe (fun t => t.writeSstatus v)
  | 0x104 => onM (fun m => { m with mie := (m.mie &&& ~~~sintMask) ||| (v &&& sintMask) })
  | 0x105 => onM (fun m => { m with stvec := v &&& ~~~3#64 })
  | 0x140 => s.onMe (fun t => { t with sscratch := v })
  | 0x141 => s.onMe (fun t => { t with sepc := v &&& ~~~1#64 })
  | 0x142 => s.onMe (fun t => { t with scause := v })
  | 0x143 => s.onMe (fun t => { t with stval := v })
  | 0x144 => onM (fun m => { m with mip := writePending m.mip v })
  | 0x180 => onK (fun k => k.writeSatp v)
  | 0x300 => s.onMe (fun t => t.writeMstatus v)
  | 0x302 => onK (fun k => { k with medeleg := v &&& medelegMask })
  | 0x303 => onK (fun k => { k with mideleg := v &&& sintMask })
  | 0x304 => onM (fun m => { m with mie := v &&& mintMask })
  | 0x305 => onK (fun k => { k with mtvec := v &&& ~~~3#64 })
  | 0x340 => s.onMe (fun t => { t with mscratch := v })
  | 0x341 => s.onMe (fun t => { t with mepc := v &&& ~~~1#64 })
  | 0x342 => s.onMe (fun t => { t with mcause := v })
  | 0x343 => s.onMe (fun t => { t with mtval := v })
  | 0x344 => onM (fun m => { m with mip := writePending m.mip v })
  | 0xB00 => s.onMe (fun t => { t with mcycle := v - BitVec.ofNat 64 s.cc })
  | 0xB02 => s.onMe (fun t => { t with minstret := v - 1 })
  | 0x7C0 => onK (fun k => { k with mcrsel := v &&& 0x3FFF#64 })
  | 0x7C1 => s.writeCaps s.selectedCore v
  | 0x7C2 => s.writeQuar s.selectedCore v
  | 0x7C4 =>
    let k : State := s.onDie (dieOf s.cur.core) (fun d => { d with mopp := some (v &&& 0x3FF0000#64) })
    (if field v 0 5 ≤ 17 then { k with mgmt := { k.mgmt with point := field v 0 5 } } else k : State).showPoint
  | _ => s

/-- R66, R136: the CSR accesses that wait until nothing of the hardware context is in flight. -/
def csrWaits (c : Nat) (writes : Bool) : Bool := c == 0x806 || (csrIsVsi c && writes)

/-- A CSR instruction (R102, R135): `src` is the operand, `writes` says that it writes, and `f` gives the value to write
from the old value. -/
def State.csr (s : State) (c : BitVec 12) (d : Reg) (srcs : List Reg) (writes : Bool) (f : State → Word → Word) : Out :=
  let n := c.toNat
  let mode := s.me.mode
  if (s.readCsr n).isNone ∨ !(mode.atLeast (csrMode n)) ∨ (writes && !csrWritable n mode) then s.illegal
  else if n = 0x180 ∧ s.forbids stTVM then s.illegal
  else
    s.base srcs [d] (fun s =>
      let go (s : State) : Out :=
        let old := (s.readCsr n).getD 0
        let v := f s old
        if writes && decide (n = 0x800) && !vtypeOk v then s.illegal
        else ((if writes then s.writeCsr n v else s).setX d old).done 4
      if csrWaits n writes then s.drained go else go s)

/-- CSRRW (R135). -/
def execCsrrw (d a : Reg) (c : BitVec 12) (s : State) : Out := s.csr c d [a] true (fun s _ => s.x a)

/-- CSRRS (R135): rs1 = x0 does not write. -/
def execCsrrs (d a : Reg) (c : BitVec 12) (s : State) : Out := s.csr c d [a] (a != 0) (fun s old => old ||| s.x a)

/-- CSRRC (R135): rs1 = x0 does not write. -/
def execCsrrc (d a : Reg) (c : BitVec 12) (s : State) : Out := s.csr c d [a] (a != 0) (fun s old => old &&& ~~~s.x a)

/-- CSRRWI (R135). -/
def execCsrrwi (d : Reg) (u : BitVec 5) (c : BitVec 12) (s : State) : Out :=
  s.csr c d [] true (fun _ _ => u.setWidth 64)

/-- CSRRSI (R135): a zero immediate does not write. -/
def execCsrrsi (d : Reg) (u : BitVec 5) (c : BitVec 12) (s : State) : Out :=
  s.csr c d [] (u != 0) (fun _ old => old ||| u.setWidth 64)

/-- CSRRCI (R135): a zero immediate does not write. -/
def execCsrrci (d : Reg) (u : BitVec 5) (c : BitVec 12) (s : State) : Out :=
  s.csr c d [] (u != 0) (fun _ old => old &&& ~~~(u.setWidth 64))

end Sys2Proof.Machine
end

