-- ==== Sys2Proof/Machine/VectorConfig.lean ====
section
/-! DEFINITION. vcfg and vsetl (R24, R27 to R29, R131, R132, R134). -/

namespace Sys2Proof.Machine

/-- A grant of R27: VLEN, the resident slots and the annex bytes. -/
structure Grant where
  vlen : Nat
  slots : Nat
  annex : Nat
deriving DecidableEq, Repr

/-- The powers of two from 256 to 16,384 (R27). -/
def vlens : List Nat := [256, 512, 1024, 2048, 4096, 8192, 16384]

/-- vlen_min of R27: the least length of R27 that is at least the request, or the longest. -/
def vlenMin (minreq : Word) : Nat := (vlens.find? (fun p => decide (minreq.toNat ≤ p))).getD 16384

/-- vlen_fit of R27. -/
def vlenFit (n cap : Nat) : Nat := vlens.foldl (fun a p => if n * p ≤ cap then p else a) 0

/-- R27: what a share gives a declaration of n slots under a minimum length. -/
def grantOf (share n : Nat) (minreq : Word) : Grant :=
  let cap := 4096 * share
  let fit := vlenFit n cap
  let vlen := if vlenMin minreq ≤ fit then fit else vlenMin minreq
  let slots := min (cap / vlen) 127
  { vlen := vlen, slots := slots, annex := (n - slots) * vlen / 8 }

/-- R27: whether a grant is a vector-configuration fault. -/
def Grant.faulty (g : Grant) (nd : Nat) : Bool :=
  decide (g.slots < (if nd = 0 then 4 else 40)) || decide (65536 < g.annex)

/-- xtval of a vector-configuration fault (R134). -/
def Grant.tval (g : Grant) : Word := BitVec.ofNat 64 (g.annex * 2 ^ 32 + g.slots % 128)

/-- vcfgst after a grant (R24). -/
def Grant.status (g : Grant) (share nv nd w : Nat) : Word :=
  BitVec.ofNat 64 (2 ^ 63 + share * 2 ^ 21 + g.slots * 2 ^ 14 + (if g.annex = 0 then 0 else 2 ^ 13)
    + Nat.log2 g.vlen * 2 ^ 9 + w * 2 ^ 7 + nd * 2 ^ 3 + nv)

/-- R28: the registers resident after vcfg: v0 upwards, then d0 upwards, while slots remain. -/
def residentAfter (slots nv nd : Nat) : List RegName :=
  let vs := (List.range (min nv slots)).map RegName.v
  let ds := if nv ≤ slots then (List.range (min nd ((slots - nv) / 12))).map RegName.d else []
  inRank (vs ++ ds)

/-- Every register that a declaration names. -/
def declared (nv nd : Nat) : List RegName := (List.range nv).map RegName.v ++ (List.range nd).map RegName.d

/-- The share of a hardware context: hshare.CTRL for the control context, else what hstart gave it (R134). -/
def State.shareOf (s : State) : Nat := if s.cur.h = 0 then s.myCore.img.hctrl.toNat else s.me.share

/-- The scratchpad that the running kernel needs (R29); a control context runs no kernel of the kernel table (log 26). -/
def Hart.scratchNeed (t : Hart) : Nat :=
  match t.task with
  | some k => k.task.facts.scratch + k.task.facts.ringbytes
  | none => 0

/-- The lowest scratchpad byte that an annex of a core uses, or the end of the partition. -/
def State.annexFloor (s : State) (c : Nat) : Nat :=
  (s.img c).harts.foldl (fun m e =>
    match e.2.annex with
    | some a =>
      match a.place with
      | .scratch c' o => if c' = c ∧ e.1 ≠ s.cur.h then min m o else m
      | .phys _ => m
    | none => m) (s.partition c)

/-- What placing an annex gives. -/
inductive Placed where
  /-- it lies there, or there is none -/
  | at (a : Option Annex) (s : State)
  /-- the pool has no room: the context faults (R404) -/
  | full
  
/-- R29: where an annex of some bytes lies: at the top of the scratchpad below the core's other annexes, or in an annex
slot of the pool. A core that serves no context has neither, and its annex lies in the firmware's own memory (log 26). -/
def State.placeAnnex (s : State) (bytes : Nat) : Placed :=
  if bytes = 0 then .at none s
  else
    let c := s.cur.core
    match s.tagOf c with
    | none => .at none s
    | some tag =>
      let floor := s.annexFloor c
      if s.me.scratchNeed + bytes ≤ floor then
        .at (some { place := .scratch c (floor - bytes), bytes := bytes }) s
      else
        match (s.ctx tag).bind (fun x => x.takeSlot (dieOf c)) with
        | some (pa, x) => .at (some { place := .phys pa, bytes := bytes }) (s.setCtx tag x)
        | none => .full

/-- R27, R134: the registers and controls of a hardware context after a grant. -/
def Hart.configure (t : Hart) (g : Grant) (share nv nd w : Nat) (a : Option Annex) : Hart :=
  let res := residentAfter g.slots (nvOf nv) nd
  { t with
    vcfgst := g.status share nv nd w
    vl := 0
    vpad := 0
    v := Vector.replicate 32 0
    d := Vector.replicate 8 []
    dtag := Vector.replicate 8 0
    resv := none
    chainRec := [none, none, none, none]
    annex := a
    resident := res
    zeroMarks := (declared (nvOf nv) nd).filter (fun r => !res.contains r) }

/-- VCFG (R27 to R29, R134): it waits until nothing is in flight, and is no lookahead violation (R42). -/
def execVcfg (d a : Reg) (nv : BitVec 3) (nd : BitVec 4) (w : BitVec 2) (s : State) : Out :=
  s.drained (fun s =>
    let share := s.shareOf
    let g := grantOf share (nvOf nv.toNat + 12 * nd.toNat) (s.x a)
    if g.faulty nd.toNat then s.trap 26 g.tval
    else
      match (s.dropAnnex s.myTag s.cur.core s.me.annex).placeAnnex g.annex with
      | .full => .next (s.post (.contextFault s.myTag 4 (dieOf s.cur.core) s.myCore.lcore 0))
      | .at ann s1 =>
        let s2 := s1.onMe (fun t => t.configure g share nv.toNat nd.toNat w.toNat ann)
        s2.doneWith d (BitVec.ofNat 64 (g.vlen / (8 * 2 ^ w.toNat))))

/-- The annex bytes of the configuration that vcfgst reports (R27). -/
def cfgAnnexBytes (w : Word) : Nat := ((nvOf (field w 0 3) + 12 * cfgNd w) - cfgSlots w) * cfgVlen w / 8

/-- The strip length and padding of R131, from the count, the block length and the cap. -/
def stripOf (count b cap : Nat) : Nat × Nat :=
  let need := (count + b - 1) / b * b
  if need ≤ cap then (need, need - count) else (cap, 0)

/-- VSETL (R131, R132). -/
def execVsetl (d a : Reg) (fmt : BitVec 6) (blk : BitVec 3) (_hint : BitVec 3) (s : State) : Out :=
  let st := s.me.vcfgst
  match cfgOn st, Fmt.ofCode fmt.toNat with
  | true, some f =>
    if cfgWidth st < f.sew || (f.isScaled && blk == 0) then s.illegal
    else
      s.base [a] [d] (fun s =>
        let b := blkLen blk.toNat
        let cap := cfgVlmax st / b * b
        if cap = 0 then
          s.trap 26 (Grant.tval { vlen := cfgVlen st, slots := cfgSlots st, annex := cfgAnnexBytes st })
        else
          let r := stripOf (s.x a).toNat b cap
          let s1 := s.onMe (fun t =>
            { t with vl := BitVec.ofNat 16 r.1, vpad := BitVec.ofNat 16 r.2,
                     vtype := setField (setField t.vtype 0 6 fmt.toNat) 6 3 blk.toNat })
          s1.doneWith d (BitVec.ofNat 64 r.1))
  | _, _ => s.illegal

end Sys2Proof.Machine
end

