-- ==== Sys2Proof/Machine/Vector.lean ====
section
/-! DEFINITION. What the VA instructions share (R36, R37, R51, R138 to R143): the checks at issue, the capability
classes (R429), and the execution of one element group. -/

namespace Sys2Proof

/-- Whether a source is an immediate. -/
def VaSrc.isImm : VaSrc → Bool
  | .vi _ => true
  | _ => false

end Sys2Proof

namespace Sys2Proof.Machine

/-- The format that a flight captured. -/
def Flight.fmt (f : Flight) : Fmt := (Fmt.ofCode (vtFmt f.vtype)).getD (.int true 8)

/-- The width of a flight's elements. -/
def Flight.sew (f : Flight) : Nat := f.fmt.sew

/-- The rounding mode that a flight captured, stochastic acting as RNE (R63). -/
def Flight.rm (f : Flight) : RMode := RMode.ofCode (vtRm f.vtype)

/-- Whether an element is a pad element (R36). -/
def Flight.pad (f : Flight) (i : Nat) : Bool := decide (f.vl - f.vpad ≤ i)

/-- The format that an instruction executes under. -/
def State.fmt (s : State) : Option Fmt := Fmt.ofCode (vtFmt s.me.vtype)

/-- R37, R51: whether an instruction may execute under the format at all: it is no wider than declared, and a scaled
format has a block length. -/
def Hart.fmtFits (t : Hart) (f : Fmt) : Bool :=
  decide (f.sew ≤ cfgWidth t.vcfgst) && !(f.isScaled && vtBlk t.vtype == 0)

/-! Capability classes (R429). -/

/-- The index of an arithmetic floating format in the classes. -/
def FFmt.clsIdx : FFmt → Nat
  | .fp16 => 0
  | .bf16 => 1
  | .fp32 => 2
  | _ => 3

/-- vint16, vint32, vint64. -/
def intClass (w : Nat) : Nat := if w ≤ 16 then 3 else if w = 32 then 4 else 5

/-- vcvt by its source. -/
def Fmt.cvtClass : Fmt → Nat
  | .int _ _ => 19
  | .fp .fp16 => 20
  | .fp .bf16 => 21
  | .fp .fp32 => 22
  | .fp .fp64 => 23
  | .fp .e2m1 => 25
  | .fp _ => 24
  | _ => 26

/-- Integer VA, or floating VA arithmetic. -/
def Fmt.arithClass : Fmt → Nat
  | .int _ w => intClass w
  | .fp g => 7 + g.clsIdx
  | _ => 26

/-- vdiv and vrem. -/
def Fmt.divClass : Fmt → Nat
  | .int _ _ => 6
  | f => f.arithClass

/-- Comparisons. -/
def Fmt.cmpClass : Fmt → Nat
  | .int _ w => intClass w
  | .fp g => if Fmt.isArith (.fp g) then 11 + g.clsIdx else Fmt.cvtClass (.fp g)
  | f => f.cvtClass

/-- vunary sub-operations 0 to 8. -/
def Fmt.fnClass : Fmt → Nat
  | .fp g => 15 + g.clsIdx
  | f => f.arithClass

/-! The formats a funct6 is defined for (R141). -/

/-- Integers and arithmetic floating formats. -/
def Fmt.numeric (f : Fmt) : Bool := f.isInt || f.isArith

/-- Every format. -/
def Fmt.any (_ : Fmt) : Bool := true

/-- The scalar that a VA instruction captures at issue. -/
def State.vaScalar (s : State) (v : VaSrc) : Word :=
  match v with
  | .vx r => s.x r
  | _ => 0

/-- The moves that an instruction's element groups can take at most. -/
def groupMoves : Nat := 140

/-- A VA instruction at issue: the checks of R26, R37, R51 and R141, then into the chain (R39, R47). `immAny` says
that kind VI is defined under every format, `also` is what else is captured at issue. -/
def State.vaIssue (s : State) (i : Instr) (v : VaSrc) (immAny : Bool) (fmtOk : Fmt → Bool) (cls : Fmt → Nat)
    (mv : Flight → State → Move) (also : Hart → Hart := id) : Out :=
  match s.fmt with
  | none => s.illegal
  | some f =>
    s.issueVec i true (s.me.fmtFits f && fmtOk f && (immAny || !v.isImm || f.isInt)) (some (cls f))
      (fun s => s.fly i 0 false 0 (s.vaScalar v) groupMoves mv also)

/-! One element group. -/

/-- The result of an element: none leaves it unchanged. -/
abbrev ElemOp := Hart → Flight → Nat → Option (Nat × Fl)

/-- Whether an element below vl is active (R36). -/
def Hart.activeAt (t : Hart) (m : Bool) (i : Nat) : Bool := !m || maskBit (t.v.get 0) i

/-- All ones in an element. -/
def onesOf (sew : Nat) : Nat := 2 ^ sew - 1

/-- R36: element i of a destination, written into `acc`; sources are read from the hardware context as it stood before
the group. -/
def Hart.vaElem (t : Hart) (f : Flight) (m agn : Bool) (dsew : Nat) (op : ElemOp) (acc : VReg × Fl) (i : Nat) :
    VReg × Fl :=
  if t.activeAt m i then
    match op t f i with
    | some r => (elemSet acc.1 dsew i r.1, if f.pad i then acc.2 else acc.2.or r.2)
    | none => acc
  else if agn then (elemSet acc.1 dsew i (onesOf dsew), acc.2)
  else acc

/-- The first element of the group after the one where a flight stands. -/
def Flight.groupEnd (f : Flight) (n : Nat) : Nat := (f.idx / n + 1) * n

/-- The elements of a flight's group from where it stands. -/
def Flight.group (f : Flight) (n : Nat) : List Nat :=
  (List.range (min f.vl (f.groupEnd n) - f.idx)).map (fun j => f.idx + j)

/-- R36: the agnostic fill of a destination's positions from a bit on. -/
def Hart.tailFill (t : Hart) (agn : Bool) (lo : Nat) (v : VReg) : VReg :=
  if agn then onesFrom v lo (max lo (cfgVlen t.vcfgst)) else v

/-- One element group of a VA instruction whose elements are independent: the next `n` elements, with the tail filled
after the last (R36, R38, R139). -/
def vaMove (m agn : Bool) (vd : Reg) (dsew n : Nat) (op : ElemOp) (f : Flight) (s : State) : Move :=
  if f.vl = 0 then .over s
  else
    let t := s.me
    let r := (f.group n).foldl (t.vaElem f m agn dsew op) (t.vget vd, Fl.none)
    let last := decide (f.vl ≤ f.groupEnd n)
    let v := if last then t.tailFill agn (f.vl * dsew) r.1 else r.1
    let s1 := s.onMe (fun t => (t.vset vd v).raise r.2)
    if last then .over s1 else .more { f with idx := f.groupEnd n } s1

/-- The elements of one group of 256 bits. -/
def perGroup (sew : Nat) : Nat := 256 / sew

/-- A binary element operation of a VA instruction: the format, the rounding mode, vs2's element and the second
operand. -/
abbrev BinOp := Fmt → RMode → Nat → Nat → Nat × Fl

/-- R138, R139: an element operation of two sources. -/
def binElem (o : VaArgs) (immSigned : Bool) (g : BinOp) : ElemOp := fun t f i =>
  let sew := f.sew
  some (g f.fmt f.rm (elemAt (t.vget o.vs2) sew i) (operandS t f.xb o.s immSigned sew i))

/-- One group of a VA instruction of two sources whose results have the format's width. -/
def binMove (o : VaArgs) (immSigned : Bool) (g : BinOp) (f : Flight) (s : State) : Move :=
  vaMove o.m o.agn o.vd f.sew (perGroup f.sew) (binElem o immSigned g) f s

end Sys2Proof.Machine
end

