-- ==== Sys2Proof/Machine/VectorArith.lean ====
section
/-! DEFINITION. Integer and floating-point arithmetic, logic, shifts, sign injection and comparisons of the vector
unit (R144 to R152). -/

namespace Sys2Proof.Machine

/-- An operation by format: on integers as exact integers, wrapped (R52), or on an arithmetic floating format. -/
def byFmt (gi : Int → Int → Int) (gf : FFmt → RMode → Nat → Nat → Nat × Fl) : BinOp := fun f rm a b =>
  match f with
  | .int sg w => (wrapTo w (gi (intVal sg w a) (intVal sg w b)), Fl.none)
  | .fp g => gf g rm a b
  | _ => (a, Fl.none)

/-- An operation on integers alone, given signedness, width and the exact values. -/
def onInt (gi : Bool → Nat → Int → Int → Int) : BinOp := fun f _ a b =>
  match f with
  | .int sg w => (wrapTo w (gi sg w (intVal sg w a) (intVal sg w b)), Fl.none)
  | _ => (a, Fl.none)

/-- An operation on the bits of integers. -/
def onBits (g : Nat → Nat → Nat → Nat) : BinOp := fun f _ a b => (g f.sew a b % 2 ^ f.sew, Fl.none)

/-- vadd (R144). -/
def addOp : BinOp := byFmt (fun a b => a + b) FFmt.add
/-- vsub (R144). -/
def subOp : BinOp := byFmt (fun a b => a - b) FFmt.sub
/-- vrsub (R144). -/
def rsubOp : BinOp := byFmt (fun a b => b - a) (fun g rm a b => g.sub rm b a)
/-- vmul (R144). -/
def mulOp : BinOp := byFmt (fun a b => a * b) FFmt.mul
/-- vmulh (R145). -/
def mulhOp : BinOp := onInt (fun _ w a b => (a * b).fdiv (2 ^ w))
/-- vdiv (R146): truncating; by zero all ones; the one overflowing quotient wraps to the dividend. -/
def divOp : BinOp := byFmt (fun a b => if b = 0 then -1 else a.tdiv b) FFmt.div
/-- vrem (R146). -/
def remOp : BinOp := onInt (fun _ _ a b => if b = 0 then a else a.tmod b)
/-- vmin (R147, R80). -/
def minOp : BinOp := byFmt min (fun g _ a b => g.minmax false a b)
/-- vmax (R147, R80). -/
def maxOp : BinOp := byFmt max (fun g _ a b => g.minmax true a b)
/-- vsadd (R148). -/
def saddOp : BinOp := onInt (fun sg w a b => saturate sg w (a + b))
/-- vssub (R148). -/
def ssubOp : BinOp := onInt (fun sg w a b => saturate sg w (a - b))
/-- vand (R149). -/
def andOp : BinOp := onBits (fun _ a b => a &&& b)
/-- vor (R149). -/
def orOp : BinOp := onBits (fun _ a b => a ||| b)
/-- vxor (R149). -/
def xorOp : BinOp := onBits (fun _ a b => a ^^^ b)
/-- vsll (R149): by the low bits of the second operand. -/
def sllOp : BinOp := onBits (fun w a b => a <<< (b % w))
/-- vsrl (R149). -/
def srlOp : BinOp := onBits (fun w a b => a >>> (b % w))
/-- vsra (R149): fills copies of the top bit under I and N formats alike. -/
def sraOp : BinOp := onBits (fun w a b => wrapTo w ((asSigned w a).fdiv (2 ^ (b % w))))

/-- Sign injection (R151): a's bits under a new sign, from the two signs. -/
def signOp (g : Bool → Bool → Bool) : BinOp := fun f _ a b =>
  let w := f.sew
  let top := 2 ^ (w - 1)
  let sg := g (decide (top ≤ a)) (decide (top ≤ b))
  (a % top + (if sg then top else 0), Fl.none)

/-- The fused element operations (R150); vd's element is the addend. -/
def fmaElem (o : VaArgs) (negProd negAdd : Bool) : ElemOp := fun t f i =>
  let sew := f.sew
  match f.fmt with
  | .fp g =>
    some (g.fma f.rm negProd negAdd (elemAt (t.vget o.vs2) sew i) (operandS t f.xb o.s true sew i)
      (elemAt (t.vget o.vd) sew i))
  | _ => none

/-- One group of a fused instruction. -/
def fmaMove (o : VaArgs) (negProd negAdd : Bool) (f : Flight) (s : State) : Move :=
  vaMove o.m o.agn o.vd f.sew (perGroup f.sew) (fmaElem o negProd negAdd) f s

/-! Comparisons (R152). -/

/-- The relations of R152. -/
inductive Rel where
  | eq
  | ne
  | lt
  | le
  | gt
  | ge
deriving DecidableEq, Repr

/-- A relation from the order of two values. -/
def Rel.holds (r : Rel) (c : Int) : Bool :=
  match r with
  | .eq => decide (c = 0)
  | .ne => decide (c ≠ 0)
  | .lt => decide (c < 0)
  | .le => decide (c ≤ 0)
  | .gt => decide (0 < c)
  | .ge => decide (0 ≤ c)

/-- Whether a relation is an equality, which compares quietly. -/
def Rel.quiet : Rel → Bool
  | .eq => true
  | .ne => true
  | _ => false

/-- R152: two elements compared under a format. -/
def relOp (r : Rel) : BinOp := fun f _ a b =>
  let bit (x : Bool) : Nat := if x then 1 else 0
  match f with
  | .int sg w => (bit (r.holds (intVal sg w a - intVal sg w b)), Fl.none)
  | .fp g =>
    let x := g.decode a
    let y := g.decode b
    if x.isNan || y.isNan then
      (bit (r == .ne), if r.quiet then x.snan.or y.snan else Fl.invalid)
    else (bit (r.holds (cmpVal x y)), Fl.none)
  | .i3g => (bit (r.holds ((a % 8 : Nat) - (b % 8 : Nat) : Int)), Fl.none)
  | _ => (bit (r.holds ((a : Int) - (b : Int))), Fl.none)

/-- One group of a comparison: mask bits, with SEW = 1 at the destination (R152). -/
def relMove (o : VaArgs) (r : Rel) (f : Flight) (s : State) : Move :=
  vaMove o.m o.agn o.vd 1 (perGroup f.sew) (binElem o true (relOp r)) f s

/-- The formats of vceq and vcne, and of the ordered comparisons (R141). -/
def Rel.fmtOk (r : Rel) (f : Fmt) : Bool := r.quiet || f.numeric

/-- One group of VADD (R144). -/
def goVadd (o : VaArgs) : Flight → State → Move := binMove o true addOp

/-- VADD (R144). -/
def execVadd (o : VaArgs) (s : State) : Out := s.vaIssue (.vadd o) o.s false Fmt.numeric Fmt.arithClass (goVadd o)

/-- One group of VSUB (R144). -/
def goVsub (o : VaArgs) : Flight → State → Move := binMove o true subOp

/-- VSUB (R144). -/
def execVsub (o : VaArgs) (s : State) : Out := s.vaIssue (.vsub o) o.s false Fmt.numeric Fmt.arithClass (goVsub o)

/-- One group of VRSUB (R144). -/
def goVrsub (o : VaArgs) : Flight → State → Move := binMove o true rsubOp

/-- VRSUB (R144). -/
def execVrsub (o : VaArgs) (s : State) : Out := s.vaIssue (.vrsub o) o.s false Fmt.numeric Fmt.arithClass (goVrsub o)

/-- One group of VMUL (R144). -/
def goVmul (o : VaArgs) : Flight → State → Move := binMove o true mulOp

/-- VMUL (R144). -/
def execVmul (o : VaArgs) (s : State) : Out := s.vaIssue (.vmul o) o.s false Fmt.numeric Fmt.arithClass (goVmul o)

/-- One group of VMULH (R145). -/
def goVmulh (o : VaArgs) : Flight → State → Move := binMove o true mulhOp

/-- VMULH (R145). -/
def execVmulh (o : VaArgs) (s : State) : Out := s.vaIssue (.vmulh o) o.s false Fmt.isInt Fmt.arithClass (goVmulh o)

/-- One group of VDIV (R146). -/
def goVdiv (o : VaArgs) : Flight → State → Move := binMove o true divOp

/-- VDIV (R146). -/
def execVdiv (o : VaArgs) (s : State) : Out := s.vaIssue (.vdiv o) o.s false Fmt.numeric Fmt.divClass (goVdiv o)

/-- One group of VREM (R146). -/
def goVrem (o : VaArgs) : Flight → State → Move := binMove o true remOp

/-- VREM (R146). -/
def execVrem (o : VaArgs) (s : State) : Out := s.vaIssue (.vrem o) o.s false Fmt.isInt Fmt.divClass (goVrem o)

/-- One group of VMIN (R147). -/
def goVmin (o : VaArgs) : Flight → State → Move := binMove o true minOp

/-- VMIN (R147). -/
def execVmin (o : VaArgs) (s : State) : Out := s.vaIssue (.vmin o) o.s false Fmt.numeric Fmt.arithClass (goVmin o)

/-- One group of VMAX (R147). -/
def goVmax (o : VaArgs) : Flight → State → Move := binMove o true maxOp

/-- VMAX (R147). -/
def execVmax (o : VaArgs) (s : State) : Out := s.vaIssue (.vmax o) o.s false Fmt.numeric Fmt.arithClass (goVmax o)

/-- One group of VSADD (R148). -/
def goVsadd (o : VaArgs) : Flight → State → Move := binMove o true saddOp

/-- VSADD (R148). -/
def execVsadd (o : VaArgs) (s : State) : Out := s.vaIssue (.vsadd o) o.s false Fmt.isInt Fmt.arithClass (goVsadd o)

/-- One group of VSSUB (R148). -/
def goVssub (o : VaArgs) : Flight → State → Move := binMove o true ssubOp

/-- VSSUB (R148). -/
def execVssub (o : VaArgs) (s : State) : Out := s.vaIssue (.vssub o) o.s false Fmt.isInt Fmt.arithClass (goVssub o)

/-- One group of VAND (R149). -/
def goVand (o : VaArgs) : Flight → State → Move := binMove o true andOp

/-- VAND (R149). -/
def execVand (o : VaArgs) (s : State) : Out := s.vaIssue (.vand o) o.s false Fmt.isInt Fmt.arithClass (goVand o)

/-- One group of VOR (R149). -/
def goVor (o : VaArgs) : Flight → State → Move := binMove o true orOp

/-- VOR (R149). -/
def execVor (o : VaArgs) (s : State) : Out := s.vaIssue (.vor o) o.s false Fmt.isInt Fmt.arithClass (goVor o)

/-- One group of VXOR (R149). -/
def goVxor (o : VaArgs) : Flight → State → Move := binMove o true xorOp

/-- VXOR (R149). -/
def execVxor (o : VaArgs) (s : State) : Out := s.vaIssue (.vxor o) o.s false Fmt.isInt Fmt.arithClass (goVxor o)

/-- One group of VSLL (R149). -/
def goVsll (o : VaArgs) : Flight → State → Move := binMove o false sllOp

/-- VSLL (R149). -/
def execVsll (o : VaArgs) (s : State) : Out := s.vaIssue (.vsll o) o.s false Fmt.isInt Fmt.arithClass (goVsll o)

/-- One group of VSRL (R149). -/
def goVsrl (o : VaArgs) : Flight → State → Move := binMove o false srlOp

/-- VSRL (R149). -/
def execVsrl (o : VaArgs) (s : State) : Out := s.vaIssue (.vsrl o) o.s false Fmt.isInt Fmt.arithClass (goVsrl o)

/-- One group of VSRA (R149). -/
def goVsra (o : VaArgs) : Flight → State → Move := binMove o false sraOp

/-- VSRA (R149). -/
def execVsra (o : VaArgs) (s : State) : Out := s.vaIssue (.vsra o) o.s false Fmt.isInt Fmt.arithClass (goVsra o)

/-- One group of VFMA (R150): a·b + c. -/
def goVfma (o : VaArgs) : Flight → State → Move := fmaMove o false false

/-- VFMA (R150). -/
def execVfma (o : VaArgs) (s : State) : Out := s.vaIssue (.vfma o) o.s false Fmt.isArith Fmt.arithClass (goVfma o)

/-- One group of VFMS (R150): a·b − c. -/
def goVfms (o : VaArgs) : Flight → State → Move := fmaMove o false true

/-- VFMS (R150). -/
def execVfms (o : VaArgs) (s : State) : Out := s.vaIssue (.vfms o) o.s false Fmt.isArith Fmt.arithClass (goVfms o)

/-- One group of VFNMA (R150): −(a·b) + c. -/
def goVfnma (o : VaArgs) : Flight → State → Move := fmaMove o true false

/-- VFNMA (R150). -/
def execVfnma (o : VaArgs) (s : State) : Out := s.vaIssue (.vfnma o) o.s false Fmt.isArith Fmt.arithClass (goVfnma o)

/-- One group of VSGNJ (R151). -/
def goVsgnj (o : VaArgs) : Flight → State → Move := binMove o true (signOp (fun _ b => b))

/-- VSGNJ (R151). -/
def execVsgnj (o : VaArgs) (s : State) : Out := s.vaIssue (.vsgnj o) o.s false Fmt.isArith Fmt.arithClass (goVsgnj o)

/-- One group of VSGNJN (R151). -/
def goVsgnjn (o : VaArgs) : Flight → State → Move := binMove o true (signOp (fun _ b => !b))

/-- VSGNJN (R151). -/
def execVsgnjn (o : VaArgs) (s : State) : Out := s.vaIssue (.vsgnjn o) o.s false Fmt.isArith Fmt.arithClass (goVsgnjn o)

/-- One group of VSGNJX (R151). -/
def goVsgnjx (o : VaArgs) : Flight → State → Move := binMove o true (signOp (fun a b => a != b))

/-- VSGNJX (R151). -/
def execVsgnjx (o : VaArgs) (s : State) : Out := s.vaIssue (.vsgnjx o) o.s false Fmt.isArith Fmt.arithClass (goVsgnjx o)

/-- One group of VCEQ (R152). -/
def goVceq (o : VaArgs) : Flight → State → Move := relMove o .eq

/-- VCEQ (R152). -/
def execVceq (o : VaArgs) (s : State) : Out := s.vaIssue (.vceq o) o.s false (Rel.fmtOk .eq) Fmt.cmpClass (goVceq o)

/-- One group of VCNE (R152). -/
def goVcne (o : VaArgs) : Flight → State → Move := relMove o .ne

/-- VCNE (R152). -/
def execVcne (o : VaArgs) (s : State) : Out := s.vaIssue (.vcne o) o.s false (Rel.fmtOk .ne) Fmt.cmpClass (goVcne o)

/-- One group of VCLT (R152). -/
def goVclt (o : VaArgs) : Flight → State → Move := relMove o .lt

/-- VCLT (R152). -/
def execVclt (o : VaArgs) (s : State) : Out := s.vaIssue (.vclt o) o.s false (Rel.fmtOk .lt) Fmt.cmpClass (goVclt o)

/-- One group of VCLE (R152). -/
def goVcle (o : VaArgs) : Flight → State → Move := relMove o .le

/-- VCLE (R152). -/
def execVcle (o : VaArgs) (s : State) : Out := s.vaIssue (.vcle o) o.s false (Rel.fmtOk .le) Fmt.cmpClass (goVcle o)

/-- One group of VCGT (R152). -/
def goVcgt (o : VaArgs) : Flight → State → Move := relMove o .gt

/-- VCGT (R152). -/
def execVcgt (o : VaArgs) (s : State) : Out := s.vaIssue (.vcgt o) o.s false (Rel.fmtOk .gt) Fmt.cmpClass (goVcgt o)

/-- One group of VCGE (R152). -/
def goVcge (o : VaArgs) : Flight → State → Move := relMove o .ge

/-- VCGE (R152). -/
def execVcge (o : VaArgs) (s : State) : Out := s.vaIssue (.vcge o) o.s false (Rel.fmtOk .ge) Fmt.cmpClass (goVcge o)

end Sys2Proof.Machine
end

