-- ==== Sys2Proof/Machine/VectorMove.lean ====
section
/-! DEFINITION. Merge, move, cross-lane reads, compression and mask logic (R153 to R159). -/

namespace Sys2Proof.Machine

/-- One group of VMERGE (R153): no position below vl counts as inactive. -/
def goVmerge (o : VaArgs) : Flight → State → Move := fun f s =>
  vaMove false o.agn o.vd f.sew (perGroup f.sew) (fun t f i =>
    let sew := f.sew
    let x := if maskBit (t.v.get 0) i then operandS t f.xb o.s true sew i else elemAt (t.vget o.vs2) sew i
    some (fixI3g f.fmt x, Fl.none)) f s

/-- VMERGE (R153). -/
def execVmerge (o : VaArgs) (s : State) : Out := s.vaIssue (.vmerge o) o.s false Fmt.any (fun _ => 2) (goVmerge o)

/-- One group of VMV (R154). -/
def goVmv (o : VaArgs) : Flight → State → Move := fun f s =>
  vaMove o.m o.agn o.vd f.sew (perGroup f.sew) (fun t f i =>
    some (fixI3g f.fmt (operandS t f.xb o.s true f.sew i), Fl.none)) f s

/-- VMV (R154). -/
def execVmv (o : VaArgs) (s : State) : Out := s.vaIssue (.vmv o) o.s false Fmt.any (fun _ => 2) (goVmv o)

/-- cross(j) of R155: zero for pad, tail and out of range alike. -/
def cross (t : Hart) (f : Flight) (vs2 : Reg) (j : Nat) : Nat :=
  if j < f.vl - f.vpad then elemAt (t.vget vs2) f.sew j else 0

/-- OFF of R156: a scalar as an unsigned dword, or the immediate. -/
def slideOff (f : Flight) (v : VaSrc) : Nat :=
  match v with
  | .vi k => k.toNat
  | _ => f.xb.toNat

/-- One group of VSLIDEUP (R156): an active element below OFF is left unchanged. -/
def goVslideup (o : VaArgs) : Flight → State → Move := fun f s =>
  vaMove o.m o.agn o.vd f.sew (perGroup f.sew) (fun t f i =>
    let off := slideOff f o.s
    if i < off then none else some (fixI3g f.fmt (cross t f o.vs2 (i - off)), Fl.none)) f s

/-- VSLIDEUP (R156). -/
def execVslideup (o : VaArgs) (s : State) : Out :=
  s.vaIssue (.vslideup o) o.s true Fmt.any (fun _ => 2) (goVslideup o)

/-- One group of VSLIDEDOWN (R156). -/
def goVslidedown (o : VaArgs) : Flight → State → Move := fun f s =>
  vaMove o.m o.agn o.vd f.sew (perGroup f.sew) (fun t f i =>
    some (fixI3g f.fmt (cross t f o.vs2 (i + slideOff f o.s)), Fl.none)) f s

/-- VSLIDEDOWN (R156). -/
def execVslidedown (o : VaArgs) (s : State) : Out :=
  s.vaIssue (.vslidedown o) o.s true Fmt.any (fun _ => 2) (goVslidedown o)

/-- The index of element i (R157). -/
def gatherIndex (t : Hart) (f : Flight) (v : VaSrc) (i : Nat) : Nat :=
  match v with
  | .vv r => elemAt (t.vget r) f.sew i
  | .vx _ => f.xb.toNat
  | .vi k => k.toNat

/-- One group of VGATHER (R157). -/
def goVgather (o : VaArgs) : Flight → State → Move := fun f s =>
  vaMove o.m o.agn o.vd f.sew (perGroup f.sew) (fun t f i =>
    some (fixI3g f.fmt (cross t f o.vs2 (gatherIndex t f o.s i)), Fl.none)) f s

/-- VGATHER (R157). -/
def execVgather (o : VaArgs) (s : State) : Out :=
  s.vaIssue (.vgather o) o.s true Fmt.any (fun _ => 2) (goVgather o)

/-- R158: whether position i is selected. -/
def compressTakes (t : Hart) (f : Flight) (vs1 : Reg) (i : Nat) : Bool := maskBit (t.vget vs1) i && !f.pad i

/-- The elements selected below an index: the output position there (R143). -/
def compressCount (t : Hart) (f : Flight) (vs1 : Reg) (i : Nat) : Nat :=
  ((List.range i).filter (compressTakes t f vs1)).length

/-- One source group of VCOMPRESS (R158); the positions beyond the last selected element follow agn. -/
def goVcompress (o : VvArgs) : Flight → State → Move := fun f s =>
  if f.vl = 0 then .over s
  else
    let t := s.me
    let n := perGroup f.sew
    let r := (f.group n).foldl (fun (a : VReg × Nat) i =>
      if compressTakes t f o.vs1 i then
        (elemSet a.1 f.sew a.2 (fixI3g f.fmt (elemAt (t.vget o.vs2) f.sew i)), a.2 + 1)
      else a) (t.vget o.vd, compressCount t f o.vs1 f.idx)
    let last := decide (f.vl ≤ f.groupEnd n)
    let v := if last then t.tailFill o.agn (r.2 * f.sew) r.1 else r.1
    let s1 := s.onMe (fun t => t.vset o.vd v)
    if last then .over s1 else .more { f with idx := f.groupEnd n } s1

/-- VCOMPRESS (R158). -/
def execVcompress (o : VvArgs) (s : State) : Out :=
  s.vaIssue (.vcompress o) (.vv o.vs1) false Fmt.any (fun _ => 2) (goVcompress o)

/-- One group of a mask logic instruction: bits, with SEW = 1; pad positions are ordinary bits (R159). -/
def maskMove (o : VvArgs) (g : Bool → Bool → Bool) (f : Flight) (s : State) : Move :=
  vaMove o.m o.agn o.vd 1 256 (fun t _ i =>
    some (if g (maskBit (t.vget o.vs2) i) (maskBit (t.vget o.vs1) i) then 1 else 0, Fl.none)) f s

/-- One group of VMAND (R159). -/
def goVmand (o : VvArgs) : Flight → State → Move := maskMove o (fun a b => a && b)

/-- VMAND (R159). -/
def execVmand (o : VvArgs) (s : State) : Out :=
  s.vaIssue (.vmand o) (.vv o.vs1) false Fmt.any (fun _ => 2) (goVmand o)

/-- One group of VMOR (R159). -/
def goVmor (o : VvArgs) : Flight → State → Move := maskMove o (fun a b => a || b)

/-- VMOR (R159). -/
def execVmor (o : VvArgs) (s : State) : Out :=
  s.vaIssue (.vmor o) (.vv o.vs1) false Fmt.any (fun _ => 2) (goVmor o)

/-- One group of VMXOR (R159). -/
def goVmxor (o : VvArgs) : Flight → State → Move := maskMove o (fun a b => a != b)

/-- VMXOR (R159). -/
def execVmxor (o : VvArgs) (s : State) : Out :=
  s.vaIssue (.vmxor o) (.vv o.vs1) false Fmt.any (fun _ => 2) (goVmxor o)

/-- One group of VMANDN (R159). -/
def goVmandn (o : VvArgs) : Flight → State → Move := maskMove o (fun a b => a && !b)

/-- VMANDN (R159). -/
def execVmandn (o : VvArgs) (s : State) : Out :=
  s.vaIssue (.vmandn o) (.vv o.vs1) false Fmt.any (fun _ => 2) (goVmandn o)

end Sys2Proof.Machine
end

