-- ==== Sys2Proof/Machine/VectorUnary.lean ====
section
/-! DEFINITION. vunary: the mathematical functions, classes, signs, indices, mask counts and moves of element 0 (R160
to R166). -/

namespace Sys2Proof.Machine

/-- A vunary instruction at issue. -/
def State.vuIssue (s : State) (i : Instr) (fmtOk : Fmt → Bool) (cls : Fmt → Nat) (mv : Flight → State → Move) : Out :=
  s.vaIssue i (.vv 0) false fmtOk cls mv

/-- One group of an instruction that makes each element from vs2's. -/
def unMove (o : VuArgs) (g : Fmt → RMode → Nat → Nat × Fl) (f : Flight) (s : State) : Move :=
  vaMove o.m o.agn o.vd f.sew (perGroup f.sew) (fun t f i =>
    some (g f.fmt f.rm (elemAt (t.vget o.vs2) f.sew i))) f s

/-- A function of R161 under a format. -/
def fnOp (g : Fn) (f : Fmt) (rm : RMode) (a : Nat) : Nat × Fl :=
  match f with
  | .fp x => x.fn rm g a
  | _ => (a, Fl.none)

/-- The bit of an element's class (R162). -/
def classBit (x : FFmt) (a : Nat) : Nat :=
  match x.decode a with
  | .inf n => if n then 0 else 7
  | .nan s => if s then 8 else 9
  | .fin n m _ =>
    if m = 0 then (if n then 3 else 4)
    else if m < 2 ^ x.mbits then (if n then 2 else 5)
    else (if n then 1 else 6)

/-- vclass (R162). -/
def classOp (f : Fmt) (_ : RMode) (a : Nat) : Nat × Fl :=
  match f with
  | .fp x => (2 ^ classBit x a, Fl.none)
  | _ => (a, Fl.none)

/-- vabs and vneg (R163). -/
def signedOp (gi : Int → Int) (gb : Bool → Bool) (f : Fmt) (_ : RMode) (a : Nat) : Nat × Fl :=
  match f with
  | .int _ w => (wrapTo w (gi (asSigned w a)), Fl.none)
  | _ =>
    let top := 2 ^ (f.sew - 1)
    (a % top + (if gb (decide (top ≤ a)) then top else 0), Fl.none)

/-- The formats of vabs and vneg (R160). -/
def Fmt.signedOk (f : Fmt) : Bool := f.isSigned || f.isArith

/-- One group of VSQRT (R161). -/
def goVsqrt (o : VuArgs) : Flight → State → Move := unMove o (fnOp .sqrt)

/-- VSQRT (R161). -/
def execVsqrt (o : VuArgs) (s : State) : Out := s.vuIssue (.vsqrt o) Fmt.isArith Fmt.fnClass (goVsqrt o)

/-- One group of VRCP (R161). -/
def goVrcp (o : VuArgs) : Flight → State → Move := unMove o (fnOp .rcp)

/-- VRCP (R161). -/
def execVrcp (o : VuArgs) (s : State) : Out := s.vuIssue (.vrcp o) Fmt.isArith Fmt.fnClass (goVrcp o)

/-- One group of VRSQRT (R161). -/
def goVrsqrt (o : VuArgs) : Flight → State → Move := unMove o (fnOp .rsqrt)

/-- VRSQRT (R161). -/
def execVrsqrt (o : VuArgs) (s : State) : Out := s.vuIssue (.vrsqrt o) Fmt.isArith Fmt.fnClass (goVrsqrt o)

/-- One group of VEXP2 (R161). -/
def goVexp2 (o : VuArgs) : Flight → State → Move := unMove o (fnOp .exp2)

/-- VEXP2 (R161). -/
def execVexp2 (o : VuArgs) (s : State) : Out := s.vuIssue (.vexp2 o) Fmt.isArith Fmt.fnClass (goVexp2 o)

/-- One group of VLOG2 (R161). -/
def goVlog2 (o : VuArgs) : Flight → State → Move := unMove o (fnOp .log2)

/-- VLOG2 (R161). -/
def execVlog2 (o : VuArgs) (s : State) : Out := s.vuIssue (.vlog2 o) Fmt.isArith Fmt.fnClass (goVlog2 o)

/-- One group of VSIN (R161). -/
def goVsin (o : VuArgs) : Flight → State → Move := unMove o (fnOp .sin)

/-- VSIN (R161). -/
def execVsin (o : VuArgs) (s : State) : Out := s.vuIssue (.vsin o) Fmt.isArith Fmt.fnClass (goVsin o)

/-- One group of VCOS (R161). -/
def goVcos (o : VuArgs) : Flight → State → Move := unMove o (fnOp .cos)

/-- VCOS (R161). -/
def execVcos (o : VuArgs) (s : State) : Out := s.vuIssue (.vcos o) Fmt.isArith Fmt.fnClass (goVcos o)

/-- One group of VTANH (R161). -/
def goVtanh (o : VuArgs) : Flight → State → Move := unMove o (fnOp .tanh)

/-- VTANH (R161). -/
def execVtanh (o : VuArgs) (s : State) : Out := s.vuIssue (.vtanh o) Fmt.isArith Fmt.fnClass (goVtanh o)

/-- One group of VCLASS (R162). -/
def goVclass (o : VuArgs) : Flight → State → Move := unMove o classOp

/-- VCLASS (R162). -/
def execVclass (o : VuArgs) (s : State) : Out := s.vuIssue (.vclass o) Fmt.isArith Fmt.fnClass (goVclass o)

/-- One group of VABS (R163). -/
def goVabs (o : VuArgs) : Flight → State → Move := unMove o (signedOp (fun a => a.natAbs) (fun _ => false))

/-- VABS (R163). -/
def execVabs (o : VuArgs) (s : State) : Out := s.vuIssue (.vabs o) Fmt.signedOk Fmt.arithClass (goVabs o)

/-- One group of VNEG (R163). -/
def goVneg (o : VuArgs) : Flight → State → Move := unMove o (signedOp (fun a => -a) (fun n => !n))

/-- VNEG (R163). -/
def execVneg (o : VuArgs) (s : State) : Out := s.vuIssue (.vneg o) Fmt.signedOk Fmt.arithClass (goVneg o)

/-- One group of VID (R164). -/
def goVid (o : VuArgs) : Flight → State → Move := fun f s =>
  vaMove o.m o.agn o.vd f.sew (perGroup f.sew) (fun _ f i => some (i % 2 ^ f.sew, Fl.none)) f s

/-- VID (R164). -/
def execVid (o : VuArgs) (s : State) : Out := s.vuIssue (.vid o) Fmt.isInt Fmt.arithClass (goVid o)

/-- R165: the mask bits that vmpop and vmfirst see. -/
def maskOnes (t : Hart) (f : Flight) (o : VuArgs) : List Nat :=
  (List.range (f.vl - f.vpad)).filter (fun i => maskBit (t.vget o.vs2) i && t.activeAt o.m i)

/-- VMPOP's one group (R165). -/
def goVmpop (o : VuArgs) : Flight → State → Move := fun f s =>
  .over (s.setX o.vd (BitVec.ofNat 64 (maskOnes s.me f o).length))

/-- VMPOP (R165). -/
def execVmpop (o : VuArgs) (s : State) : Out := s.vuIssue (.vmpop o) Fmt.any (fun _ => 2) (goVmpop o)

/-- VMFIRST's one group (R165). -/
def goVmfirst (o : VuArgs) : Flight → State → Move := fun f s =>
  .over (s.setX o.vd (match maskOnes s.me f o with
    | i :: _ => BitVec.ofNat 64 i
    | [] => BitVec.allOnes 64))

/-- VMFIRST (R165). -/
def execVmfirst (o : VuArgs) (s : State) : Out := s.vuIssue (.vmfirst o) Fmt.any (fun _ => 2) (goVmfirst o)

/-- VMVXS's one group (R166): element 0, sign-extended under I formats. -/
def goVmvxs (o : VuArgs) : Flight → State → Move := fun f s =>
  let a := elemAt (s.me.vget o.vs2) f.sew 0
  .over (s.setX o.vd (BitVec.ofInt 64 (intVal f.fmt.isSigned f.sew a)))

/-- VMVXS (R166). -/
def execVmvxs (o : VuArgs) (s : State) : Out := s.vuIssue (.vmvxs o) Fmt.any (fun _ => 2) (goVmvxs o)

/-- VMVSX's one group (R166): element 0, and the positions above it as tail. -/
def goVmvsx (o : VuArgs) : Flight → State → Move := fun f s =>
  if f.vl = 0 then .over s
  else
    .over (s.onMe (fun t => t.vset o.vd
      (t.tailFill o.agn f.sew (elemSet (t.vget o.vd) f.sew 0 (fixI3g f.fmt (f.xb.toNat % 2 ^ f.sew))))))

/-- VMVSX (R166); the scalar is that of the vs2 field. -/
def execVmvsx (o : VuArgs) (s : State) : Out :=
  s.vaIssue (.vmvsx o) (.vx o.vs2) false Fmt.any (fun _ => 2) (goVmvsx o)

end Sys2Proof.Machine
end

