-- ==== Sys2Proof/Machine/Reduce.lean ====
section
/-! DEFINITION. Reductions and scans (R76 to R80, R191 to R195). The carry of a flight holds init first, then the
partial results, each empty or a value. -/

namespace Sys2Proof.Machine

/-- ⊕ of R76: with one side empty, the other unchanged. -/
def plusOpt (g : Nat → Nat → Nat × Fl) (a b : Option Nat) : Option Nat × Fl :=
  match a, b with
  | some x, some y => let r := g x y; (some r.1, r.2)
  | some x, none => (some x, Fl.none)
  | none, y => (y, Fl.none)

/-- One level of a pairwise fold. -/
def foldPairs (g : Nat → Nat → Nat × Fl) : List (Option Nat) → List (Option Nat) × Fl
  | a :: b :: l =>
    let r := plusOpt g a b
    let t := foldPairs g l
    (r.1 :: t.1, r.2.or t.2)
  | l => (l, Fl.none)

/-- The adjacent-pair tree over a list of 2^levels entries (R77, R78). -/
def foldTree (g : Nat → Nat → Nat × Fl) : Nat → List (Option Nat) → Option Nat × Fl
  | 0, l => (l.headD none, Fl.none)
  | n + 1, l =>
    let r := foldPairs g l
    let t := foldTree g n r.1
    (t.1, r.2.or t.2)

/-- Whether element i contributes (R76). -/
def Hart.contributes (t : Hart) (f : Flight) (m : Bool) (i : Nat) : Bool := t.activeAt m i && !f.pad i

/-- init of R191. -/
def initOf (t : Hart) (f : Flight) (o : VaArgs) : Nat := operandS t f.xb o.s true f.sew 0

/-- The carry of a reduction or scan that begins: init, and the partial results, empty in the normal order, init in the
others (R77, R78, R193, R195). -/
def startCarry (t : Hart) (f : Flight) (o : VaArgs) (scan : Bool) : List (Option Nat) :=
  some (initOf t f o) :: (if scan || vtCanon f.vtype then [some (initOf t f o)] else List.replicate (perGroup f.sew) none)

/-- The carry of a reduction in progress, or that of its start. -/
def carryOf (t : Hart) (f : Flight) (o : VaArgs) (scan : Bool) : List (Option Nat) :=
  match f.carry with
  | some (a :: l) => a :: l
  | _ => startCarry t f o scan

/-- R195: the flight of a reduction that has just been launched captures init, where no older instruction in flight has
still to write it; else it is captured at the first group, behind that instruction (R39). -/
def Hart.seedCarry (o : VaArgs) (scan : Bool) (t : Hart) : Hart :=
  let waits := match o.s with
    | .vv r => t.chain.any (fun g => decide (g.id + 1 ≠ t.nextId) && g.uses.writes.contains (.v r.val))
    | _ => false
  if waits then t
  else { t with chain := t.chain.map (fun f => if f.id + 1 = t.nextId then { f with carry := some (startCarry t f o scan) } else f) }

/-- R192: the result in element 0, the other elements as tail. -/
def reduceEnd (o : VaArgs) (f : Flight) (x : Nat) (fl : Fl) (s : State) : Move :=
  .over (s.onMe (fun t =>
    (t.vset o.vd (t.tailFill o.agn f.sew (elemSet (t.vget o.vd) f.sew 0 x))).raise fl))

/-- One group of a reduction in the normal order (R77, R195), and the fold after the last. -/
def reduceNormal (o : VaArgs) (g : Nat → Nat → Nat × Fl) (f : Flight) (s : State) : Move :=
  let t := s.me
  let n := perGroup f.sew
  let c := carryOf t f o false
  let r := (f.group n).foldl (fun (a : List (Option Nat) × Fl) i =>
    if t.contributes f o.m i then
      let q := plusOpt g (a.1.getD (i % n) none) (some (elemAt (t.vget o.vs2) f.sew i))
      (a.1.set (i % n) q.1, a.2.or q.2)
    else a) (c.tail, Fl.none)
  if f.vl ≤ f.groupEnd n then
    let total := foldTree g (Nat.log2 n) r.1
    let last := plusOpt g total.1 (c.headD none)
    reduceEnd o f (last.1.getD 0) ((r.2.or total.2).or last.2) s
  else .more { f with idx := f.groupEnd n, carry := some (c.headD none :: r.1) } (s.onMe (fun t => t.raise r.2))

/-- One 32-element block of a reduction in canonical order (R78, R195). -/
def reduceCanon (o : VaArgs) (g : Nat → Nat → Nat × Fl) (f : Flight) (s : State) : Move :=
  let t := s.me
  let c := carryOf t f o false
  let base := f.idx / 32 * 32
  let xs := (List.range 32).map (fun j =>
    let i := base + j
    if i < f.vl ∧ f.idx ≤ i ∧ t.contributes f o.m i then some (elemAt (t.vget o.vs2) f.sew i) else none)
  let b := foldTree g 5 xs
  let run := plusOpt g (c.tail.headD none) b.1
  let fl := b.2.or run.2
  if f.vl ≤ base + 32 then reduceEnd o f (run.1.getD 0) fl s
  else .more { f with idx := base + 32, carry := some [c.headD none, run.1] } (s.onMe (fun t => t.raise fl))

/-- A reduction's next move (R192). -/
def reduceMove (o : VaArgs) (op : BinOp) (f : Flight) (s : State) : Move :=
  if f.vl = 0 then .over s
  else if vtCanon f.vtype then reduceCanon o (op f.fmt f.rm) f s
  else reduceNormal o (op f.fmt f.rm) f s

/-- One group of a scan (R193). -/
def scanMove (o : VaArgs) (f : Flight) (s : State) : Move :=
  if f.vl = 0 then .over s
  else
    let t := s.me
    let n := perGroup f.sew
    let g := addOp f.fmt f.rm
    let c := carryOf t f o true
    let r := (f.group n).foldl (fun (a : VReg × Option Nat × Fl) i =>
      let q := if t.contributes f o.m i then plusOpt g a.2.1 (some (elemAt (t.vget o.vs2) f.sew i)) else (a.2.1, Fl.none)
      let v := if t.activeAt o.m i then elemSet a.1 f.sew i (q.1.getD 0)
        else if o.agn then elemSet a.1 f.sew i (onesOf f.sew) else a.1
      (v, q.1, a.2.2.or q.2)) (t.vget o.vd, c.tail.headD none, Fl.none)
    let last := decide (f.vl ≤ f.groupEnd n)
    let v := if last then t.tailFill o.agn (f.vl * f.sew) r.1 else r.1
    let s1 := s.onMe (fun t => (t.vset o.vd v).raise r.2.2)
    if last then .over s1 else .more { f with idx := f.groupEnd n, carry := some [c.headD none, r.2.1] } s1

/-- VREDSUM's next move (R192). -/
def goVredsum (o : VaArgs) : Flight → State → Move := reduceMove o addOp

/-- VREDSUM (R191, R192). -/
def execVredsum (o : VaArgs) (s : State) : Out :=
  s.vaIssue (.vredsum o) o.s false Fmt.numeric Fmt.arithClass (goVredsum o) (Hart.seedCarry o false)

/-- VREDMIN's next move (R192). -/
def goVredmin (o : VaArgs) : Flight → State → Move := reduceMove o minOp

/-- VREDMIN (R191, R192). -/
def execVredmin (o : VaArgs) (s : State) : Out :=
  s.vaIssue (.vredmin o) o.s false Fmt.numeric Fmt.arithClass (goVredmin o) (Hart.seedCarry o false)

/-- VREDMAX's next move (R192). -/
def goVredmax (o : VaArgs) : Flight → State → Move := reduceMove o maxOp

/-- VREDMAX (R191, R192). -/
def execVredmax (o : VaArgs) (s : State) : Out :=
  s.vaIssue (.vredmax o) o.s false Fmt.numeric Fmt.arithClass (goVredmax o) (Hart.seedCarry o false)

/-- VSCAN's next group (R193). -/
def goVscan (o : VaArgs) : Flight → State → Move := scanMove o

/-- VSCAN (R191, R193). -/
def execVscan (o : VaArgs) (s : State) : Out := s.vaIssue (.vscan o) o.s false Fmt.numeric Fmt.arithClass (goVscan o) (Hart.seedCarry o true)

end Sys2Proof.Machine
end

