-- ==== Sys2Proof/Machine/Raster.lean ====
section
/-! DEFINITION. The raster window: the submission of set-up primitives to a render pass, and what the pass makes of them
(R355 to R357). -/

namespace Sys2Proof.Machine

/-- The raster window (R355). -/
def rasterBase : Nat := 0x00FFFFF000400000

/-- R355: the pass whose port an address is the base of. -/
def rasterPort (a : Nat) : Option Nat :=
  if rasterBase ≤ a ∧ a < rasterBase + 0x400 ∧ a % 64 = 0 then some ((a - rasterBase) / 64) else none

/-- R355: the active pass to which a unit-stride vst submits its 64 bytes, or none where it is no submission. -/
def State.submitsTo (s : State) (o : VmArgs) : Option Nat :=
  match rasterPort (s.x o.a).toNat, s.tagOf s.cur.core with
  | some k, some tag =>
    let t := s.me
    let sew := ((Fmt.ofCode (vtFmt t.vtype)).map Fmt.sew).getD 0
    if !o.m && decide (o.b = 0) && decide (t.vl.toNat * sew = 512) && decide (t.vpad = 0) && (s.pass tag k).isSome then some k
    else none
  | _, _ => none

/-- R355: a coordinate of a record's box: x0, y0, x1, y1 for k = 0 to 3. -/
def boxAt (bs : List Byte) (k : Nat) : Nat := at_ bs (56 + 2 * k) 2

/-- R357: whether a record's box, clipped to the screen, meets the pixels of a region. -/
def Pass.boxMeets (p : Pass) (bs : List Byte) (region : Nat) : Bool :=
  let gx := region % p.across * p.side
  let gy := region / p.across * p.side
  let x1 := min (boxAt bs 2) (p.width - 1)
  let y1 := min (boxAt bs 3) (p.height - 1)
  decide (boxAt bs 0 ≤ x1) && decide (boxAt bs 1 ≤ y1) && decide (gx ≤ x1) && decide (boxAt bs 0 < gx + p.side)
    && decide (gy ≤ y1) && decide (boxAt bs 1 < gy + p.side)

/-- A record put in its place by ticket (R358). -/
def insertPrim (r : Prim) : List Prim → List Prim
  | [] => [r]
  | q :: l => if r.ticket < q.ticket then r :: q :: l else q :: insertPrim r l

/-- R357: a ticket accepted, and the closure after it. -/
def Pass.acceptTicket (p : Pass) (t : Nat) : Pass :=
  let acc := t :: p.accepted
  let c := (List.range (acc.length + 1)).foldl (fun c _ => if acc.contains c then c + 1 else c) p.closure
  { p with closure := c, accepted := acc.filter (fun a => decide (c ≤ a)) }

/-- R356: whether a ticket has been accepted. -/
def Pass.hasTicket (p : Pass) (t : Nat) : Bool := decide (t < p.closure) || p.accepted.contains t

/-- R356: whether the acceptance of a record waits. -/
def Ctx.submitWaits (c : Ctx) (p : Pass) (die ticket : Nat) : Bool :=
  decide (ticket < p.tickets) && (decide (p.closure + 65536 ≤ ticket) || c.partFull die false)

/-- R356, R357: a pass with a record accepted from a die, at a tick: delivered, discarded and counted, or only accepted. -/
def Pass.take (p : Pass) (die : Nat) (tick : Tick) (bs : List Byte) : Pass :=
  let ticket := at_ bs 48 4
  let flags := at_ bs 52 4
  let bad : Pass := { p with discards := p.discards + 1 }
  if p.tickets ≤ ticket ∨ p.hasTicket ticket then bad
  else if 2 ≤ flags then bad.acceptTicket ticket
  else
    let p1 : Pass := { p.acceptTicket ticket with tick := tickMax p.tick tick }
    if flags % 2 = 1 then p1
    else
      let r : Prim := { die := die, ticket := ticket, data := bs }
      { p1 with owners := p1.owners.map (fun u =>
          if p1.boxMeets bs u.region then { u with inbox := insertPrim r u.inbox } else u) }

/-- The inboxes of a pass that may release a record are asked to. -/
def State.askInboxes (s : State) (tag n : Nat) : State :=
  match s.pass tag n with
  | none => s
  | some p => p.owners.foldl (fun s u =>
      match u.inbox with
      | r :: _ => if r.ticket < p.closure then s.post (.inboxRelease tag n u.lcore) else s
      | [] => s) s

/-- The 64 bytes of a submission: the low 512 bits of its source. -/
def State.primBytes (s : State) (o : VmArgs) : List Byte :=
  let v := s.me.vget o.d
  (List.range 64).map (fun k => v.extractLsb' (8 * k) 8)

/-- R127, R331: a release at .mod: what came before is performed, and the die writes back what it owns up to the core's
tick (log 21). -/
def State.releasedMod (s : State) (k : State → Out) : Out :=
  s.released (fun s => k (s.drain (dieOf s.cur.core) (s.core s.cur.core).ptick))

/-- R356: a record submitted to a pass; it waits at issue until it is accepted. In a run whose stores are folded it is a
store; a shadow's is not performed (R437). -/
def State.submitPrim (s : State) (o : VmArgs) (n : Nat) : Out :=
  s.drained (fun s => s.releasedMod (fun s =>
    let tag := s.myTag
    let die := dieOf s.cur.core
    let bs := s.primBytes o
    match s.ctx tag, s.pass tag n with
    | some c, some p =>
      if c.submitWaits p die (at_ bs 48 4) then .next s
      else
        let tick := (s.core s.cur.core).ptick
        let taken : State :=
          if s.isShadow then s
          else (s.onCtx tag (fun c => { c with passes := Tab.modify c.passes n (fun p => p.take die tick bs) })).askInboxes tag n
        (taken.foldStore (s.x o.a) bs).done 4
    | _, _ => .next s))

end Sys2Proof.Machine
end

