-- ==== Sys2Proof/Machine/VectorMemory.lean ====
section
/-! DEFINITION. Vector memory access (R174 to R187) and vector atomics (R188, R189). Elements are performed in
ascending order, which every ord allows (R181). -/

namespace Sys2Proof.Machine

/-- The modes of a VM instruction (R93). -/
inductive VmMode where
  | unit
  | strided
  | indexed
deriving DecidableEq, Repr

/-- R176: the address of element i; a SEW-4 element's byte. -/
def elemAddr (t : Hart) (f : Flight) (mode : VmMode) (ix : Reg) (i : Nat) : Word :=
  match mode with
  | .unit => f.xa + BitVec.ofNat 64 (i * f.sew / 8)
  | .strided => f.xa + BitVec.ofNat 64 i * f.vstride
  | .indexed => f.xa + BitVec.ofNat 64 (elemAt (t.vget ix) f.sew i)

/-- The bytes of an element's access. -/
def Flight.eb (f : Flight) : Nat := if f.sew < 8 then 1 else f.sew / 8

/-- R175: the formats of a form: every format at unit stride, those of eight bits and more otherwise. -/
def VmMode.fmtOk (m : VmMode) (f : Fmt) : Bool := m == .unit || decide (8 ≤ f.sew)

/-! Translations (R183 to R185). -/

/-- The place of an element's access, and the translations held after it: a page already translated is not translated
again, another's is held from now on. -/
def State.elemPlace (s : State) (pages : List TlbEntry) (kind : AccKind) (va : Word) (n : Nat) : Acc (Place × List TlbEntry) :=
  match tlbFind pages (s.asidOf s.cur.core) va.toNat with
  | some e =>
    .ok (.mem (leafPlace e.pte e.size va.toNat) (e.pte.getLsbD 9 && isDevice (leafPlace e.pte e.size va.toNat)) (e.pte.getLsbD 5),
      pages) s
  | none =>
    (s.dataPlace kind va n).bind (fun pl s =>
      .ok (pl, match s.microEntry s.cur.core s.me.dataPriv va with
        | some e => if pl.isScratch then pages else e :: pages
        | none => pages) s)

/-- The lane that holds an element (R35). -/
def Flight.lane (f : Flight) (i : Nat) : Nat := i * f.sew % 256 / 64

/-- A trap found at an element, unless a lower one has been found. -/
def Flight.foundTrap (f : Flight) (i : Nat) (t : Trap) : Flight :=
  if f.probeTrap.isSome then f else { f with probeTrap := some (i, t) }

/-- One element of the probe pass (R184): its page is translated through the lane's TLB bank, which a miss refills, and the
translation is held; a misalignment comes before what the translation meets (log 24). -/
def probeElem (kind : AccKind) (ix : Reg) (a : Flight × State) (i : Nat) : Flight × State :=
  let f := a.1
  let s := a.2
  let va := elemAddr s.me f .indexed ix i
  let f1 := if va.toNat % f.eb ≠ 0 then f.foundTrap i { cause := kind.misaligned, tval := va } else f
  match s.translate s.cur.core s.me.dataPriv kind va f.eb (some (f.lane i)) with
  | .ok pl s1 =>
    if !pl.isMem then (f1.foundTrap i { cause := kind.access, tval := va }, s1)
    else
      let bank := (s1.core s1.cur.core).laneTlb.getD (f.lane i) []
      match (if pl.isScratch || !s1.isPaged s1.cur.core s1.me.dataPriv then none else tlbFind bank (s1.asidOf s1.cur.core) va.toNat) with
      | some e => (if f1.pages.contains e then f1 else { f1 with pages := e :: f1.pages }, s1)
      | none => (f1, s1)
  | .trap t s1 => (f1.foundTrap i t, s1)
  | .wait s1 => (f1, s1)

/-- R184, R186: the probe pass over every active element that is not pad from where a flight stands on. It finds the first
element that faults before any is performed. -/
def probe (f : Flight) (m : Bool) (kind : AccKind) (ix : Reg) (s : State) : Flight × State :=
  let l := ((List.range (f.vl - f.idx)).map (fun j => f.idx + j)).filter (s.me.contributes f m)
  let r := l.foldl (probeElem kind ix) (f, s)
  ({ r.1 with probed := true }, r.2)

/-- A flight of an indexed form or a vamo as its elements begin: the probe pass has run (R184). -/
def Flight.probing (f : Flight) (m : Bool) (kind : AccKind) (ix : Reg) (s : State) : Flight × State :=
  if f.probed then (f, s) else probe f m kind ix s

/-- R186: the trap that the probe pass found at an element. -/
def Flight.trapAt (f : Flight) (i : Nat) : Option Trap := (f.probeTrap.filter (fun p => p.1 == i)).map Prod.snd

/-! Element groups. -/

/-- One element position, with what is kept from one to the next: the translations held (R185). -/
abbrev ElemAct := List TlbEntry → Nat → State → Acc (List TlbEntry)

/-- What the elements of a group came to, with what they kept: all done, or a trap or a wait at an element. -/
inductive ElemEnd (α : Type) where
  | done (kept : α) (s : State)
  | stop (t : Trap) (k : Nat) (kept : α) (s : State)
  | hold (k : Nat) (kept : α) (s : State)

/-- The elements of a list in order, up to the first that cannot be performed (R186), or to the retirement of a shadow
(R437). -/
def eachElem {α : Type} (act : α → Nat → State → Acc α) : List Nat → α → State → ElemEnd α
  | [], g, s => .done g s
  | i :: l, g, s =>
    match act g i s with
    | .ok g1 s1 => if s1.retiredSince s then .done g1 s1 else eachElem act l g1 s1
    | .trap t s1 => .stop t i g s1
    | .wait s1 => .hold i g s1

/-- One element group of a VM instruction (R45, R186): `act` performs one element position, `after` follows the last of
the group with the count handled so far. A group that must wait goes on where it waited, its accesses not repeated. -/
def vmMove (act : ElemAct) (after : List TlbEntry → Nat → State → Acc Unit) (f : Flight) (s : State) : Move :=
  if f.vl = 0 then .over s
  else
    let n := perGroup f.sew
    match eachElem act ((f.group n).drop f.sub) f.pages s with
    | .stop t k g s => .trap t { f with idx := k, sub := 0, pages := g } s
    | .hold k g s => .wait (s.onMe (fun t => t.setFlight { f with sub := k - f.idx, pages := g }))
    | .done g s1 =>
      if s1.retiredSince s then .over s1
      else
        let hi := min f.vl (f.groupEnd n)
        match after g hi s1 with
        | .ok _ s => if f.vl ≤ hi then .over s else .more { f with idx := hi, sub := 0, pages := g } s
        | .trap t s => .trap t { f with sub := hi - f.idx, pages := g } s
        | .wait s => .wait (s.onMe (fun t => t.setFlight { f with sub := hi - f.idx, pages := g }))

/-- Element i of a destination register. -/
def State.setElem (s : State) (vd : Reg) (sew i x : Nat) : State :=
  s.onMe (fun t => t.vset vd (elemSet (t.vget vd) sew i x))

/-- R138, R178, R179: one element position of a load. An element that is misaligned on a page that faults takes the
misalignment: R186 does not order the two (log 24). -/
def loadElem (m : Bool) (vd : Reg) (mode : VmMode) (ix : Reg) (f : Flight) : ElemAct := fun g i s =>
  let t := s.me
  if !t.activeAt m i then .ok g s
  else if f.pad i then .ok g (s.setElem vd f.sew i 0)
  else
    let va := elemAddr t f mode ix i
    match f.trapAt i with
    | some e => .trap e s
    | none =>
    if va.toNat % f.eb ≠ 0 then .fail 4 va s
    else
      (s.elemPlace g .load va f.eb).bind (fun p s =>
        (s.readAt va p.1 f.eb).bind (fun bs s =>
          let x := natLE bs
          .ok p.2 (s.setElem vd f.sew i (if f.sew = 4 then fixI3g f.fmt (x >>> (4 * (i % 2)) % 16) else x))))

/-- One group of a load. -/
def loadMove (o : VmArgs) (mode : VmMode) (f : Flight) (s : State) : Move :=
  let p := if mode = .indexed then f.probing o.m .load o.b s else (f, s)
  vmMove (loadElem o.m o.d mode o.b p.1) (fun _ _ s => .ok () s) p.1 p.2

/-- The byte where a write would be performed, as it stands there. -/
def State.peek (s : State) (q pa : Nat) : Byte :=
  let own (d : Nat) : Option Byte := (Tab.get? (s.die d).owned (pa / 128)).map (fun o => lineByte o.val (pa % 128))
  match own q with
  | some b => b
  | none =>
    match ((s.homeLine (pa / 128)).owner).bind own with
    | some b => b
    | none => Memory.get s.mem pa

/-- The byte at a place as a nibble finds it there; uncorrectable data is a machine check (R439). -/
def State.nibbleByte (s : State) (pl : Place) : Acc Byte :=
  match pl with
  | .mem pa _ _ =>
    if s.isBad pa then .fail 19 (BitVec.ofNat 64 (pa / 128 * 128)) s else .ok (s.peek (dieOf s.cur.core) pa) s
  | .scratch k off => (s.readScratch k off 1).bind (fun bs s => .ok (bs.headD 0) s)
  | _ => .ok 0 s

/-- R177: a nibble merged into its byte where a store is performed; every earlier store is performed first. A shadow's is not
performed (R437). -/
def State.writeNibble (s : State) (pl : Place) (va : Word) (hi : Bool) (x : Nat) : Acc Unit :=
  if s.isShadow then .ok () (s.foldHalf va hi x)
  else
    (s.flush s.cur.core).bind (fun _ s =>
      (s.nibbleByte pl).bind (fun b s =>
        let new : List Byte := [BitVec.ofNat 8 (if hi then b.toNat % 16 + 16 * x else b.toNat / 16 * 16 + x)]
        (s.writePlace s.cur pl new).bind (fun _ s => .ok () (s.foldHalf va hi x))))

/-- R178, R179: one element position of a store; a nibble of I3g carries a copy of bit 2 in bit 3 in memory too (R60). -/
def storeElem (m : Bool) (vs3 : Reg) (mode : VmMode) (ix : Reg) (f : Flight) : ElemAct := fun g i s =>
  let t := s.me
  if !t.contributes f m i then .ok g s
  else
    let va := elemAddr t f mode ix i
    let x := elemAt (t.vget vs3) f.sew i
    match f.trapAt i with
    | some e => .trap e s
    | none =>
    if va.toNat % f.eb ≠ 0 then .fail 6 va s
    else
      (s.elemPlace g .store va f.eb).bind (fun p s =>
        (if f.sew = 4 then s.writeNibble p.1 va (i % 2 == 1) (fixI3g f.fmt x) else s.putVector va p.1 (bytesLE f.eb x)).bind
          (fun _ s => .ok p.2 s))

/-- The matrix unit, where a flight's release waits for commands of its hardware context (R128, R211). -/
def State.matrixDue (s : State) : Option Event :=
  if (s.img s.cur.core).mq.any (fun k => k.h == s.cur.h) then some (.matrixCommandExecute s.cur.core) else none

/-- The unit that a flight's release waits for: the matrix unit, or the traversal of a ray (R128, R211, R259). -/
def State.unfinished (s : State) : Option Event :=
  match s.matrixDue with
  | some e => some e
  | none => s.me.rayReading.map (fun slot => .rayTraversal s.cur slot)

/-- R187: the notify write of a count, a release at .die scope: every earlier access of the hardware context is performed
first, those of its matrix commands and rays among them. -/
def notify (xb : Word) (pages : List TlbEntry) (c : Nat) (s : State) : Acc Unit :=
  match s.unfinished with
  | some e => .wait (s.post e)
  | none => (s.elemPlace pages .store xb 8).bind (fun p s => s.putVector xb p.1 (bytesLE 8 c))

/-- R187: the page of the progress word is translated before any element of a part; a fault there leaves the flight where
it stands. -/
def withProgress (xb : Word) (f : Flight) (s : State) (k : Flight → State → Move) : Move :=
  match s.elemPlace f.pages .store xb 8 with
  | .ok p s => k { f with pages := p.2 } s
  | .trap t s => .trap t f s
  | .wait s => .wait s

/-- One group of a store; x[xn] is the progress word of a unit-stride or strided form (R187). -/
def storeMove (o : VmArgs) (mode : VmMode) (f : Flight) (s : State) : Move :=
  if mode = .indexed then
    let p := f.probing o.m .store o.b s
    vmMove (storeElem o.m o.d mode o.b p.1) (fun _ _ s => .ok () s) p.1 p.2
  else if o.b = 0 then vmMove (storeElem o.m o.d mode o.b f) (fun _ _ s => .ok () s) f s
  else if f.vl = 0 then .over s
  else withProgress f.xb f s (fun f s => vmMove (storeElem o.m o.d mode o.b f) (notify f.xb) f s)

/-- A VM instruction at issue (R26, R37, R175). -/
def State.vmIssue (s : State) (i : Instr) (fmtOk : Fmt → Bool) (cls : Nat) (l : BitVec 4) (xa xb : Word)
    (check : State → (List TlbEntry → State → Out) → Out) (mv : Flight → State → Move) : Out :=
  match s.fmt with
  | none => s.illegal
  | some f =>
    s.issueVec i true (s.me.fmtFits f && fmtOk f) (some cls)
      (fun s => check s (fun g s =>
        s.fly i l.toNat true xa xb (2 * groupMoves) mv (fun t => if g.isEmpty then t else t.holdPages g)))

/-- No check at issue beyond the format's. -/
def noCheck (s : State) (k : List TlbEntry → State → Out) : Out := k [] s

/-- R187: the progress word at issue: aligned, and its page translated before any element. A fault there stops the
instruction at element 0 (R49). -/
def progressCheck (i : Instr) (xa xb : Word) (s : State) (k : List TlbEntry → State → Out) : Out :=
  if xb.toNat % 8 ≠ 0 then s.trap 6 xb
  else if s.me.vl = 0 then k [] s
  else
    match s.elemPlace [] .store xb 8 with
    | .ok p s => k p.2 s
    | .wait s => .next s
    | .trap t s => s.trapFirst i xa xb t

/-- A load at issue. -/
def State.vmLoad (s : State) (i : Instr) (o : VmArgs) (mode : VmMode) (mv : Flight → State → Move) : Out :=
  s.vmIssue i mode.fmtOk 0 o.l (s.x o.a) 0 noCheck mv

/-- A store at issue; x0 names no progress word. -/
def State.vmStore (s : State) (i : Instr) (o : VmArgs) (mode : VmMode) (mv : Flight → State → Move) : Out :=
  let xb := if mode = .indexed then 0 else s.x o.b
  s.vmIssue i mode.fmtOk 0 o.l (s.x o.a) xb
    (if mode = .indexed ∨ o.b = 0 then noCheck else progressCheck i (s.x o.a) xb) mv

/-- One group of VLD (R179). -/
def goVld (o : VmArgs) : Flight → State → Move := loadMove o .unit

/-- VLD (R174). -/
def execVld (o : VmArgs) (s : State) : Out := s.vmLoad (.vld o) o .unit (goVld o)

/-- One group of VLD.ST (R179). -/
def goVldSt (o : VmArgs) : Flight → State → Move := loadMove o .strided

/-- VLD.ST (R174). -/
def execVldSt (o : VmArgs) (s : State) : Out := s.vmLoad (.vldSt o) o .strided (goVldSt o)

/-- One group of VLD.IX (R179). -/
def goVldIx (o : VmArgs) : Flight → State → Move := loadMove o .indexed

/-- VLD.IX (R174). -/
def execVldIx (o : VmArgs) (s : State) : Out := s.vmLoad (.vldIx o) o .indexed (goVldIx o)

/-- One group of VST (R179). -/
def goVst (o : VmArgs) : Flight → State → Move := storeMove o .unit

/-- VST (R174). A vst that submits a primitive to a render pass waits at issue until the pass accepts it (R355, R356). -/
def execVst (o : VmArgs) (s : State) : Out :=
  match s.submitsTo o, s.fmt with
  | some n, some f => s.issueVec (.vst o) true (s.me.fmtFits f) (some 0) (fun s => s.submitPrim o n)
  | _, _ => s.vmStore (.vst o) o .unit (goVst o)

/-- One group of VST.ST (R179). -/
def goVstSt (o : VmArgs) : Flight → State → Move := storeMove o .strided

/-- VST.ST (R174). -/
def execVstSt (o : VmArgs) (s : State) : Out := s.vmStore (.vstSt o) o .strided (goVstSt o)

/-- One group of VST.IX (R179). -/
def goVstIx (o : VmArgs) : Flight → State → Move := storeMove o .indexed

/-- VST.IX (R174). -/
def execVstIx (o : VmArgs) (s : State) : Out := s.vmStore (.vstIx o) o .indexed (goVstIx o)

/-! Vector atomics. -/

/-- The formats of a vamo (R175, R188). -/
def Fmt.atomicOk : Fmt → Bool
  | .int _ w => decide (32 ≤ w)
  | .fp .fp32 => true
  | .fp .fp64 => true
  | _ => false

/-- R189: one element position of a vamo. -/
def vamoElem (o : VamoArgs) (op : BinOp) (f : Flight) : ElemAct := fun g i s =>
  let t := s.me
  if !t.activeAt o.m i then .ok g s
  else if f.pad i then .ok g (s.setElem o.d f.sew i 0)
  else
    let b := elemAt (t.vget o.d) f.sew i
    let va := elemAddr t f .indexed o.b i
    match f.trapAt i with
    | some e => .trap e s
    | none =>
    if va.toNat % f.eb ≠ 0 then .fail 6 va s
    else
      (s.elemPlace g .store va f.eb).bind (fun p s =>
        (s.atomicIn p.1 f.eb false false (fun old => some (bytesLE f.eb (op f.fmt f.rm (natLE old) b).1))).bind (fun old s =>
          .ok p.2 ((s.setElem o.d f.sew i (natLE old)).onMe (fun t => t.raise (op f.fmt f.rm (natLE old) b).2))))

/-- One group of a vamo. -/
def vamoMove (o : VamoArgs) (op : BinOp) (f : Flight) (s : State) : Move :=
  let p := f.probing o.m .store o.b s
  vmMove (vamoElem o op p.1) (fun _ _ s => .ok () s) p.1 p.2

/-- A vamo at issue. -/
def State.vamo (s : State) (i : Instr) (o : VamoArgs) (mv : Flight → State → Move) : Out :=
  s.vmIssue i Fmt.atomicOk 1 o.l (s.x o.a) 0 noCheck mv

/-- One group of VAMOADD (R188). -/
def goVamoadd (o : VamoArgs) : Flight → State → Move := vamoMove o addOp

/-- VAMOADD (R188, R189). -/
def execVamoadd (o : VamoArgs) (s : State) : Out := s.vamo (.vamoadd o) o (goVamoadd o)

/-- One group of VAMOMIN (R188). -/
def goVamomin (o : VamoArgs) : Flight → State → Move := vamoMove o minOp

/-- VAMOMIN (R188, R189). -/
def execVamomin (o : VamoArgs) (s : State) : Out := s.vamo (.vamomin o) o (goVamomin o)

/-- One group of VAMOMAX (R188). -/
def goVamomax (o : VamoArgs) : Flight → State → Move := vamoMove o maxOp

/-- VAMOMAX (R188, R189). -/
def execVamomax (o : VamoArgs) (s : State) : Out := s.vamo (.vamomax o) o (goVamomax o)

/-- One group of VAMOSWAP (R188). -/
def goVamoswap (o : VamoArgs) : Flight → State → Move := vamoMove o (fun _ _ _ b => (b, Fl.none))

/-- VAMOSWAP (R188, R189). -/
def execVamoswap (o : VamoArgs) (s : State) : Out := s.vamo (.vamoswap o) o (goVamoswap o)

end Sys2Proof.Machine
end

