-- ==== Sys2Proof/Machine/Block.lean ====
section
/-! DEFINITION. Block- and group-scaled values (R58 to R60, R170), block dot products (R75, R173), and block scales
and packing (R171, R172). -/

namespace Sys2Proof.Machine

/-- The element formats of block-scaled formats; none is I4 (R50). -/
def blockElem (el : Nat) : Option FFmt :=
  match el with
  | 0 => some .e4m3
  | 1 => some .e5m2
  | 2 => some .e2m1
  | _ => none

/-- The floating scale formats; none is UE8M0 (R50). -/
def blockScale (sc : Nat) : Option FFmt :=
  match sc with
  | 1 => some .e4m3
  | 2 => some .e5m2
  | _ => none

/-- The value of an integer: zero counts as +0 (log 15). -/
def intFVal (i : Int) : FVal := .fin (decide (i < 0)) i.natAbs 0

/-- The value of a block element. -/
def elemVal (el bits : Nat) : FVal :=
  match blockElem el with
  | some f => f.decode bits
  | none => intFVal (asSigned 4 (bits % 16))

/-- The value of a block scale (R58). -/
def scaleVal (sc bits : Nat) : FVal :=
  match blockScale sc with
  | some f => f.decode bits
  | none => if bits = 0xFF then .nan false else .fin false 1 ((bits : Int) - 127)

/-- An exact product of two values as a value; ∞·0 is none. -/
def prodVal (a b : FVal) : Option FVal :=
  match mulVal a b with
  | .nan _ => none
  | .inf n => some (.inf n)
  | .ex x => some (.fin x.neg x.m.n x.m.e)

/-- block_scaled_value of R59; the flag says that the scale made a NaN. A quiet NaN element raises nothing: R74 names the
scale, the zero point and their product, where R65 could be read to name every NaN of R59 (log 15). -/
def blockVal (e s : FVal) : FVal × Bool :=
  if s.isNan then (.nan false, true)
  else if e.isNan then (e, false)
  else
    match prodVal e s with
    | some v => (v, false)
    | none => (.nan false, true)

/-- A finite value as an integer, if it is one. -/
def FVal.asInt : FVal → Option Int
  | .fin neg m e => if isIntDyadic m e then some (floorDyadic neg m e) else none
  | _ => none

/-- group_value of R60, from the container's integer and the companion's 32 bits. -/
def groupVal (q : Int) (comp : Nat) : FVal × Bool :=
  let s := FFmt.bf16.decode (comp % 2 ^ 16)
  match (FFmt.bf16.decode (comp / 2 ^ 16)).asInt with
  | none => (.nan false, true)
  | some z =>
    if s.isNan ∨ z < -128 ∨ 127 < z then (.nan false, true)
    else
      match prodVal (intFVal (q - z)) s with
      | some v => (v, false)
      | none => (.nan false, true)

/-- The value of an element of a storage or arithmetic floating format, or of a scaled one with its companion's bits. -/
def Fmt.realVal (f : Fmt) (bits comp : Nat) : FVal × Bool :=
  match f with
  | .int sg w => (intFVal (intVal sg w bits), false)
  | .fp g => (g.decode bits, false)
  | .blk el sc => blockVal (elemVal el bits) (scaleVal sc (comp % 256))
  | .i4g => groupVal (asSigned 4 (bits % 16)) comp
  | .i3g => groupVal (asSigned 3 (bits % 8)) comp

/-- The width of a companion's elements (R170). -/
def Fmt.compWidth (f : Fmt) : Nat := if f.isBlock then 8 else 32

/-- The block length that a flight captured. -/
def Flight.blk (f : Flight) : Nat := blkLen (vtBlk f.vtype)

/-- The companion's element of the block of element i. -/
def compOf (t : Hart) (f : Flight) (vs : Reg) (i : Nat) : Nat :=
  elemAt (t.vget (nextReg vs)) f.fmt.compWidth (i / f.blk)

/-- The blocks below vl (R170). -/
def Flight.nb (f : Flight) : Nat := (f.vl + f.blk - 1) / f.blk

/-- The elements of block j below vl that contribute. -/
def Hart.blockElems (t : Hart) (f : Flight) (m : Bool) (j : Nat) : List Nat :=
  ((List.range f.blk).map (fun k => j * f.blk + k)).filter (fun i => decide (i < f.vl) && t.contributes f m i)

/-! Dot products. -/

/-- A sum of products in progress: exact, an infinity, or NaN (R75). -/
inductive DotSum where
  | exact (i e : Int)
  | inf (neg : Bool)
  | nan
deriving DecidableEq, Repr

/-- One product joins the sum. -/
def DotSum.add (p : DotSum) (a b : FVal) : DotSum :=
  match p, mulVal a b with
  | .nan, _ => .nan
  | _, .nan _ => .nan
  | .inf n, .inf k => if n = k then .inf n else .nan
  | .inf n, .ex _ => .inf n
  | .exact _ _, .inf n => .inf n
  | .exact i e, .ex x =>
    let r := addDyadic (decide (i < 0)) i.natAbs e x.neg x.m.n x.m.e
    .exact r.1 r.2

/-- The exact sum of products as a value, with the sign that an exact zero takes (R62, R75). -/
def dotSigned (zeroNeg : Bool) (ps : List (FVal × FVal)) : FVal :=
  match ps.foldl (fun a p => a.add p.1 p.2) (DotSum.exact 0 0) with
  | .exact i e => .fin (if i = 0 then zeroNeg else decide (i < 0)) i.natAbs e
  | .inf n => .inf n
  | .nan => .nan false

/-- The exact sum of products that is rounded by RNE: a zero sum of products that are all −0 is −0, any other is +0 (R62;
log 15). -/
def dotVal (ps : List (FVal × FVal)) : FVal := dotSigned (!ps.isEmpty && ps.all (fun p => p.1.neg != p.2.neg)) ps

/-- block_result of R75; an exact zero sum is +0, or −0 under RDN. -/
def blockResult (rm : RMode) (ps : List (FVal × FVal)) (sa sb : FVal) : Nat × Fl :=
  let bad := (FFmt.fp32.nanCode, Fl.invalid)
  if sa.isNan || sb.isNan || ps.any (fun p => p.1.isNan || p.2.isNan) then bad
  else
    match prodVal sa sb with
    | none => bad
    | some q =>
      let p := dotSigned rm.isDown ps
      if p.isNan then bad else FFmt.fp32.deliver rm Fl.none (mulVal p q)

/-- The pair of an element of two block-scaled registers. -/
def blockPair (t : Hart) (f : Flight) (el : Nat) (vs2 vs1 : Reg) (i : Nat) : FVal × FVal :=
  (elemVal el (elemAt (t.vget vs2) f.sew i), elemVal el (elemAt (t.vget vs1) f.sew i))

/-- The element and scale codes of a block-scaled format. -/
def Fmt.blkCodes : Fmt → Nat × Nat
  | .blk el sc => (el, sc)
  | _ => (0, 0)

/-- The scales that vd, written at the first stop, may cover: the first four of either companion, as they stood before
(R13, R173); an instruction that stopped keeps them, so that its result is that of an uninterrupted run (R143). -/
def dotScales (t : Hart) (o : VvArgs) : List Byte :=
  (List.range 4).map (fun j => BitVec.ofNat 8 (elemAt (t.vget (nextReg o.vs2)) 8 j))
    ++ (List.range 4).map (fun j => BitVec.ofNat 8 (elemAt (t.vget (nextReg o.vs1)) 8 j))

/-- The scale of block j of vs2 (k = 0) or vs1 (k = 1). -/
def dotScale (t : Hart) (f : Flight) (k : Nat) (vs : Reg) (j : Nat) : Nat :=
  if j < 4 then (f.desc.getD (4 * k + j) 0).toNat else elemAt (t.vget (nextReg vs)) 8 j

/-- Block j of a VBDOT joins the sum (R173). -/
def dotBlock (t : Hart) (f : Flight) (o : VvArgs) (a : Nat × Fl) (j : Nat) : Nat × Fl :=
  let c := f.fmt.blkCodes
  match t.blockElems f o.m j with
  | [] => a
  | es =>
    let b := blockResult f.rm (es.map (blockPair t f c.1 o.vs2 o.vs1))
      (scaleVal c.2 (dotScale t f 0 o.vs2 j)) (scaleVal c.2 (dotScale t f 1 o.vs1 j))
    let x := FFmt.fp32.add f.rm a.1 b.1
    (x.1, (a.2.or b.2).or x.2)

/-- The blocks of the part of a flight that one move covers. -/
def Flight.blocks (f : Flight) : List Nat :=
  let lo := f.idx / f.blk
  let hi := min f.nb (f.groupEnd f.stopStep / f.blk)
  (List.range (hi - lo)).map (fun k => lo + k)

/-- One part of VBDOT, up to a group boundary that is a block boundary, where vd holds the running sum (R143, R173). -/
def goVbdot (o : VvArgs) : Flight → State → Move := fun f s =>
  if f.vl = 0 then .over s
  else
    let t := s.me
    let f := if f.desc.isEmpty then { f with desc := dotScales t o } else f
    let r := f.blocks.foldl (dotBlock t f o) (elemAt (t.vget o.vd) 32 0, Fl.none)
    let v := elemSet (t.vget o.vd) 32 0 r.1
    let last := decide (f.vl ≤ f.groupEnd f.stopStep)
    let s1 := s.onMe (fun t => (t.vset o.vd (if last then t.tailFill o.agn 32 v else v)).raise r.2)
    if last then .over s1 else .more { f with idx := f.groupEnd f.stopStep } s1

/-- VBDOT (R173). -/
def execVbdot (o : VvArgs) (s : State) : Out :=
  s.vaIssue (.vbdot o) (.vv o.vs1) false Fmt.isBlock (fun f => 27 + 3 * f.blkCodes.1 + f.blkCodes.2) (goVbdot o)

/-! Block scales. -/

/-- The code of a scale of 1.0 (R171). -/
def scaleOne (sc : Nat) : Nat := if sc = 0 then 0x7F else if sc = 1 then 0x38 else 0x3C

/-- The code of a NaN scale (R171). -/
def scaleNan (sc : Nat) : Nat := if sc = 0 then 0xFF else if sc = 1 then 0x7F else 0x7E

/-- emax of R171, by element format. -/
def elemEmax (el : Nat) : Int := if el = 0 then 8 else if el = 1 then 15 else 2

/-- vmax of R171. -/
def elemVmax (el : Nat) : Nat := if el = 0 then 448 else if el = 1 then 57344 else if el = 2 then 6 else 7

/-- The larger of two magnitudes. -/
def magMax (a b : Nat × Int) : Nat × Int :=
  if cmpVal (.fin false a.1 a.2) (.fin false b.1 b.2) < 0 then b else a

/-- block_scale of R171: the code of the scale, and NV. -/
def blockScaleOf (el sc : Nat) (xs : List Nat) : Nat × Fl :=
  let vs := xs.map FFmt.fp32.decode
  if vs.isEmpty then (scaleOne sc, Fl.none)
  else if vs.any (fun v => v.isNan || v.isInf) then (scaleNan sc, Fl.invalid)
  else
    let a := vs.foldl (fun a v => match v with | .fin _ m e => magMax a (m, e) | _ => a) (0, (0 : Int))
    if a.1 = 0 then (scaleOne sc, Fl.none)
    else
      match blockScale sc with
      | none =>
        let k := (Nat.log2 a.1 : Int) + a.2 - elemEmax el
        ((max (-127) (min 127 k) + 127).toNat, Fl.none)
      | some g =>
        let y := (g.round .rup false { n := a.1, d := elemVmax el, e := a.2 }).1
        (if y = 0 then 1 else if g.maxCode < y then g.maxCode else y, Fl.none)

/-- The scale of block j of a register of FP32 values. -/
def scaleOfBlock (t : Hart) (f : Flight) (o : VuArgs) (j : Nat) : Nat × Fl :=
  blockScaleOf f.fmt.blkCodes.1 f.fmt.blkCodes.2 ((t.blockElems f o.m j).map (fun i => elemAt (t.vget o.vs2) 32 i))

/-- The formats and the declared width of vbexp and vbpack (R171). -/
def State.packOk (s : State) (f : Fmt) : Bool := f.isBlock && decide (32 ≤ cfgWidth s.me.vcfgst)

/-- One part of VBEXP (R171). -/
def goVbexp (o : VuArgs) : Flight → State → Move := fun f s =>
  if f.vl = 0 then .over s
  else
    let t := s.me
    let r := f.blocks.foldl (fun (a : VReg × Fl) j =>
      let b := scaleOfBlock t f o j
      (elemSet a.1 8 j b.1, a.2.or b.2)) (t.vget o.vd, Fl.none)
    let last := decide (f.vl ≤ f.groupEnd f.stopStep)
    let v := if last then t.tailFill o.agn (f.nb * 8) r.1 else r.1
    let s1 := s.onMe (fun t => (t.vset o.vd v).raise r.2)
    if last then .over s1 else .more { f with idx := f.groupEnd f.stopStep } s1

/-- VBEXP (R171). -/
def execVbexp (o : VuArgs) (s : State) : Out :=
  s.vuIssue (.vbexp o) s.packOk (fun f => 39 + f.blkCodes.1) (goVbexp o)

/-- The code of an element packed under a NaN scale (R172). -/
def packNan (el : Nat) : Nat := if el = 0 then 0x7F else if el = 1 then 0x7E else 0

/-- quantise of R172: the exact quotient of an FP32 value and a scale, rounded once. -/
def quantise (el : Nat) (rm : RMode) (x : FVal) (s : FVal) : Nat × Fl :=
  match x, s with
  | .fin n m e, .fin _ ms es =>
    let q : Exact := { neg := n, m := { n := m, d := ms, e := e - es } }
    match blockElem el with
    | some g =>
      let r := g.roundE rm q
      (if r.2.of then g.signBit n + g.maxCode else r.1, r.2)
    | none =>
      let r := if m = 0 then ((0 : Int), false) else roundInt rm q
      let k := max (-8) (min 7 r.1)
      (wrapTo 4 k, { Fl.none with of := decide (k ≠ r.1), nx := r.2 || decide (k ≠ r.1) })
  | _, _ => (0, Fl.none)

/-- Whether vbpack rounds stochastically: under stochastic mode, to a floating element format (R172, R68). -/
def packDraws (vtype : Word) : Bool :=
  match Fmt.ofCode (vtFmt vtype) with
  | some (.blk el _) => vtRm vtype == 5 && el != 3
  | _ => false

/-- The rounding mode of element i: stochastic with its draw, or as captured (R68). -/
def Flight.rmAt (f : Flight) (draws : Bool) (i : Nat) : RMode := if draws then .sto (drawOf f.seed i) else f.rm

/-- R68: the generator advanced by n draws. -/
def Hart.advance (t : Hart) (n : Nat) : Hart := { t with vsrng := xsState t.vsrng n }

/-- One block of VBPACK: its elements, with the scale's code (R172). -/
def packBlock (t : Hart) (f : Flight) (o : VuArgs) (sc : Nat) (j : Nat) (a : VReg × Fl) : VReg × Fl :=
  let c := f.fmt.blkCodes
  let s := scaleVal c.2 sc
  let es := ((List.range f.blk).map (fun k => j * f.blk + k)).filter (fun i => decide (i < f.vl))
  es.foldl (fun a i =>
    if t.activeAt o.m i then
      if f.pad i then (elemSet a.1 f.sew i 0, a.2)
      else if s.isNan then (elemSet a.1 f.sew i (packNan c.1), a.2)
      else
        let q := quantise c.1 (f.rmAt (packDraws f.vtype) i) (FFmt.fp32.decode (elemAt (t.vget o.vs2) 32 i)) s
        (elemSet a.1 f.sew i q.1, a.2.or q.2)
    else if o.agn then (elemSet a.1 f.sew i (onesOf f.sew), a.2)
    else a) a

/-- One part of VBPACK (R172). -/
def goVbpack (o : VuArgs) : Flight → State → Move := fun f s =>
  if f.vl = 0 then .over s
  else
    let t := s.me
    let comp := nextReg o.vd
    let r := f.blocks.foldl (fun (a : VReg × VReg × Fl) j =>
      let b := scaleOfBlock t f o j
      let p := packBlock t f o b.1 j (a.1, a.2.2.or b.2)
      (p.1, elemSet a.2.1 8 j b.1, p.2)) (t.vget o.vd, t.vget comp, Fl.none)
    let last := decide (f.vl ≤ f.groupEnd f.stopStep)
    let v := if last then t.tailFill o.agn (f.vl * f.sew) r.1 else r.1
    let w := if last then t.tailFill o.agn (f.nb * 8) r.2.1 else r.2.1
    let s1 := s.onMe (fun t => ((t.vset o.vd v).vset comp w).raise r.2.2)
    if last then .over s1 else .more { f with idx := f.groupEnd f.stopStep } s1

/-- VBPACK (R172); rounding stochastically it advances vsrng (R68). -/
def execVbpack (o : VuArgs) (s : State) : Out :=
  match s.fmt with
  | none => s.illegal
  | some f =>
    s.issueVec (.vbpack o) true (s.me.fmtFits f && s.packOk f) (some (39 + f.blkCodes.1)) (fun s =>
      s.fly (.vbpack o) 0 false 0 0 groupMoves (goVbpack o) (fun t => if packDraws t.vtype then t.advance t.vl.toNat else t))

end Sys2Proof.Machine
end

