-- ==== Sys2Proof/Machine/Convert.lean ====
section
/-! DEFINITION. vcvt (R70 to R74, R167 to R169). -/

namespace Sys2Proof.Machine

/-- R73: an integer converted to an integer: a widening conversion extends by the source's signedness, every other
saturates. -/
def intToInt (sg : Bool) (w : Nat) (tsg : Bool) (tw x : Nat) : Nat :=
  let v := intVal sg w x
  if w < tw then wrapTo tw v else wrapTo tw (saturate tsg tw v)

/-- R70 to R74, R168: one element converted; `comp` is the companion's element of a scaled source. -/
def convertElem (src dst : Fmt) (rmInt rm : RMode) (x comp : Nat) : Nat × Fl :=
  match src, dst with
  | .int sg w, .int tsg tw => (intToInt sg w tsg tw x, Fl.none)
  | .int sg w, .fp g => g.ofInt rm (intVal sg w x)
  | f, .int tsg tw =>
    let v := f.realVal x comp
    let r := toInteger rmInt tsg tw v.1
    (wrapTo tw r.1, if v.2 then r.2.or Fl.invalid else r.2)
  | f, .fp g =>
    let v := f.realVal x comp
    let r := g.convert rm v.1
    (r.1, if v.2 then r.2.or Fl.invalid else r.2)
  | _, _ => (x, Fl.none)

/-- The target format of a vcvt (R90). -/
def cvtTarget (o : VcArgs) : Fmt := (Fmt.ofCode o.t.toNat).getD (.int true 8)

/-- The floating formats that stochastic conversions round to (R63). -/
def Fmt.drawn : Fmt → Bool
  | .fp .fp32 => false
  | .fp .fp64 => false
  | .fp _ => true
  | _ => false

/-- Whether a vcvt rounds stochastically (R168). -/
def cvtDraws (o : VcArgs) (vtype : Word) : Bool := vtRm vtype == 5 && (cvtTarget o).drawn

/-- The checks of R167 at issue. -/
def State.cvtOk (s : State) (o : VcArgs) (f : Fmt) : Bool :=
  let g := cvtTarget o
  decide (g.sew ≤ cfgWidth s.me.vcfgst) && !(o.vd == o.vs2 && g.sew != f.sew)
    && !(f.isScaled && (o.vs2 == 31 || o.vd == nextReg o.vs2))

/-- One group of VCVT (R167), counted on its wider side. -/
def goVcvt (o : VcArgs) : Flight → State → Move := fun f s =>
  let g := cvtTarget o
  vaMove o.m o.agn o.vd g.sew (256 / max f.sew g.sew) (fun t f i =>
    some (convertElem f.fmt g f.rm (f.rmAt (cvtDraws o f.vtype) i) (elemAt (t.vget o.vs2) f.sew i)
      (if f.fmt.isScaled then compOf t f o.vs2 i else 0))) f s

/-- VCVT (R167 to R169); rounding stochastically it advances vsrng (R68). -/
def execVcvt (o : VcArgs) (s : State) : Out :=
  match s.fmt with
  | none => s.illegal
  | some f =>
    s.issueVec (.vcvt o) true (s.me.fmtFits f && s.cvtOk o f) (some f.cvtClass) (fun s =>
      s.fly (.vcvt o) 0 false 0 0 groupMoves (goVcvt o) (fun t => if cvtDraws o t.vtype then t.advance t.vl.toNat else t))

end Sys2Proof.Machine
end

