-- ==== Sys2Proof/Machine/Matrix.lean ====
section
/-! DEFINITION. The matrix unit: configuration, tiles, the command queue, and the commands (R196 to R216). -/

namespace Sys2Proof.Machine

/-! Formats. -/

/-- A code that is an A operand under FP32 accumulation (R199). -/
def matA (c : Nat) : Bool :=
  c == 0x09 || c == 0x0C || c == 0x0D || c == 0x0E || (decide (0x10 ≤ c) && decide (c ≤ 0x1A) && c % 4 != 3)

/-- Whether a pair is accepted (R199). -/
def matPair (iacc : Bool) (a b : Nat) : Bool :=
  if iacc then a == 0x0E && (b == 0x0E || b == 0x20 || b == 0x21)
  else matA a && (matA b || b == 0x20 || b == 0x21)

/-- The index of an operand's element format in the classes (R429). -/
def matIdx (c : Nat) : Nat :=
  match Fmt.ofCode c with
  | some (.fp .e4m3) => 0
  | some (.fp .e5m2) => 1
  | some (.fp .e2m1) => 2
  | some (.blk el _) => el
  | some .i4g => 3
  | some .i3g => 4
  | _ => 0

/-- The capability class of a pair; none where it is no pair (R429). -/
def matClass (iacc : Bool) (a b : Nat) : Option Nat :=
  if !matPair iacc a b then none
  else if iacc then some 59
  else if a = 0x09 ∨ b = 0x09 then some 43
  else some (44 + 5 * matIdx a + matIdx b)

/-- The class of the pair that a core has configured. -/
def MatCfg.cls (c : MatCfg) : Option Nat := matClass c.iacc c.afmt.toNat c.bfmt.toNat

/-- An operand format code as a format. -/
def matFmt (c : BitVec 6) : Fmt := (Fmt.ofCode c.toNat).getD (.fp .e4m3)

/-- K of R201. -/
def MatCfg.k (c : MatCfg) : Nat := 512 / max (matFmt c.afmt).sew (matFmt c.bfmt).sew

/-- The chunk length of R201. -/
def MatCfg.chunk (c : MatCfg) : Nat := if c.afmt = 0x09 ∨ c.bfmt = 0x09 then 16 else 8

/-- The extent of an operand panel (R202), whether or not its scales are read. -/
def MatCfg.extent (c : MatCfg) (f : Fmt) : Nat :=
  if !f.isScaled then 512
  else if f.isBlock then c.soff + 128
  else c.soff + 512

/-! Values. -/

/-- Element k of row or column r of a panel (R202). -/
def panelElem (p : List Byte) (f : Fmt) (r k : Nat) : Nat :=
  let bit := k * f.sew
  natLE ((p.drop (64 * r + bit / 8)).take (max 1 (f.sew / 8))) >>> (bit % 8) % 2 ^ f.sew

/-- The scale element of element k of row or column r of a panel (R202). -/
def panelScale (p : List Byte) (f : Fmt) (soff blk r k : Nat) : Nat :=
  if f.isBlock then at_ p (soff + 16 * r + k / blk) 1
  else if f.isScaled then at_ p (soff + 64 * r + 4 * (k / blk)) 4
  else 0

/-- The values of a row or column of a panel (R203). -/
def panelVals (p : List Byte) (f : Fmt) (soff blk kk r : Nat) : List FVal :=
  (List.range kk).map (fun k => (f.realVal (panelElem p f r k) (panelScale p f soff blk r k)).1)

/-- Lists cut into chunks of n; `fuel` bounds them. -/
def chunks (n : Nat) : Nat → List (FVal × FVal) → List (List (FVal × FVal))
  | 0, _ => []
  | _, [] => []
  | fuel + 1, l => l.take n :: chunks n fuel (l.drop n)

/-- An FP32 accumulator with a value added, rounded by RNE (R203). -/
def accAdd (acc : Nat) (v : FVal) : Nat := (FFmt.fp32.deliver .rne Fl.none (addVal false (FFmt.fp32.decode acc) v)).1

/-- One cell under FP32 accumulation (R203). -/
def cellF (c acc : Nat) (a b : List FVal) : Nat :=
  (chunks c a.length (a.zip b)).foldl (fun x l => accAdd x (dotVal l)) acc

/-- An element's value in I32 accumulation, in units of one half for E2M1 (R204). -/
def intElem (f : Fmt) (x : Nat) : Int :=
  match f with
  | .i4g => asSigned 4 (x % 16)
  | .i3g => asSigned 3 (x % 8)
  | _ =>
    let m : Int := ([0, 1, 2, 3, 4, 6, 8, 12] : List Int).getD (x % 8) 0
    if x % 16 < 8 then m else -m

/-- The integer values of a row or column of a panel. -/
def panelInts (p : List Byte) (f : Fmt) (kk r : Nat) : List Int :=
  (List.range kk).map (fun k => intElem f (panelElem p f r k))

/-- One cell under I32 accumulation, in units of 2^−2 (R204). -/
def cellI (bE2m1 : Bool) (acc : Nat) (a b : List Int) : Nat :=
  let s := (a.zip b).foldl (fun (t : Int) p => t + p.1 * p.2) 0
  wrapTo 32 ((acc : Int) + (if bE2m1 then s else 2 * s))

/-! Tiles. -/

/-- A cell of a tile; an unlisted one is +0. -/
def Img.cell (m : Img) (t i j : Nat) : BitVec 32 := Tab.getD m.acc (64 * t + 8 * i + j) 0

/-- Replaces a cell of a tile. -/
def Img.setCell (m : Img) (t i j : Nat) (v : BitVec 32) : Img :=
  { m with acc := Tab.put m.acc (64 * t + 8 * i + j) (if v = 0 then none else some v) }

/-- The cells of a tile, in order. -/
def cells : List (Nat × Nat) := (List.range 64).map (fun k => (k / 8, k % 8))

/-- Every cell of a tile replaced. -/
def Img.setTile (m : Img) (t : Nat) (v : Nat → Nat → BitVec 32) : Img :=
  cells.foldl (fun m c => m.setCell t c.1 c.2 (v c.1 c.2)) m

/-- Every cell of a tile +0 (R206). -/
def Img.clearTile (m : Img) (t : Nat) : Img := { m with acc := m.acc.filter (fun e => e.1 / 64 != t) }

/-- A tile marked in use or free (R206). -/
def Img.use (m : Img) (t : TileNo) (b : Bool) : Img :=
  { m with inUse := if b then m.inUse ||| (1#4 <<< t.val) else m.inUse &&& ~~~(1#4 <<< t.val) }

/-- A tile comes into use (R206); the launch that brings a free one into use is kept (R7). -/
def Img.take (m : Img) (t : TileNo) (launch : Nat) : Img :=
  { m.use t true with tileOf := if m.inUse.getLsbD t.val then m.tileOf else Tab.set m.tileOf t.val launch }

/-! Panels and rows. -/

/-- The core and offset of n bytes in one core's scratchpad (R205), or none. -/
def State.scratchAt (s : State) (c : Nat) (va : Word) (n : Nat) : Option (Nat × Nat) :=
  if inWindows va.toNat && (s.tagOf c).isSome then
    match s.windowPlace c va.toNat n with
    | some (.scratch k off) => some (k, off)
    | _ => none
  else none

/-- The bytes of a scratchpad. -/
def State.scratchBytes (s : State) (k off n : Nat) : List Byte := Memory.read (s.img k).scratch off n

/-- The row addresses of mld and mst (R207). -/
def rowAddrs (xa xb : Word) : List Word := (List.range 8).map (fun i => xa + BitVec.ofNat 64 i * xb)

/-! The commands in the unit. -/

/-- mopa (R203, R204); none where an operand can no longer be read (R214). -/
def State.doMopa (s : State) (c : Nat) (m : MatCmd) (t : TileNo) : Option State :=
  let g := m.cfg
  let fa := matFmt g.afmt
  let fb := matFmt g.bfmt
  match s.scratchAt c m.xa (g.extent fa), s.scratchAt c m.xb (g.extent fb) with
  | some a, some b =>
    let pa := s.scratchBytes a.1 a.2 (g.extent fa)
    let pb := s.scratchBytes b.1 b.2 (g.extent fb)
    let old := s.img c
    let put (v : Nat → Nat → Nat) : Option State :=
      some (s.onImg c (fun i => i.setTile t.val (fun x y => BitVec.ofNat 32 (v x y))))
    if g.iacc then
      let ra := (List.range 8).map (panelInts pa fa g.k)
      let rb := (List.range 8).map (panelInts pb fb g.k)
      put (fun x y => cellI (g.bfmt == 0x0E) (old.cell t.val x y).toNat (ra.getD x []) (rb.getD y []))
    else
      let ra := (List.range 8).map (panelVals pa fa g.soff (blkLen g.ablk.toNat) g.k)
      let rb := (List.range 8).map (panelVals pb fb g.soff (blkLen g.bblk.toNat) g.k)
      put (fun x y => cellF g.chunk (old.cell t.val x y).toNat (ra.getD x []) (rb.getD y []))
  | _, _ => none

/-- mld (R207). -/
def State.doMld (s : State) (c : Nat) (m : MatCmd) (t : TileNo) : Option State :=
  (rowAddrs m.xa m.xb).zipIdx.foldl (fun (a : Option State) e =>
    a.bind (fun s' => (s.scratchAt c e.1 32).map (fun p =>
      let bs := s.scratchBytes p.1 p.2 32
      (List.range 8).foldl (fun s j =>
        s.onImg c (fun i => i.setCell t.val e.2 j (BitVec.ofNat 32 (at_ bs (4 * j) 4)))) s'))) (some s)

/-- mst and mst.rel: the rows in ascending order (R208). -/
def State.doMst (s : State) (c : Nat) (m : MatCmd) (t : TileNo) : Option State :=
  let old := s.img c
  (rowAddrs m.xa m.xb).zipIdx.foldl (fun (a : Option State) e =>
    a.bind (fun s => (s.scratchAt c e.1 32).map (fun p =>
      let bs := (List.range 8).flatMap (fun j => bytesLE 4 (old.cell t.val e.2 j).toNat)
      (s.putScratch p.1 p.2 bs).clearResv
        (some { core := c, h := m.h }) (Loc.scratch p.1 p.2).line))) (some s)

/-- A command performed by the unit; none where it fails there (R214). -/
def State.matPerform (s : State) (c : Nat) (m : MatCmd) : Option State :=
  match m.instr with
  | .mopa _ t _ _ => s.doMopa c m t
  | .mld _ t _ _ => s.doMld c m t
  | .mst _ t _ _ => s.doMst c m t
  | .mstRel _ t _ _ => (s.doMst c m t).map (fun s => s.onImg c (fun i => i.clearTile t.val))
  | .mzero _ t => some (s.onImg c (fun i => i.clearTile t.val))
  | .mrelease _ t => some (s.onImg c (fun i => i.clearTile t.val))
  | _ => some s

/-- The tile that a command names. -/
def MatCmd.tile (m : MatCmd) : Option Nat :=
  match m.instr with
  | .mopa _ t _ _ | .mld _ t _ _ | .mst _ t _ _ | .mstRel _ t _ _ | .mzero _ t | .mrelease _ t => some t.val
  | _ => none

/-- R214, R440: a command failed in the unit: a machine check of a hardware context that stands in mwait for it, or
else a context fault; no physical address belongs to either (log 67). -/
def State.matFail (s : State) (c : Nat) (m : MatCmd) : State :=
  match (s.img c).mwaits.find? (fun w => m.tile == some w.2.1 && w.2.2 != 0) with
  | some w =>
    let i : HartId := { core := c, h := w.1 }
    { (({ s with cur := i } : State).machineCheck (s.accTag c) 0 (s.hart i).pc) with cur := s.cur }
  | none => s.post (.contextFault (s.accTag c) 3 (dieOf c) (s.core c).lcore 0)

/-- R202: the bytes of a panel that are read, as offsets and lengths: of each row or column its elements, and their scales,
which I32 accumulation does not read. -/
def MatCfg.panelReads (g : MatCfg) (f : Fmt) (blk : Nat) : List (Nat × Nat) :=
  let n := (g.k + blk - 1) / blk
  (List.range 8).flatMap (fun r =>
    (64 * r, (g.k * f.sew + 7) / 8) ::
      (if g.iacc then [] else if f.isBlock then [(g.soff + 16 * r, n)] else if f.isScaled then [(g.soff + 64 * r, 4 * n)] else []))

/-- The bytes that mopa reads of its A panel. -/
def MatCfg.readsA (g : MatCfg) : List (Nat × Nat) := g.panelReads (matFmt g.afmt) (blkLen g.ablk.toNat)

/-- The bytes that mopa reads of its B panel. -/
def MatCfg.readsB (g : MatCfg) : List (Nat × Nat) := g.panelReads (matFmt g.bfmt) (blkLen g.bblk.toNat)

/-- The scratchpad bytes that a command reads: cores, offsets and lengths (R202, R207). -/
def State.matReads (s : State) (c : Nat) (m : MatCmd) : List (Nat × Nat × Nat) :=
  let at' (va : Word) (n : Nat) : List (Nat × Nat × Nat) := ((s.scratchAt c va n).map (fun p => (p.1, p.2, n))).toList
  let panel (va : Word) (l : List (Nat × Nat)) : List (Nat × Nat × Nat) := l.flatMap (fun e => at' (va + BitVec.ofNat 64 e.1) e.2)
  match m.instr with
  | .mopa .. => panel m.xa m.cfg.readsA ++ panel m.xb m.cfg.readsB
  | .mld .. => (rowAddrs m.xa m.xb).flatMap (fun va => at' va 32)
  | _ => []

/-- Whether a command reads the tile it names. -/
def MatCmd.readsTile (m : MatCmd) : Bool :=
  match m.instr with
  | .mopa .. | .mst .. | .mstRel .. => true
  | _ => false

/-- Whether a command reads a place of core SRAM (R214, R438). -/
def State.matMeets (s : State) (c : Nat) (m : MatCmd) (e : CoreCell) : Bool :=
  (s.matReads c m).any (fun r => e.inScratch r.1 r.2.1 r.2.2) || (m.readsTile && e.inTiles c m.tile.toList)

/-- The oldest command of a core has left the queue: those that stand in mwait have one less before them (R209). -/
def Img.countMwaits (m : Img) : Img := { m with mwaits := m.mwaits.map (fun w => (w.1, w.2.1, w.2.2 - 1)) }

/-- The unit executes the oldest command of a core (R196). -/
def State.matStep (s : State) (c : Nat) : State :=
  match (s.img c).mq with
  | [] => s
  | m :: l =>
    let s1 := s.onImg c (fun i => { i with mq := l })
    let s3 :=
      if s1.badCore.any (s1.matMeets c m) then s1.matFail c m
      else
        let s2 := s1.correct c (s1.matMeets c m)
        match s2.matPerform c m with
        | some s3 => s3
        | none => s2.matFail c m
    if (s3.img c).mwaits.isEmpty then s3 else s3.onImg c Img.countMwaits

/-- The unit executes up to n commands of a core. -/
def State.matRun (s : State) (c : Nat) : Nat → State
  | 0 => s
  | n + 1 => (s.matStep c).matRun c n

/-! At issue. -/

/-- A matrix instruction at issue: lookahead, its capability class, its checks (R41, R196, R210, R214). -/
def State.matIssue (s : State) (i : Instr) (cls : Option Nat) (k : State → Out) : Out :=
  s.issueVec i false true cls k

/-- A place in the queue (R196): with none free the instruction waits, and the unit moves. -/
def State.matRoom (s : State) (k : State → Out) : Out :=
  if (s.img s.cur.core).mq.length < Config.matrixEntries then k s
  else .next (s.post (.matrixCommandExecute s.cur.core))

/-- R211: a command that touches the scratchpad enters the queue after every access that any hardware context of the
core issued earlier has been performed. -/
def State.coreAccessesDone (s : State) (k : State → Out) : Out :=
  match (s.img s.cur.core).harts.findSome? (fun e => (e.2.chain.find? Flight.isMemory).map (fun f => (e.1, f))) with
  | some (h, f) => .next (s.post (f.mover { core := s.cur.core, h := h }))
  | none => (s.flush s.cur.core).run (fun _ s => k s)

/-- A command enters the queue with the configuration as issued instructions left it; it executes at once unless
issued work is left in flight (log 7). -/
def State.matPush (s : State) (i : Instr) (xa xb : Word) : Out :=
  let c := s.cur.core
  let m : MatCmd := { instr := i, h := s.cur.h, xa := xa, xb := xb, cfg := (s.img c).mcfg }
  let s1 := s.onImg c (fun g => { g with mq := g.mq ++ [m] })
  let s2 := if s.hold then s1 else s1.matRun c s1.myCore.img.mq.length
  s2.done 4

/-- A matrix-configuration fault (R214). -/
def State.matFault (s : State) (code tile : Nat) : Out := s.trap 28 (BitVec.ofNat 64 (code + 16 * tile))

/-- A named tile must exist (R198). -/
def State.matTile (s : State) (t : TileNo) (k : State → Out) : Out :=
  if t.val < s.myCore.img.mcfg.nt then k s else s.matFault 1 t.val

/-- MCFG (R198): tile-busy first, then its fields, then its pair. -/
def execMcfg (l : BitVec 4) (a : Reg) (s : State) : Out :=
  let x := s.x a
  let af := field x 4 6
  let bf := field x 10 6
  s.matIssue (.mcfg l a) (matClass (x.getLsbD 3) af bf) (fun s =>
    let g := s.myCore.img
    if g.inUse ≠ 0 then s.trap 27 (g.inUse.setWidth 64)
    else if field x 16 48 ≠ 0 ∨ 4 < field x 0 3 then s.matFault 3 0
    else if !matPair (x.getLsbD 3) af bf then s.matFault 2 0
    else
      s.matRoom (fun s =>
        let c : MatCfg :=
          { nt := field x 0 3, iacc := x.getLsbD 3, afmt := BitVec.ofNat 6 af, bfmt := BitVec.ofNat 6 bf,
            ablk := 0, bblk := 0, soff := 512 }
        (s.onImg s.cur.core (fun g => { g with mcfg := c })).matPush (.mcfg l a) x 0))

/-- MWEXP (R200). -/
def execMwexp (l : BitVec 4) (a b : Reg) (s : State) : Out :=
  let x := s.x a
  let so := s.x b
  s.matIssue (.mwexp l a b) s.myCore.img.mcfg.cls (fun s =>
    if 4 < field x 0 3 ∨ 4 < field x 3 3 ∨ field x 6 58 ≠ 0 ∨ so.toNat % 64 ≠ 0 ∨ so.toNat < 512 ∨ 24064 < so.toNat then
      s.matFault 5 0
    else
      s.matRoom (fun s =>
        (s.onImg s.cur.core (fun g =>
          { g with mcfg := { g.mcfg with ablk := BitVec.ofNat 3 (field x 0 3), bblk := BitVec.ofNat 3 (field x 3 3),
                                         soff := so.toNat } })).matPush (.mwexp l a b) x so))

/-- Whether a scale that mopa reads has no block length (R205). -/
def MatCfg.noBlock (c : MatCfg) : Bool :=
  ((matFmt c.afmt).isBlock && c.ablk == 0) || (!c.iacc && (matFmt c.bfmt).isScaled && c.bblk == 0)

/-- R282: the operand reads of mopa check the unchecked slots of the core's rings that hold a byte that they read; `reads` are
the offsets and lengths of what a panel at an offset gives them. -/
def State.panelSlots (s : State) (va : Word) (k off : Nat) (reads : List (Nat × Nat)) : Acc Unit :=
  let starts := (s.img s.cur.core).rings.flatMap (fun e =>
    (List.range e.2.count).map (fun j => e.2.base + e.2.slotsz * j))
  let bytes := reads.flatMap (fun e =>
    (off + e.1) :: starts.filter (fun b => decide (off + e.1 ≤ b) && decide (b < off + e.1 + e.2)))
  (Acc.list (fun b s => s.slotCheck s.cur.core (.scratch k b) va) bytes s).bind (fun _ s => .ok () s)

/-- The launch of the executing helper's task; 0 for a control context. -/
def State.myLaunch (s : State) : Nat := (s.me.task.map (fun k => k.task.launch)).getD 0

/-- MOPA (R201, R205): its checks in the order in which R205 states them: the alignment of the panels, their extents, the
block lengths, the tile (R291; log 28). -/
def execMopa (l : BitVec 4) (t : TileNo) (a b : Reg) (s : State) : Out :=
  let xa := s.x a
  let xb := s.x b
  s.matIssue (.mopa l t a b) s.myCore.img.mcfg.cls (fun s =>
    let g := s.myCore.img.mcfg
    let na := g.extent (matFmt g.afmt)
    let nb := g.extent (matFmt g.bfmt)
    let c := s.cur.core
    if xa.toNat % 64 ≠ 0 then s.trap 4 xa
    else if xb.toNat % 64 ≠ 0 then s.trap 4 xb
    else
      match s.scratchAt c xa na, s.scratchAt c xb nb with
      | none, _ => s.trap 5 xa
      | _, none => s.trap 5 xb
      | some pa, some pb =>
        if g.noBlock then s.matFault 4 0
        else
          s.matTile t (fun s => s.matRoom (fun s => s.coreAccessesDone (fun s =>
            (s.panelSlots xa pa.1 pa.2 g.readsA).run (fun _ s => (s.panelSlots xb pb.1 pb.2 g.readsB).run (fun _ s =>
              (s.onImg c (fun g => g.take t s.myLaunch)).matPush (.mopa l t a b) xa xb))))))

/-- The row addresses checked at issue (R207, R208). Where only the stride is misaligned, the address reported is that of
row 1, the first that it misplaces: the rules say no more than 'address' (log 28). -/
def State.rowsOk (s : State) (xa xb : Word) (kind : AccKind) (k : State → Out) : Out :=
  if xa.toNat % 4 ≠ 0 ∨ xb.toNat % 4 ≠ 0 then
    s.trap kind.misaligned (if xa.toNat % 4 ≠ 0 then xa else xa + xb)
  else
    match (rowAddrs xa xb).find? (fun r => (s.scratchAt s.cur.core r 32).isNone) with
    | some r => s.trap kind.access r
    | none => k s

/-- MLD (R207); the tile is checked before the rows (log 28). -/
def execMld (l : BitVec 4) (t : TileNo) (a b : Reg) (s : State) : Out :=
  let xa := s.x a
  let xb := s.x b
  s.matIssue (.mld l t a b) s.myCore.img.mcfg.cls (fun s => s.matTile t (fun s => s.rowsOk xa xb .load (fun s =>
    s.matRoom (fun s => s.coreAccessesDone (fun s =>
      (s.onImg s.cur.core (fun g => g.take t s.myLaunch)).matPush (.mld l t a b) xa xb)))))

/-- MST (R208); the tile is checked before the rows (log 28). -/
def execMst (l : BitVec 4) (t : TileNo) (a b : Reg) (s : State) : Out :=
  let xa := s.x a
  let xb := s.x b
  s.matIssue (.mst l t a b) s.myCore.img.mcfg.cls (fun s => s.matTile t (fun s => s.rowsOk xa xb .store (fun s =>
    s.matRoom (fun s => s.coreAccessesDone (fun s => s.matPush (.mst l t a b) xa xb)))))

/-- MST.REL (R208): the tile is free from issue on; it is checked before the rows (log 28). -/
def execMstRel (l : BitVec 4) (t : TileNo) (a b : Reg) (s : State) : Out :=
  let xa := s.x a
  let xb := s.x b
  s.matIssue (.mstRel l t a b) s.myCore.img.mcfg.cls (fun s => s.matTile t (fun s => s.rowsOk xa xb .store (fun s =>
    s.matRoom (fun s => s.coreAccessesDone (fun s =>
      (s.onImg s.cur.core (fun g => g.use t false)).matPush (.mstRel l t a b) xa xb)))))

/-- MZERO (R206). -/
def execMzero (l : BitVec 4) (t : TileNo) (s : State) : Out :=
  s.matIssue (.mzero l t) s.myCore.img.mcfg.cls (fun s => s.matTile t (fun s =>
    s.matRoom (fun s => s.matPush (.mzero l t) 0 0)))

/-- MRELEASE (R206). -/
def execMrelease (l : BitVec 4) (t : TileNo) (s : State) : Out :=
  s.matIssue (.mrelease l t) s.myCore.img.mcfg.cls (fun s => s.matTile t (fun s =>
    s.matRoom (fun s => (s.onImg s.cur.core (fun g => g.use t false)).matPush (.mrelease l t) 0 0)))

/-- The queued commands of a core up to the last that names a tile (R209). -/
def Img.upToTile (m : Img) (t : Nat) : Nat :=
  (m.mq.zipIdx.filter (fun e => e.1.tile == some t)).foldl (fun n e => max n (e.2 + 1)) 0

/-- How many queued commands an mwait of a hardware context for a tile still waits for: those before it at its first try (R209). -/
def Img.mwaitLeft (m : Img) (h t : Nat) : Nat :=
  match m.mwaits.find? (fun w => w.1 == h && w.2.1 == t) with
  | some w => min w.2.2 m.mq.length
  | none => m.upToTile t

/-- MWAIT (R209): waits until no command that the core issued before it and that names the tile is left; the unit moves
meanwhile. -/
def execMwait (l : BitVec 4) (t : TileNo) (s : State) : Out :=
  s.matIssue (.mwait l t) s.myCore.img.mcfg.cls (fun s => s.matTile t (fun s =>
    let c := s.cur.core
    let others := (s.img c).mwaits.filter (fun w => w.1 != s.cur.h)
    let n := (s.img c).mwaitLeft s.cur.h t.val
    if n = 0 then (s.onImg c (fun g => { g with mwaits := others })).done 4
    else .next ((s.onImg c (fun g => { g with mwaits := (s.cur.h, t.val, n) :: others })).post (.matrixCommandExecute c))))

end Sys2Proof.Machine
end

