-- ==== Sys2Proof/Machine/Dist.lean ====
section
/-! DEFINITION. Distribution registers and their instructions (R217 to R238). -/

namespace Sys2Proof.Machine

/-! Elements. -/

/-- The all-zero element: the point mass at +0, which an unlisted element is. -/
def zeroElem : DElem := List.replicate 8 { v := 0, w := 0 }

/-- The NaN element (R217). -/
def nanElem : DElem := List.replicate 8 { v := 0x7FC00000, w := 8192 }

/-- A value with its integer weight. -/
abbrev WPoint := Nat × Nat

/-- R61: the slots of an element with their weights decoded. -/
def decodeElem (e : DElem) : List WPoint :=
  if e.all (fun p => p.w == 0) then
    match e with
    | p :: t => (p.v.toNat, 65536) :: t.map (fun q => (q.v.toNat, 0))
    | [] => []
  else e.map (fun p => (p.v.toNat, p.w.toNat))

/-- The points of weight above zero. -/
def points (e : DElem) : List WPoint := (decodeElem e).filter (fun p => p.2 != 0)

/-- R61: whether an element is malformed. -/
def malformed (e : DElem) : Bool :=
  !e.all (fun p => p.w == 0) && decide ((e.map (fun p => p.w.toNat)).sum ≠ 65536)

/-- Whether an FP32 encoding is a NaN. -/
def isNan32 (b : Nat) : Bool := (FFmt.fp32.decode b).isNan

/-- Points in canonical order placed in slots 0 upward; a weight of 65,536 is stored as 0 (R61, R217). -/
def encodeElem (l : List WPoint) : DElem :=
  (l.map (fun p => ({ v := BitVec.ofNat 32 p.1, w := BitVec.ofNat 16 p.2 } : Point)) ++ zeroElem).take 8

/-- Sorted by IEEE total order, equal encodings in input order (R55). -/
def sortPoints (l : List WPoint) : List WPoint := sortBy (fun a b => decide (totalKey a.1 ≤ totalKey b.1)) l

/-- Runs of adjacent equal encodings merged, their weights added. -/
def mergeRuns : List WPoint → List WPoint
  | [] => []
  | p :: l =>
    match mergeRuns l with
    | q :: r => if q.1 = p.1 then (p.1, p.2 + q.2) :: r else p :: q :: r
    | [] => [p]

/-- The points of weight above zero, sorted and merged (R221). -/
def orderPoints (l : List WPoint) : List WPoint := mergeRuns (sortPoints (l.filter (fun p => p.2 != 0)))

/-- tidy of R221. -/
def tidy (l : List WPoint) : DElem :=
  if l.any (fun p => p.2 != 0 && isNan32 p.1) then nanElem else encodeElem (orderPoints l)

/-- largest_remainder of R221. -/
def largestRemainder (w : List Nat) (total target : Nat) : List Nat :=
  let q := w.map (fun x => x * target / total)
  let r := w.map (fun x => x * target % total)
  let d := target - q.sum
  let rank (k : Nat) : Nat :=
    let rk := r.getD k 0
    ((List.range w.length).filter (fun j => let rj := r.getD j 0; decide (rk < rj) || (rj == rk && decide (j < k)))).length
  q.mapIdx (fun k x => if rank k < d then x + 1 else x)

/-- An exact multiple of an FP32 value, rounded to FP64 (R222). -/
def scale64 (v n : Nat) : Nat :=
  match FFmt.fp32.decode v with
  | .fin neg m e => (FFmt.fp64.roundE .rne { neg := neg, m := { n := m * n, d := 1, e := e } }).1
  | x => (FFmt.fp64.convert .rne x).1

/-- An FP64 value divided by a power of two, as a value. -/
def div64 (x k : Nat) : FVal :=
  match FFmt.fp64.decode x with
  | .fin neg m e => .fin neg m (e - k)
  | y => y

/-- One sorted point added to the bins it covers, from cumulative weight `lo` (R222, steps 4 and 5). -/
def addToBins (lo : Nat) (p : WPoint) (bins : List Nat) : List Nat :=
  let hi := lo + p.2
  bins.mapIdx (fun b s =>
    let o := min hi ((b + 1) * 2 ^ 29) - max lo (b * 2 ^ 29)
    if o = 0 then s else (FFmt.fp64.add .rne s (scale64 p.1 o)).1)

/-- The bins of a sorted list (R222). -/
def binsOf (l : List WPoint) : List Nat :=
  (l.foldl (fun (a : Nat × List Nat) p => (a.1 + p.2, addToBins a.1 p a.2)) (0, List.replicate 8 0)).2

/-- condense of R222. -/
def condense (l : List WPoint) : DElem :=
  let ps := l.filter (fun p => p.2 != 0)
  if ps.any (fun p => isNan32 p.1) then nanElem
  else
    let m := (binsOf (sortPoints ps)).map (fun s => (FFmt.fp32.convert .rne (div64 s 29)).1)
    if m.any isNan32 then nanElem
    else
      let runs := mergeRuns (m.map (fun v => (v, 2 ^ 29)))
      encodeElem ((runs.map Prod.fst).zip (largestRemainder (runs.map Prod.snd) (2 ^ 32) 65536))

/-! Binary operations. -/

/-- The value functions of R223. -/
inductive DOp where
  | add
  | sub
  | mul
  | max
  | min
deriving DecidableEq, Repr

/-- op(a, b) of R223. -/
def DOp.apply (o : DOp) (a b : Nat) : Nat :=
  match o with
  | .add => (FFmt.fp32.add .rne a b).1
  | .sub => (FFmt.fp32.sub .rne a b).1
  | .mul => (FFmt.fp32.mul .rne a b).1
  | .max => if isNan32 a || isNan32 b then 0x7FC00000 else if totalKey a < totalKey b then b else a
  | .min => if isNan32 a || isNan32 b then 0x7FC00000 else if totalKey b < totalKey a then b else a

/-- independent of R224. -/
def independent (o : DOp) (a b : DElem) : DElem :=
  condense ((points a).flatMap (fun p => (points b).map (fun q => (o.apply p.1 q.1, p.2 * q.2))))

/-- The ends of the intervals of cumulative weight (R224). -/
def cumEnds (l : List WPoint) : List Nat :=
  (l.foldl (fun (a : Nat × List Nat) p => (a.1 + p.2, a.2 ++ [a.1 + p.2])) (0, [])).2

/-- The value of the point whose interval covers u (R224). -/
def covering (l : List WPoint) (u : Nat) : Nat :=
  match l with
  | [] => 0
  | p :: t => if u < p.2 then p.1 else covering t (u - p.2)

/-- Consecutive members of a list. -/
def pairsOf : List Nat → List (Nat × Nat)
  | a :: b :: l => (a, b) :: pairsOf (b :: l)
  | _ => []

/-- dependent of R224. -/
def dependent (o : DOp) (a b : DElem) : DElem :=
  let pa := sortPoints (points a)
  let pb := sortPoints (points b)
  let u := sortBy (fun x y => decide (x ≤ y)) ((0 :: 65536 :: cumEnds pa ++ cumEnds pb).dedup)
  condense ((pairsOf u).map (fun e => (o.apply (covering pa e.1) (covering pb e.1), (e.2 - e.1) * 65536)))

/-- dmix of R225. -/
def mixElem (p : Nat) (a b : DElem) : DElem :=
  condense ((points a).map (fun q => (q.1, q.2 * p)) ++ (points b).map (fun q => (q.1, q.2 * (65536 - p))))

/-- dscale of R226. -/
def scaleElem (a b : Nat) (e : DElem) : DElem :=
  tidy ((decodeElem e).map (fun q => ((FFmt.fp32.fma .rne false false a q.1 b).1, q.2)))

/-- Whether a value is at or below another by IEEE comparison; neither is a NaN. -/
def le32 (a b : Nat) : Bool := decide (cmpVal (FFmt.fp32.decode a) (FFmt.fp32.decode b) ≤ 0)

/-- dcond of R227. -/
def condElem (t : Nat) (e : DElem) : DElem :=
  let ps := points e
  if isNan32 t || ps.any (fun p => isNan32 p.1) then nanElem
  else
    let k := orderPoints (ps.filter (fun p => le32 p.1 t))
    let w := (k.map Prod.snd).sum
    if w = 0 then nanElem
    else encodeElem ((k.map Prod.fst).zip (largestRemainder (k.map Prod.snd) w 65536))

/-- The constants of R230: the nearest FP32 values to these ten-millionths. -/
def gaussPoints : List Nat :=
  ([(true, 16629600), (true, 9616520), (true, 5298260), (true, 1705220), (false, 1705220), (false, 5298260),
    (false, 9616520), (false, 16629600)] : List (Bool × Nat)).map (fun p =>
      (FFmt.fp32.round .rne p.1 { n := p.2, d := 10000000, e := 0 }).1)

/-- dgauss of R230. -/
def gaussElem (m s : Nat) : DElem :=
  tidy (gaussPoints.map (fun c => ((FFmt.fp32.fma .rne false false s c m).1, 8192)))

/-- A sequential FP64 sum, begun with its first term: R231 does not say that it begins with +0, as condense does (R222), so
a sum of terms that are all −0 is −0 (log 15). -/
def sum64 : List Nat → Nat
  | [] => 0
  | a :: l => l.foldl (fun x y => (FFmt.fp64.add .rne x y).1) a

/-- An FP64 value divided by 65,536, exactly. -/
def mean64 (x : Nat) : Nat := (FFmt.fp64.convert .rne (div64 x 16)).1

/-- The cube of an FP64 value, rounded once (R62, R231). -/
def cube64 (x : Nat) : Nat :=
  match FFmt.fp64.decode x with
  | .fin neg m e => (FFmt.fp64.roundE .rne { neg := neg, m := { n := m ^ 3, d := 1, e := 3 * e } }).1
  | v => (FFmt.fp64.convert .rne v).1

/-- dmom of R231. -/
def momentOf (k : Nat) (e : DElem) : Nat :=
  let ps := points e
  let mean := mean64 (sum64 (ps.map (fun p => scale64 p.1 p.2)))
  let r :=
    if k ≤ 1 then mean
    else
      mean64 (sum64 (ps.map (fun p =>
        let d := (FFmt.fp64.sub .rne (scale64 p.1 1) mean).1
        let q := if k = 2 then (FFmt.fp64.mul .rne d d).1 else cube64 d
        (FFmt.fp64.mul .rne (FFmt.fp64.ofInt .rne p.2).1 q).1)))
  (FFmt.fp32.convert .rne (FFmt.fp64.decode r)).1

/-- The first value whose cumulative weight reaches c. -/
def reach (c : Nat) : List WPoint → Nat → Nat
  | [], _ => 0x7FC00000
  | [p], _ => p.1
  | p :: l, cum => if c ≤ cum + p.2 then p.1 else reach c l (cum + p.2)

/-- dqnt of R232. -/
def quantileOf (c : Nat) (e : DElem) : Nat :=
  let ps := points e
  if ps.any (fun p => isNan32 p.1) then 0x7FC00000 else reach c (orderPoints ps) 0

/-- dcdf of R233. -/
def cdfOf (t : Nat) (e : DElem) : Nat :=
  let ps := points e
  if isNan32 t || ps.any (fun p => isNan32 p.1) then 0x7FC00000
  else
    let g := ((ps.filter (fun p => le32 p.1 t)).map Prod.snd).sum
    (FFmt.fp32.roundE .rne { neg := false, m := { n := g, d := 65536, e := 0 } }).1

/-! The registers. -/

/-- Element i of a distribution register. -/
def Hart.dget (t : Hart) (d : DReg8) (i : Nat) : DElem := Tab.getD (t.d.get d) i zeroElem

/-- Replaces element i of a distribution register. -/
def Hart.dput (t : Hart) (d : DReg8) (i : Nat) (e : DElem) : Hart :=
  { t with d := t.d.set d.val (Tab.put (t.d.get d) i (if e = zeroElem then none else some e)) d.isLt }

/-- The tag set of a distribution register (R218). -/
def Hart.tags (t : Hart) (d : DReg8) : BitVec 16 := t.dtag.get d

/-- Replaces the tag set of a distribution register. -/
def Hart.setTags (t : Hart) (d : DReg8) (v : BitVec 16) : Hart := { t with dtag := t.dtag.set d.val v d.isLt }

/-- R219: the format and the register numbers at issue. -/
def State.distOk (s : State) (ds : List DReg8) : Bool :=
  vtFmt s.me.vtype == 0x0A && s.me.fmtFits (.fp .fp32) && ds.all (fun d => decide (d.val < cfgNd s.me.vcfgst))

/-- The moves that a distribution instruction can take at most: its elements. -/
def elemMoves : Nat := 514

/-- A distribution instruction at issue (R219, R238); `also` writes the tag set (R220). -/
def State.distIssue (s : State) (i : Instr) (l : BitVec 4) (ds : List DReg8) (xa xb : State → Word)
    (also : Hart → Hart) (mv : Flight → State → Move) : Out :=
  s.issueVec i true (s.distOk ds) (some 60) (fun s => s.fly i l.toNat true (xa s) (xb s) elemMoves mv also)

/-- No scalar operand. -/
def noScalar (_ : State) : Word := 0

/-- One element of a distribution instruction whose elements are written whole (R237). -/
def distMove (act : Flight → Nat → Hart → Hart) (f : Flight) (s : State) : Move :=
  if f.vl ≤ f.idx then .over s
  else
    let s1 := s.onMe (act f f.idx)
    if f.idx + 1 = f.vl then .over s1 else .more { f with idx := f.idx + 1 } s1

/-- One element of a binary operation, under the coupling captured at issue (R224). -/
def binDist (o : DOp) (d a b : DReg8) : Flight → State → Move := distMove (fun f i t =>
  t.dput d i ((if f.xa = 1 then dependent else independent) o (t.dget a i) (t.dget b i)))

/-- R220, R224: the coupling: 1 where the operands' tag sets overlap. -/
def coupling (a b : DReg8) (s : State) : Word := if s.me.tags a &&& s.me.tags b = 0 then 0 else 1

/-- The union of two tag sets written to a register (R220). -/
def uniteTags (d a b : DReg8) (t : Hart) : Hart := t.setTags d (t.tags a ||| t.tags b)

/-- One element of DADD (R223). -/
def goDadd (d a b : DReg8) : Flight → State → Move := binDist .add d a b

/-- DADD (R223, R224). -/
def execDadd (l : BitVec 4) (d a b : DReg8) (s : State) : Out :=
  s.distIssue (.dadd l d a b) l [d, a, b] (coupling a b) noScalar (uniteTags d a b) (goDadd d a b)

/-- One element of DSUB (R223). -/
def goDsub (d a b : DReg8) : Flight → State → Move := binDist .sub d a b

/-- DSUB (R223, R224). -/
def execDsub (l : BitVec 4) (d a b : DReg8) (s : State) : Out :=
  s.distIssue (.dsub l d a b) l [d, a, b] (coupling a b) noScalar (uniteTags d a b) (goDsub d a b)

/-- One element of DMUL (R223). -/
def goDmul (d a b : DReg8) : Flight → State → Move := binDist .mul d a b

/-- DMUL (R223, R224). -/
def execDmul (l : BitVec 4) (d a b : DReg8) (s : State) : Out :=
  s.distIssue (.dmul l d a b) l [d, a, b] (coupling a b) noScalar (uniteTags d a b) (goDmul d a b)

/-- One element of DMAX (R223). -/
def goDmax (d a b : DReg8) : Flight → State → Move := binDist .max d a b

/-- DMAX (R223, R224). -/
def execDmax (l : BitVec 4) (d a b : DReg8) (s : State) : Out :=
  s.distIssue (.dmax l d a b) l [d, a, b] (coupling a b) noScalar (uniteTags d a b) (goDmax d a b)

/-- One element of DMIN (R223). -/
def goDmin (d a b : DReg8) : Flight → State → Move := binDist .min d a b

/-- DMIN (R223, R224). -/
def execDmin (l : BitVec 4) (d a b : DReg8) (s : State) : Out :=
  s.distIssue (.dmin l d a b) l [d, a, b] (coupling a b) noScalar (uniteTags d a b) (goDmin d a b)

/-- One element of DMIX (R225). -/
def goDmix (d a : DReg8) : Flight → State → Move := distMove (fun f i t =>
  t.dput d i (mixElem (min f.xb.toNat 65536) (t.dget d i) (t.dget a i)))

/-- DMIX (R225). -/
def execDmix (l : BitVec 4) (d a : DReg8) (b : Reg) (s : State) : Out :=
  s.distIssue (.dmix l d a b) l [d, a] noScalar (fun s => s.x b) (uniteTags d d a) (goDmix d a)

/-- One element of DSCALE (R226). -/
def goDscale (d : DReg8) (a b : Reg) : Flight → State → Move := distMove (fun _ i t =>
  t.dput d i (scaleElem (elemAt (t.vget a) 32 i) (elemAt (t.vget b) 32 i) (t.dget d i)))

/-- DSCALE (R226). -/
def execDscale (l : BitVec 4) (d : DReg8) (a b : Reg) (s : State) : Out :=
  s.distIssue (.dscale l d a b) l [d] noScalar noScalar id (goDscale d a b)

/-- One element of DCOND (R227). -/
def goDcond (d a : DReg8) (b : Reg) : Flight → State → Move := distMove (fun _ i t =>
  t.dput d i (condElem (elemAt (t.vget b) 32 i) (t.dget a i)))

/-- DCOND (R227). -/
def execDcond (l : BitVec 4) (d a : DReg8) (b : Reg) (s : State) : Out :=
  s.distIssue (.dcond l d a b) l [d, a] noScalar noScalar (fun t => t.setTags d (t.tags a)) (goDcond d a b)

/-- DTAG's one turn in the condenser: it changes no element (R228). -/
def goDtag : Flight → State → Move := fun _ s => .over s

/-- DTAG (R228). -/
def execDtag (l : BitVec 4) (d : DReg8) (a : Reg) (s : State) : Out :=
  s.distIssue (.dtag l d a) l [d] (fun s => s.x a) noScalar
    (fun t => t.setTags d ((t.get a).setWidth 16)) goDtag

/-- One element of DPOINT (R229). -/
def goDpoint (d : DReg8) (a : Reg) : Flight → State → Move := distMove (fun _ i t =>
  t.dput d i (tidy [(elemAt (t.vget a) 32 i, 65536)]))

/-- DPOINT (R229). -/
def execDpoint (l : BitVec 4) (d : DReg8) (a : Reg) (s : State) : Out :=
  s.distIssue (.dpoint l d a) l [d] noScalar noScalar (fun t => t.setTags d 0) (goDpoint d a)

/-- One element of DGAUSS (R230). -/
def goDgauss (d : DReg8) (a b : Reg) : Flight → State → Move := distMove (fun _ i t =>
  t.dput d i (gaussElem (elemAt (t.vget a) 32 i) (elemAt (t.vget b) 32 i)))

/-- DGAUSS (R230). -/
def execDgauss (l : BitVec 4) (d : DReg8) (a b : Reg) (s : State) : Out :=
  s.distIssue (.dgauss l d a b) l [d] noScalar noScalar (fun t => t.setTags d 0) (goDgauss d a b)

/-- One element of an instruction that writes FP32 elements of a vector register. -/
def distVec (vd : Reg) (g : Flight → Nat → Hart → Nat) : Flight → State → Move := distMove (fun f i t =>
  t.vset vd (elemSet (t.vget vd) 32 i (g f i t)))

/-- One element of DMOM (R231). -/
def goDmom (d : Reg) (a : DReg8) (k : BitVec 2) : Flight → State → Move :=
  distVec d (fun _ i t => momentOf k.toNat (t.dget a i))

/-- DMOM (R231). -/
def execDmom (l : BitVec 4) (d : Reg) (a : DReg8) (k : BitVec 2) (s : State) : Out :=
  s.distIssue (.dmom l d a k) l [a] noScalar noScalar id (goDmom d a k)

/-- One element of DQNT (R232). -/
def goDqnt (d : Reg) (a : DReg8) : Flight → State → Move :=
  distVec d (fun f i t => quantileOf (min f.xb.toNat 65536) (t.dget a i))

/-- DQNT (R232). -/
def execDqnt (l : BitVec 4) (d : Reg) (a : DReg8) (b : Reg) (s : State) : Out :=
  s.distIssue (.dqnt l d a b) l [a] noScalar (fun s => s.x b) id (goDqnt d a)

/-- One element of DCDF (R233). -/
def goDcdf (d : Reg) (a : DReg8) (b : Reg) : Flight → State → Move :=
  distVec d (fun _ i t => cdfOf (elemAt (t.vget b) 32 i) (t.dget a i))

/-- DCDF (R233). -/
def execDcdf (l : BitVec 4) (d : Reg) (a : DReg8) (b : Reg) (s : State) : Out :=
  s.distIssue (.dcdf l d a b) l [a] noScalar noScalar id (goDcdf d a b)

/-! Memory. -/

/-- The address of dword k of element i (R234). -/
def elemDword (f : Flight) (i k : Nat) : Word := f.xa + BitVec.ofNat 64 (48 * i + 8 * k)

/-- The element that 48 bytes hold (R234). -/
def elemOfBytes (bs : List Byte) : DElem :=
  (List.range 8).map (fun j => { v := BitVec.ofNat 32 (at_ bs (4 * j) 4), w := BitVec.ofNat 16 (at_ bs (32 + 2 * j) 2) })

/-- The 48 bytes of an element (R234). -/
def bytesOfElem (e : DElem) : List Byte :=
  let p (j : Nat) : Point := e.getD j { v := 0, w := 0 }
  (List.range 8).flatMap (fun j => bytesLE 4 (p j).v.toNat) ++ (List.range 8).flatMap (fun j => bytesLE 2 (p j).w.toNat)

/-- A flight of a transfer after an element (R236). -/
def Flight.nextElem (f : Flight) (pages : List TlbEntry) (s : State) : Move :=
  if f.idx + 1 = f.vl then .over s else .more { f with idx := f.idx + 1, sub := 0, desc := [], pages := pages } s

/-- A dword of an element read, with the translations and the bytes of the element so far (R183, R236). -/
def dwordRead (f : Flight) (g : List TlbEntry × List Byte) (k : Nat) (s : State) : Acc (List TlbEntry × List Byte) :=
  let va := elemDword f f.idx k
  (s.elemPlace g.1 .load va 8).bind (fun p s => (s.readUntagged va p.1 8).bind (fun bs s => .ok (p.2, g.2 ++ bs) s))

/-- One element of DLD (R235): its six dwords in ascending address, none of them read twice (R45). -/
def goDld (d : DReg8) : Flight → State → Move := fun f s =>
  if f.vl ≤ f.idx then .over s
  else if f.pad f.idx then f.nextElem f.pages (s.onMe (fun t => t.dput d f.idx zeroElem))
  else
    match eachElem (dwordRead f) ((List.range 6).drop (f.desc.length / 8)) (f.pages, f.desc) s with
    | .done g s =>
      let e := elemOfBytes g.2
      f.nextElem g.1 (s.onMe (fun t => t.dput d f.idx (if malformed e then nanElem else e)))
    | .stop t _ g s => .trap t { f with pages := g.1, desc := [] } s
    | .hold _ g s => .wait (s.onMe (fun t => t.setFlight { f with pages := g.1, desc := g.2 }))

/-- R235: the base of a transfer: a multiple of 16 unless vl is 0. -/
def State.transferIssue (s : State) (i : Instr) (l : BitVec 4) (d : DReg8) (a : Reg) (cause : Nat)
    (also : Hart → Hart) (mv : Flight → State → Move) : Out :=
  s.issueVec i true (s.distOk [d]) (some 60) (fun s =>
    let x := s.x a
    if s.me.vl ≠ 0 ∧ x.toNat % 16 ≠ 0 then s.trap cause x else s.fly i l.toNat true x 0 elemMoves mv also)

/-- DLD (R235, R236). -/
def execDld (l : BitVec 4) (d : DReg8) (a : Reg) (s : State) : Out :=
  s.transferIssue (.dld l d a) l d a 4 (fun t => t.setTags d 0) (goDld d)

/-- A dword of an element translated, before any is written (R183, R186). -/
def dwordPlace (f : Flight) : ElemAct := fun g k s =>
  (s.elemPlace g .store (elemDword f f.idx k) 8).bind (fun p s => .ok p.2 s)

/-- A dword of an element written. -/
def dwordWrite (f : Flight) (bs : List Byte) : ElemAct := fun g k s =>
  let va := elemDword f f.idx k
  (s.elemPlace g .store va 8).bind (fun p s =>
    (s.putVector va p.1 ((bs.drop (8 * k)).take 8)).bind (fun _ s => .ok p.2 s))

/-- One element of DST (R235): no dword is written unless all six can be (R186), and none is written twice (R45). -/
def goDst (d : DReg8) : Flight → State → Move := fun f s =>
  if f.vl ≤ f.idx then .over s
  else if f.pad f.idx then f.nextElem f.pages s
  else
    match eachElem (dwordPlace f) ((List.range 6).drop f.sub) f.pages s with
    | .stop t _ g s => .trap t { f with pages := g } s
    | .hold _ g s => .wait (s.onMe (fun t => t.setFlight { f with pages := g }))
    | .done g s =>
      match eachElem (dwordWrite f (bytesOfElem (s.me.dget d f.idx))) ((List.range 6).drop f.sub) g s with
      | .stop t _ g s => .trap t { f with pages := g } s
      | .hold k g s => .wait (s.onMe (fun t => t.setFlight { f with sub := k, pages := g }))
      | .done g s1 => if s1.retiredSince s then .over s1 else f.nextElem g s1

/-- DST (R235, R236). -/
def execDst (l : BitVec 4) (d : DReg8) (a : Reg) (s : State) : Out :=
  s.transferIssue (.dst l d a) l d a 6 id (goDst d)

end Sys2Proof.Machine
end

