-- ==== Sys2Proof/Machine/Geometry.lean ====
section
/-! DEFINITION. The two tests of the traversal unit, on boxes and triangles (R243, R244): exact arithmetic and one
rounding of each result. -/

namespace Sys2Proof.Machine

/-- An exact dyadic number: i · 2^e. -/
structure Dy where
  i : Int
  e : Int
deriving DecidableEq, Repr

/-- The exact sum. -/
def Dy.add (a b : Dy) : Dy :=
  let e := min a.e b.e
  { i := a.i * 2 ^ (a.e - e).toNat + b.i * 2 ^ (b.e - e).toNat, e := e }

/-- The exact negation. -/
def Dy.neg (a : Dy) : Dy := { a with i := -a.i }

/-- The exact difference. -/
def Dy.sub (a b : Dy) : Dy := a.add b.neg

/-- The exact product. -/
def Dy.mul (a b : Dy) : Dy := { i := a.i * b.i, e := a.e + b.e }

/-- A finite value. -/
def FVal.dy : FVal → Dy
  | .fin n m e => { i := if n then -(m : Int) else m, e := e }
  | _ => { i := 0, e := 0 }

/-- The value of an FP32 encoding. -/
def val32 (b : Nat) : FVal := FFmt.fp32.decode b

/-- round_fp32 of an exact number by RNE; an exact zero is +0 (log 15). -/
def Dy.round32 (a : Dy) : Nat := (FFmt.fp32.roundE .rne (Exact.ofDyadic a.i a.e false)).1

/-- round_fp32 of an exact quotient by RNE; an exact zero is +0 (log 15). -/
def Dy.quot32 (a b : Dy) : Nat :=
  if a.i = 0 then 0
  else (FFmt.fp32.round .rne (decide (a.i < 0) != decide (b.i < 0)) { n := a.i.natAbs, d := b.i.natAbs, e := a.e - b.e }).1

/-- Three coordinates. -/
abbrev Vec := Dy × Dy × Dy

/-- The difference of two vectors. -/
def Vec.sub (a b : Vec) : Vec := (a.1.sub b.1, a.2.1.sub b.2.1, a.2.2.sub b.2.2)

/-- The dot product. -/
def Vec.dot (a b : Vec) : Dy := ((a.1.mul b.1).add (a.2.1.mul b.2.1)).add (a.2.2.mul b.2.2)

/-- The cross product. -/
def Vec.cross (a b : Vec) : Vec :=
  ((a.2.1.mul b.2.2).sub (a.2.2.mul b.2.1), (a.2.2.mul b.1).sub (a.1.mul b.2.2), (a.1.mul b.2.1).sub (a.2.1.mul b.1))

/-- The encoding of +∞ in FP32. -/
def posInf32 : Nat := 0x7F800000

/-- The encoding of −∞ in FP32. -/
def negInf32 : Nat := 0xFF800000

/-- A word of a record. -/
def wordOf (l : List Nat) (k : Nat) : Nat := l.getD k 0

/-- A vector of three words of a record. -/
def vecOf (l : List Nat) (k : Nat) : Vec :=
  ((val32 (wordOf l k)).dy, (val32 (wordOf l (k + 1))).dy, (val32 (wordOf l (k + 2))).dy)

/-- R243: the quotient of a bound less an origin by a direction that is not zero, rounded once; none where it is ∞ − ∞. An
infinite difference gives an infinite quotient. An exactly zero difference counts as +0 before it is divided, also in the
quotient that RDN rounds: the sign that a zero lo or hi then has is stated nowhere (log 50). -/
def boxQuot (mode : RMode) (bound o d : Nat) : Option Nat :=
  let dv := val32 d
  match addVal false (val32 bound) (val32 o).negate with
  | .nan _ => none
  | .inf n => some (if n = dv.neg then posInf32 else negInf32)
  | .ex x =>
    match dv with
    | .fin n m e => some (FFmt.fp32.roundE mode { neg := x.neg != n, m := { n := x.m.n, d := m, e := x.m.e - e } }).1
    | _ => some (FFmt.fp32.zero (x.neg != dv.neg))

/-- R243: one axis: the interval narrowed, or none for a miss. Of +0 and −0 the interval keeps the earlier one: max and min
of the two are stated nowhere (log 50). -/
def boxAxis (ray box : List Nat) (a : Nat) (iv : Nat × Nat) : Option (Nat × Nat) :=
  let o := wordOf ray a
  let d := wordOf ray (3 + a)
  let lo := wordOf box a
  let hi := wordOf box (3 + a)
  if (val32 d).isZero then
    if cmpVal (val32 o) (val32 lo) < 0 ∨ 0 < cmpVal (val32 o) (val32 hi) then none else some iv
  else
    let near := if (val32 d).neg then hi else lo
    let far := if (val32 d).neg then lo else hi
    match boxQuot .rdn near o d, boxQuot .rup far o d with
    | some p, some q =>
      some (if 0 < cmpVal (val32 p) (val32 iv.1) then p else iv.1, if cmpVal (val32 q) (val32 iv.2) < 0 then q else iv.2)
    | _, _ => none

/-- The box test of R243: the interval of a hit. -/
def boxTest (ray box : List Nat) : Option (Nat × Nat) :=
  let bad := ((List.range 8).any (fun k => isNan32 (wordOf ray k)) || (List.range 6).any (fun k => isNan32 (wordOf box k)))
    || (List.range 3).any (fun a => decide (0 < cmpVal (val32 (wordOf box a)) (val32 (wordOf box (3 + a)))))
  if bad then none
  else
    match (List.range 3).foldl (fun (iv : Option (Nat × Nat)) a => iv.bind (boxAxis ray box a))
        (some (wordOf ray 6, wordOf ray 7)) with
    | some iv => if cmpVal (val32 iv.1) (val32 iv.2) ≤ 0 then some iv else none
    | none => none

/-- The result record of xbox (R243). -/
def boxRecord (ray box : List Nat) : List Nat :=
  match boxTest ray box with
  | some (lo, hi) => [lo, hi, 1, 0, 0, 0, 0, 0]
  | none => [posInf32, negInf32, 0, 0, 0, 0, 0, 0]

/-- What a triangle test finds: t and the two barycentric weights, and whether the ray meets the front (R244). -/
structure TriHit where
  t : Nat
  u : Nat
  v : Nat
  front : Bool
deriving DecidableEq, Repr

/-- Whether an FP32 encoding is finite. -/
def finite32 (b : Nat) : Bool := !(val32 b).isNan && !(val32 b).isInf

/-- Whether all of three numbers lie on one side of zero. -/
def oneSided (a b c : Dy) : Bool :=
  (decide (0 ≤ a.i) && decide (0 ≤ b.i) && decide (0 ≤ c.i)) || (decide (a.i ≤ 0) && decide (b.i ≤ 0) && decide (c.i ≤ 0))

/-- The triangle test of R244. -/
def triTest (ray tri : List Nat) : Option TriHit :=
  if !((List.range 6).all (fun k => finite32 (wordOf ray k)) && (List.range 9).all (fun k => finite32 (wordOf tri k))) then none
  else
    let o := vecOf ray 0
    let d := vecOf ray 3
    let v0 := vecOf tri 0
    let v1 := vecOf tri 3
    let v2 := vecOf tri 6
    let a := v0.sub o
    let b := v1.sub o
    let c := v2.sub o
    let e0 := d.dot (b.cross c)
    let e1 := d.dot (c.cross a)
    let e2 := d.dot (a.cross b)
    let s := (e0.add e1).add e2
    if s.i = 0 || !oneSided e0 e1 e2 then none
    else
      let t := (a.dot ((v1.sub v0).cross (v2.sub v0))).quot32 s
      let tmin := val32 (wordOf ray 6)
      let tmax := val32 (wordOf ray 7)
      if tmin.isNan || tmax.isNan || decide (cmpVal (val32 t) tmin < 0) || decide (0 < cmpVal (val32 t) tmax) then none
      else some { t := t, u := e1.quot32 s, v := e2.quot32 s, front := decide (s.i < 0) }

/-- The result record of xtri (R244). -/
def triRecord (ray tri : List Nat) : List Nat :=
  match triTest ray tri with
  | some h => [h.t, h.u, h.v, 1, if h.front then 1 else 0, wordOf tri 9, 0, 0]
  | none => [posInf32, 0, 0, 0, 0, wordOf tri 9, 0, 0]

end Sys2Proof.Machine
end

