-- ==== Sys2Proof/Machine/Graphics.lean ====
section
/-! DEFINITION. Geometry, coverage, feature-grid and commit instructions (R239 to R246, R251 to R256). -/

namespace Sys2Proof.Machine

/-! What the group shares (R239 to R241). -/

/-- R239, R37: the conditions on vtype.FMT, vl and VLEN under which an instruction of the group executes. -/
def State.gfxOk (s : State) (fmt vlen : Nat) (vlOk : Nat → Bool) : Bool :=
  let t := s.me
  vtFmt t.vtype == fmt && ((Fmt.ofCode fmt).map t.fmtFits).getD false && vlOk t.vl.toNat && decide (vlen ≤ cfgVlen t.vcfgst)

/-- FP32 (R50). -/
def fmtFP32 : Nat := 0x0A

/-- I32 (R50). -/
def fmtI32 : Nat := 0x02

/-- N32 (R50). -/
def fmtN32 : Nat := 0x06

/-- R239: vl is ignored. -/
def anyVl (_ : Nat) : Bool := true

/-- R239: vl is a multiple. -/
def vlTimes (k vl : Nat) : Bool := vl % k == 0

/-- n elements of a register from element k on, as 32-bit words. -/
def Hart.words (t : Hart) (v : Reg) (k n : Nat) : List Nat := (List.range n).map (fun j => elemAt (t.vget v) 32 (k + j))

/-- A record written to a register's 32-bit elements from element k on. -/
def Hart.putWords (t : Hart) (v : Reg) (k : Nat) (l : List Nat) : Hart :=
  t.vset v ((l.zipIdx).foldl (fun a e => elemSet a 32 (k + e.2) e.1) (t.vget v))

/-- The all-zero record that a pad record writes (R239). -/
def zeroRecord (n : Nat) : List Nat := List.replicate n 0

/-- R241, R45: the records of a graphics flight from where it stands to the next stopping point: a boundary of `grp`
elements. Records are `per` elements of the counted operand apart. -/
def recMove (per grp : Nat) (act : Nat → State → Acc Unit) (f : Flight) (s : State) : Move :=
  if f.vl ≤ f.idx then .over s
  else
    let stop := min f.vl (f.groupEnd grp)
    let ks := (List.range ((stop - f.idx + per - 1) / per)).map (fun j => f.idx + per * j)
    match eachElem (fun _ => act) (ks.drop f.sub) () s with
    | .done _ s1 =>
      if s1.retiredSince s || decide (f.vl ≤ f.groupEnd grp) then .over s1
      else .more { f with idx := f.groupEnd grp, sub := 0, probed := false } s1
    | .stop t k _ s => .trap t { f with idx := k, sub := 0 } s
    | .hold k _ s => .wait (s.onMe (fun t => t.setFlight { f with sub := (k - f.idx) / per }))

/-- R392: a translation fault is reported to the firmware, and the unit parks. -/
def State.park (s : State) (die : Nat) (p : Parked) : State :=
  if (s.die die).parked.any (fun q => q.who == p.who && q.tag == p.tag) then s
  else (s.onDie die (fun d => { d with parked := d.parked ++ [p] })).post (.engineFaultService die)

/-- Whether a unit is parked. -/
def State.isParked (s : State) (die tag : Nat) (who : Agent) : Bool :=
  (s.die die).parked.any (fun q => q.who == who && q.tag == tag)

/-- R392, R250: the records of a flight that reads through the texture and feature-grid unit. A page fault of a read is
reported to the firmware, and the flight waits at its record; what the firmware cannot service, which it leaves in `probed`,
is taken as a trap by R186 (log 63). -/
def unitMove (mv : Flight → State → Move) (f : Flight) (s : State) : Move :=
  match s.myCore.serving with
  | none => mv f s
  | some (tag, lcore) =>
    let die := dieOf s.cur.core
    let who : Agent := .flight lcore s.cur.h f.id
    if s.isParked die tag who then .wait s
    else
      match mv f s with
      | .trap t g s1 =>
        if t.cause = 13 ∧ !f.probed then
          .wait ((s1.onMe (fun t => t.setFlight (f.keep g))).park die
            { tag := tag, va := t.tval, store := false, user := s.me.mode == .u, who := who })
        else .trap t g s1
      | m => m

/-- A record of registers alone. -/
def regRecord (g : Hart → Hart) (s : State) : Acc Unit := .ok () (s.onMe g)

/-- An instruction of the group that goes into flight. -/
def State.gfxIssue (s : State) (i : Instr) (l : BitVec 4) (ok : Bool) (cls : Nat) (xa xb : Word)
    (mv : Flight → State → Move) : Out :=
  s.issueVec i true ok (some cls) (fun s => s.fly i l.toNat true xa xb groupMoves mv)

/-! Descriptors (R247, R252, R255). -/

/-- The cause of a descriptor fault (R291). -/
def descFault : Nat := 29

/-- The flight of a hardware context that has just been launched, with the descriptor read at its issue. -/
def Hart.describe (t : Hart) (bs : List Byte) : Hart :=
  { t with chain := t.chain.map (fun f => if f.id + 1 = t.nextId then { f with desc := bs } else f) }

/-- The descriptor of an instruction read and checked at issue, after the older accesses in flight (R181): a fault of the read is taken with SIDX = 0, a byte in
error is a descriptor fault. -/
def State.withDescriptor (s : State) (i : Instr) (xa xb : Word) (align n : Nat) (check : State → List Byte → Option Nat)
    (k : List Byte → State → Out) : Out :=
  s.inOrder (fun s =>
    match s.readRecord xb align n with
    | .ok bs s =>
      match check s bs with
      | some o => s.trap descFault (xb + BitVec.ofNat 64 o)
      | none => k bs s
    | .trap t s => s.trapFirst i xa xb t
    | .wait s => .next s)

/-- A flight that was stopped reads its descriptor again before it goes on. -/
def reread (align n : Nat) (check : State → List Byte → Option Nat) (k : Flight → State → Move) (f : Flight)
    (s : State) : Move :=
  if f.desc.isEmpty then
    match s.readRecord f.xb align n with
    | .ok bs s =>
      match check s bs with
      | some o => .trap { cause := descFault, tval := f.xb + BitVec.ofNat 64 o } f s
      | none => .more { f with desc := bs } s
    | .trap t s => .trap t f s
    | .wait s => .wait s
  else k f s

/-- An instruction with a descriptor at issue. -/
def State.descIssue (s : State) (i : Instr) (l : BitVec 4) (ok : Bool) (cls : Nat) (xa xb : Word) (align n : Nat)
    (check : State → List Byte → Option Nat) (mv : Flight → State → Move) : Out :=
  s.issueVec i true ok (some cls) (fun s =>
    s.withDescriptor i xa xb align n check (fun bs s =>
      s.fly i l.toNat true xa xb groupMoves mv (fun t => t.describe bs)))

/-! Box and triangle tests. -/

/-- One record of XBOX (R243). -/
def goXbox (d a b : Reg) : Flight → State → Move := fun f => recMove 8 8 (fun k => regRecord (fun t =>
  t.putWords d k (if f.pad k then zeroRecord 8 else boxRecord (t.words a k 8) (t.words b k 8)))) f

/-- XBOX (R243). -/
def execXbox (l : BitVec 4) (d a b : Reg) (s : State) : Out :=
  s.gfxIssue (.xbox l d a b) l (s.gfxOk fmtFP32 256 (vlTimes 8)) 61 0 0 (goXbox d a b)

/-- One record of XTRI (R244); `k` counts in vb. -/
def goXtri (d a b : Reg) : Flight → State → Move := fun f => recMove 16 16 (fun k => regRecord (fun t =>
  t.putWords d (k / 2) (if f.pad k then zeroRecord 8 else triRecord (t.words a (k / 2) 8) (t.words b k 16)))) f

/-- XTRI (R244). -/
def execXtri (l : BitVec 4) (d a b : Reg) (s : State) : Out :=
  s.gfxIssue (.xtri l d a b) l (s.gfxOk fmtFP32 512 (vlTimes 16)) 61 0 0 (goXtri d a b)

/-! Coverage and deduplication. -/

/-- The sample positions of a sample code (R245). -/
def samplePos (code : Nat) : List (Nat × Nat) :=
  match code with
  | 0 => [(128, 128)]
  | 1 => [(192, 192), (64, 64)]
  | _ => [(96, 32), (224, 96), (32, 160), (160, 224)]

/-- inside_k of R245. -/
def insideEdge (a b c : Int) (px py : Int) : Bool :=
  let e := a * px + b * py + c
  decide (0 < e) || (decide (e = 0) && (decide (0 < a) || (decide (a = 0) && decide (0 < b))))

/-- Edge k of a primitive's twelve words (R245). -/
def edgeOf (w : List Nat) (k : Nat) : Int × Int × Int :=
  (asSigned 32 (wordOf w (2 * k)), asSigned 32 (wordOf w (2 * k + 1)),
    asSigned 64 (wordOf w (6 + 2 * k) + 2 ^ 32 * wordOf w (7 + 2 * k)))

/-- The coverage bits of R245, as a number. -/
def coverage (w : List Nat) (x0 y0 : Nat) (pos : List (Nat × Nat)) : Nat :=
  let n := pos.length
  (List.range 64).foldl (fun m p =>
    (pos.zipIdx).foldl (fun m q =>
      let px : Int := ((256 * (x0 + p % 8) + q.1.1 : Nat) : Int)
      let py : Int := ((256 * (y0 + p / 8) + q.1.2 : Nat) : Int)
      if (List.range 3).all (fun k => let e := edgeOf w k; insideEdge e.1 e.2.1 e.2.2 px py) then m + 2 ^ (p * n + q.2)
      else m) m) 0

/-- XEDGE's result (R245). -/
def Hart.xedge (t : Hart) (d a : Reg) (xb : Word) : Hart :=
  let pos := samplePos (field xb 32 2)
  let m := coverage (t.words a 0 12) (field xb 0 16) (field xb 16 16) pos
  t.vset d (((t.vget d) >>> (64 * pos.length) <<< (64 * pos.length)) ||| BitVec.ofNat 16384 m)

/-- An instruction of the group that runs to completion at issue (R241): what it reads has been written. Its window opens
(R41). -/
def State.gfxNow (s : State) (i : Instr) (l : BitVec 4) (ok : Bool) (cls : Nat) (g : Hart → Hart) : Out :=
  s.issueVec i true ok (some cls) (fun s => s.drained (fun s => (s.onMe g).doneLong l (Instr.uses i).reads (Instr.uses i).writes))

/-- XEDGE (R245). -/
def execXedge (l : BitVec 4) (d a b : Reg) (s : State) : Out :=
  let xb := s.x b
  s.gfxNow (.xedge l d a b) l (s.gfxOk fmtI32 512 anyVl) 63 (fun t => t.xedge d a xb)

/-- R246: the mask of slot j over the samples below `n`. -/
def slotMask (ids : List Nat) (j : Nat) : Nat :=
  (ids.zipIdx).foldl (fun m e => if e.1 = j then m + 2 ^ e.2 else m) 0

/-- VDEDUP's result (R246). -/
def Hart.vdedup (t : Hart) (d a b : Reg) : Hart :=
  let ids := t.words a 0 (t.vl.toNat - t.vpad.toNat)
  (List.range (cfgVlen t.vcfgst / 256)).foldl (fun r j =>
    let mask := slotMask ids j
    r.putWords d (8 * j)
      (if mask = 0 then [0xFFFFFFFF, 0, 0, 0, 0, 0, 0, 0] else [j, mask] ++ t.words b (8 * j) 6)) t

/-- VDEDUP (R246). -/
def execVdedup (l : BitVec 4) (d a b : Reg) (s : State) : Out :=
  s.gfxNow (.vdedup l d a b) l (s.gfxOk fmtN32 256 (fun vl => decide (1 ≤ vl) && decide (vl ≤ 32))) 63
    (fun t => t.vdedup d a b)

/-! Level of detail. -/

/-- An FP32 value's floor clamped to 1 to 16; NaN gives 1 (R251). -/
def anisoLimit (b : Nat) : Nat :=
  match val32 b with
  | .nan _ => 1
  | .inf n => if n then 1 else 16
  | .fin n m e => (max 1 (min 16 (floorDyadic n m e))).toNat

/-- N of R251, from pmax, pmin and A. -/
def anisoCount (pmax pmin a : Nat) : Nat :=
  if (val32 pmin).isZero then a
  else
    match val32 (FFmt.fp32.div .rne pmax pmin).1 with
    | .fin n m e => (max 0 (min (a : Int) (-(floorDyadic (!n) m e)))).toNat
    | .inf true => 0
    | _ => a

/-- Elements 3 to 6 of a record of tgrad (R251). -/
def gradRecord (g w : List Nat) : List Nat :=
  let mul (a b : Nat) : Nat := (FFmt.fp32.mul .rne a b).1
  let len (x y : Nat) : Nat :=
    (FFmt.fp32.fn .rne .sqrt (FFmt.fp32.add .rne (mul x x) (mul y y)).1).1
  let ux := wordOf g 0
  let uy := wordOf g 1
  let vx := wordOf g 2
  let vy := wordOf g 3
  let px := len (mul ux (wordOf w 0)) (mul vx (wordOf w 1))
  let py := len (mul uy (wordOf w 0)) (mul vy (wordOf w 1))
  let pmax := (FFmt.fp32.minmax true px py).1
  let pmin := (FFmt.fp32.minmax false px py).1
  let n := (FFmt.fp32.ofInt .rne (anisoCount pmax pmin (anisoLimit (wordOf w 2)) : Nat)).1
  let lod := (FFmt.fp32.add .rne (FFmt.fp32.fn .rne .log2 (FFmt.fp32.div .rne pmax n).1).1 (wordOf w 3)).1
  let first := !isNan32 px && !isNan32 py && decide (0 ≤ cmpVal (val32 px) (val32 py))
  [lod, n, if first then ux else uy, if first then vx else vy]

/-- One record of TGRAD (R251): elements 0 to 2 and 7 keep their values. -/
def goTgrad (d a b : Reg) : Flight → State → Move := fun f => recMove 8 8 (fun k => regRecord (fun t =>
  t.putWords d (k + 3) (if f.pad k then zeroRecord 4 else gradRecord (t.words a k 4) (t.words b k 4)))) f

/-- TGRAD (R251). -/
def execTgrad (l : BitVec 4) (d a b : Reg) (s : State) : Out :=
  s.gfxIssue (.tgrad l d a b) l (s.gfxOk fmtFP32 256 (vlTimes 8)) 63 0 0 (goTgrad d a b)

/-! Feature grids. -/

/-- R252: the first byte of a grid descriptor that is in error. -/
def gridError (_ : State) (bs : List Byte) : Option Nat :=
  let soff := at_ bs 12 2
  if at_ bs 0 8 % 16 ≠ 0 then some 0
  else if at_ bs 8 1 = 0 ∨ 16 < at_ bs 8 1 then some 8
  else if at_ bs 9 1 ≠ 2 ∧ at_ bs 9 1 ≠ 4 then some 9
  else if at_ bs 10 1 < 10 ∨ 24 < at_ bs 10 1 then some 10
  else if at_ bs 11 1 ≠ 0 then some 11
  else if soff % 64 ≠ 0 ∨ soff < 512 ∨ 24064 < soff then some 12
  else
    match nonzeroIn bs 14 2 with
    | some o => some o
    | none =>
      match (List.range (at_ bs 8 1)).find? (fun k => at_ bs (16 + 2 * k) 2 = 0) with
      | some k => some (16 + 2 * k)
      | none => nonzeroIn bs 48 16

/-- R253: a coordinate on a level of n cells: its cell and the exact fraction in it. -/
def gridCoord (n b : Nat) : Nat × Dy :=
  let p : Dy :=
    match val32 b with
    | .inf neg => { i := if neg then 0 else 1, e := 0 }
    | v =>
      if v.neg then { i := 0, e := 0 }
      else if 0 < cmpVal v (.fin false 1 0) then { i := 1, e := 0 } else v.dy
  let q := p.mul { i := (n : Int), e := 0 }
  let c := min (fixOf false q.i.natAbs q.e 0).toNat (n - 1)
  (c, q.sub { i := (c : Int), e := 0 })

/-- R253: the index of a corner in a level's table of 2^logt entries. -/
def gridIndex (n logt cx cy cz : Nat) : Nat :=
  if (n + 1) ^ 3 ≤ 2 ^ logt then cx + (n + 1) * (cy + (n + 1) * cz)
  else ((cx ^^^ (cy * 0x9E3779B1 % 2 ^ 32)) ^^^ (cz * 0x85EBCA77 % 2 ^ 32)) % 2 ^ logt

/-- A weight as a value. -/
def Dy.val (w : Dy) : FVal := .fin (decide (w.i < 0)) w.i.natAbs w.e

/-- An exact sum of products rounded once to FP32 by RNE; a zero sum of products that are all −0 is −0 (R62; log 15). -/
def dot32 (ps : List (FVal × FVal)) : Nat := (FFmt.fp32.convert .rne (dotVal ps)).1

/-- R253: the eight corners of a cell with their weights. -/
def gridCorners (cs : List (Nat × Dy)) : List (List Nat × Dy) :=
  (List.range 8).map (fun k =>
    ((List.range 3).map (fun a => (cs.getD a (0, ⟨0, 0⟩)).1 + k / 2 ^ a % 2),
      (List.range 3).foldl (fun w a =>
        let f := (cs.getD a (0, ⟨0, 0⟩)).2
        w.mul (if k / 2 ^ a % 2 = 1 then f else (Dy.mk 1 0).sub f)) ⟨1, 0⟩))

/-- R253: the feature values of one level. -/
def gridLevel (bs : List Byte) (p : List Nat) (l : Nat) (s : State) : Acc (List Nat) :=
  let feat := at_ bs 9 1
  let logt := at_ bs 10 1
  let n := at_ bs (16 + 2 * l) 2
  if p.any isNan32 then .ok (List.replicate feat FFmt.fp32.nanCode) s
  else
    let corners := gridCorners (p.map (gridCoord n))
    (Acc.list (fun (c : List Nat × Dy) s =>
      let h := gridIndex n logt (wordOf c.1 0) (wordOf c.1 1) (wordOf c.1 2)
      s.unitRead (BitVec.ofNat 64 (at_ bs 0 8 + l * 2 ^ logt * feat * 2 + h * feat * 2)) (2 * feat)) corners s).bind
      (fun es s => .ok ((List.range feat).map (fun k =>
        dot32 ((corners.zip es).map (fun c => (c.1.2.val, FFmt.fp16.decode (at_ c.2 (2 * k) 2)))))) s)

/-- R253: the scale and the 32 elements of block j of a row. -/
def gridBlock (values : List Nat) (j : Nat) : Nat × List Nat :=
  let xs := (values.drop (32 * j)).take 32
  let sc := (blockScaleOf 0 0 xs).1
  let sv := scaleVal 0 sc
  let els := xs.map (fun x => if sv.isNan then 0x7F else (quantise 0 .rne (val32 x) sv).1)
  (sc, (els ++ List.replicate 32 0).take 32)

/-- R253: one record of a gfeat whose slot address and descriptor are given: row r of the panel. -/
def gridRow (slot : Word) (bs : List Byte) (a : Reg) (pad : Bool) (k : Nat) (s : State) : Acc Unit :=
  if pad then .ok () s
  else
    let r := k / 4
    let p := s.me.words a k 3
    (Acc.list (gridLevel bs p) (List.range (at_ bs 8 1)) s).bind (fun vs s =>
      let b0 := gridBlock vs.flatten 0
      let b1 := gridBlock vs.flatten 1
      let sc := slot + BitVec.ofNat 64 (at_ bs 12 2 + 16 * r)
      (s.writeVector (slot + BitVec.ofNat 64 (64 * r)) ((b0.2 ++ b1.2).map (BitVec.ofNat 8))).bind (fun _ s =>
        (s.writeVector sc [BitVec.ofNat 8 b0.1]).bind (fun _ s => s.writeVector (sc + 1) [BitVec.ofNat 8 b1.1])))

/-- R254: whether the extent of a panel lies in the core's own scratchpad, through the local window. -/
def State.ownPanel (s : State) (slot : Word) (n : Nat) : Bool :=
  inWindows slot.toNat && decide (slot.toNat - winBase < 0x100000) && (s.scratchAt s.cur.core slot n).isSome

/-- R254: what is wrong with the slot of a gfeat whose descriptor has been read. -/
def State.slotFault (s : State) (slot : Word) (bs : List Byte) : Option Trap :=
  if slot.toNat % 64 ≠ 0 then some { cause := 6, tval := slot }
  else if !s.ownPanel slot (at_ bs 12 2 + 128) then some { cause := 7, tval := slot }
  else none

/-- The records of one element group of GFEAT (R253); one that has read its descriptor again checks its slot by it. -/
def goGfeat (a : Reg) : Flight → State → Move :=
  reread 64 64 gridError (fun f s =>
    match s.slotFault f.xa f.desc with
    | some t => .trap t f s
    | none => unitMove (fun f => recMove 4 8 (fun k => gridRow f.xa f.desc a (f.pad k) k) f) f s)

/-- GFEAT (R252 to R254). The descriptor is read and checked before the slots that it speaks of (log 28). -/
def execGfeat (l : BitVec 4) (d a b : Reg) (s : State) : Out :=
  let slot := s.x d
  let xb := s.x b
  let i : Instr := .gfeat l d a b
  s.issueVec i true (s.gfxOk fmtFP32 256 (fun vl => vlTimes 4 vl && decide (vl ≤ 32))) (some 62) (fun s =>
    s.withDescriptor i slot xb 64 64 gridError (fun bs s =>
      match s.slotFault slot bs with
      | some t => s.trap t.cause t.tval
      | none => s.fly i l.toNat true slot xb groupMoves (goGfeat a) (fun t => t.describe bs)))

/-! Returning colour. -/

/-- The owner of an active pass that a commit record names. -/
def State.commitUnitOf (s : State) (tag : Nat) (bs : List Byte) : Option (Pass × OwnerUnit) :=
  match s.pass tag (at_ bs 8 4) with
  | some p => (p.unit (at_ bs 4 4)).map (fun u => (p, u))
  | none => none

/-- R255: the first byte of a commit record that is in error. -/
def commitError (s : State) (bs : List Byte) : Option Nat :=
  match s.pass s.myTag (at_ bs 8 4) with
  | none => some 8
  | some p =>
    match p.unit (at_ bs 4 4) with
    | none => some 4
    | some _ =>
      if p.side * p.side / 8 ≤ at_ bs 12 2 then some 12
      else if 2 < at_ bs 14 1 then some 14
      else if at_ bs 15 1 ≠ 0 then some 15
      else nonzeroIn bs 20 12

/-- The commit that a record and a register's colours make (R255): each sample of a pixel takes the pixel's colour. -/
def State.commitOf (s : State) (p : Pass) (bs : List Byte) (a : Reg) : Commit :=
  let w := s.me.words a 0 32
  { ticket := at_ bs 0 4
    block := at_ bs 12 2
    cover := BitVec.ofNat 32 (at_ bs 16 4)
    colours := (List.range (8 * p.nsamp)).flatMap (fun j =>
      (List.range 4).map (fun c => BitVec.ofNat 32 (wordOf w (4 * (j / p.nsamp) + c))))
    prio := match s.me.task with
      | some k => s.prioOf s.myTag k.task
      | none => 0 }

/-- R362: a helper's obligation is met by an accepted commit of the same owner, pass, block and ticket. -/
def Hart.meet (t : Hart) (bs : List Byte) : Hart :=
  match t.task with
  | some k =>
    let o : Obligation := { owner := at_ bs 4 4, pass := at_ bs 8 4, block := at_ bs 12 2, ticket := at_ bs 0 4 }
    if k.obligation = some o then { t with task := some { k with met := true } } else t
  | none => t

/-- The oldest access of memory in flight that is older than a flight. -/
def Hart.olderAccess (t : Hart) (f : Flight) : Option Flight :=
  (t.chain.takeWhile (fun g => g.id != f.id)).find? Flight.isMemory

/-- ZCOMMIT's offer (R256, R363): accepted, or kept waiting. Acceptance is a release at .die scope: every earlier access of the
hardware context is performed first, those of its matrix commands among them (R211); rays are waited for only as far as the
task's own code waits (R367). A pass that has closed drops what is left. -/
def goZcommit (a : Reg) : Flight → State → Move :=
  reread 32 32 commitError (fun f s =>
    match s.me.olderAccess f with
    | some g => .wait (s.post (g.mover s.cur))
    | none =>
      match s.matrixDue with
      | some e => .wait (s.post e)
      | none =>
        match s.flush s.cur.core with
        | .ok _ s =>
          let tag := s.myTag
          match s.commitUnitOf tag f.desc with
          | none => .over (s.onMe (fun t => { t with zwait := none }))
          | some (p, u) =>
            let k := s.commitOf p f.desc a
            let n := at_ f.desc 8 4
            match s.offer tag n u.lcore k with
            | .accepted s => .over (s.onMe (fun t => { t.meet f.desc with zwait := none }))
            | .refused s =>
              let w : Offered := { pass := n, owner := u.lcore, ticket := k.ticket, block := k.block, cover := k.cover }
              .wait (s.onMe (fun t => { t with zwait := some w }))
        | .trap t s => .trap t f s
        | .wait s => .wait s)

/-- ZCOMMIT (R255, R256). -/
def execZcommit (l : BitVec 4) (a b : Reg) (s : State) : Out :=
  s.descIssue (.zcommit l a b) l (s.gfxOk fmtFP32 1024 anyVl) 63 0 (s.x b) 32 32 commitError (goZcommit a)

end Sys2Proof.Machine
end

