-- ==== Sys2Proof/Machine/TexelBlocks.lean ====
section
/-! DEFINITION. Texel blocks (R248): S3TC, RGTC and BPTC by the Khronos Data Format Specification (log 17), with the
choices that R248 makes. A decoded channel is an FP32 encoding. -/

namespace Sys2Proof.Machine

/-- n bits of a block from bit lo. -/
def cut (b lo n : Nat) : Nat := b >>> lo % 2 ^ n

/-! Channels. -/

/-- A non-negative fraction as an FP32 texel value. -/
def fracTexel (n d : Nat) : Nat := (FFmt.fp32.roundE .rne { neg := false, m := { n := n, d := d, e := 0 } }).1

/-- The integer fifth root, from above by halving. -/
def root5 (x : Nat) : Nat → Nat → Nat
  | 0, r => r
  | k + 1, r => let r' := r + 2 ^ k; root5 x k (if r' ^ 5 ≤ x then r' else r)

/-- The IEC 61966-2-1 curve on a fraction of 0 to 1, rounded once: ((x + 0.055) / 1.055)^2.4 above 0.04045, as an exact
fifth root with a sticky bit. -/
def curveTexel (n d : Nat) : Nat :=
  if n * 100000 ≤ 4045 * d then fracTexel (n * 100) (d * 1292)
  else
    let p := 1000 * n + 55 * d
    let q := 1055 * d
    let a := p ^ 12 * 2 ^ 240 / q ^ 12
    let r := root5 a 50 0
    if r ^ 5 * q ^ 12 = p ^ 12 * 2 ^ 240 then fracTexel r (2 ^ 48) else fracTexel (2 * r + 1) (2 ^ 49)

/-- A colour channel, with the curve or without. -/
def colourTexel (srgb : Bool) (n d : Nat) : Nat := if srgb then curveTexel n d else fracTexel n d

/-- A signed normalised fraction n / d, not below −1. -/
def signedTexel (n : Int) (d : Nat) : Nat :=
  let k := if n < -(d : Int) then -(d : Int) else n
  (FFmt.fp32.roundE .rne { neg := decide (k < 0), m := { n := k.natAbs, d := d, e := 0 } }).1

/-- An FP16 channel. -/
def halfTexel (b : Nat) : Nat := (FFmt.fp32.convert .rne (FFmt.fp16.decode b)).1

/-- 1.0 in FP32. -/
def one32 : Nat := 0x3F800000

/-! S3TC and RGTC. -/

/-- A 565 colour expanded to 8 bits a channel by replication. -/
def expand565 (c : Nat) : List Nat :=
  let r := cut c 11 5
  let g := cut c 5 6
  let b := cut c 0 5
  [r * 8 + r / 4, g * 4 + g / 16, b * 8 + b / 4]

/-- A channel between two, as numerator and denominator: an index of a four-colour block. -/
def mix4 (a b i : Nat) : Nat × Nat :=
  match i with
  | 0 => (a, 255)
  | 1 => (b, 255)
  | 2 => (2 * a + b, 765)
  | _ => (a + 2 * b, 765)

/-- The colour of texel k of a colour block; `punch` admits the three-colour mode of BC1. -/
def colourBlock (punch srgb : Bool) (b k : Nat) : List Nat :=
  let c0 := cut b 0 16
  let c1 := cut b 16 16
  let i := cut b (32 + 2 * k) 2
  let ch (j : Nat) : Nat × Nat := ((expand565 c0).getD j 0, (expand565 c1).getD j 0)
  if punch && decide (c0 ≤ c1) then
    if i = 3 then [0, 0, 0, 0]
    else
      (List.range 3).map (fun j =>
        let e := ch j
        match i with
        | 0 => colourTexel srgb e.1 255
        | 1 => colourTexel srgb e.2 255
        | _ => colourTexel srgb (e.1 + e.2) 510) ++ [one32]
  else
    (List.range 3).map (fun j =>
      let e := ch j
      let f := mix4 e.1 e.2 i
      colourTexel srgb f.1 f.2) ++ [one32]

/-- A single-channel block of texel k: its value times the denominator of its mode, and that denominator; the endpoints
and the two fixed values are given. -/
def ramp (a0 a1 lo hi : Int) (i : Nat) : Int × Nat :=
  if i = 0 then (a0, 1)
  else if i = 1 then (a1, 1)
  else if a1 < a0 then ((8 - (i : Int)) * a0 + ((i : Int) - 1) * a1, 7)
  else if i = 6 then (lo, 1)
  else if i = 7 then (hi, 1)
  else ((6 - (i : Int)) * a0 + ((i : Int) - 1) * a1, 5)

/-- A channel of BC3's alpha, BC4 or BC5 at texel k. -/
def rampTexel (signed : Bool) (b k : Nat) : Nat :=
  let i := cut b (16 + 3 * k) 3
  if signed then
    let r := ramp (asSigned 8 (cut b 0 8)) (asSigned 8 (cut b 8 8)) (-127) 127 i
    signedTexel r.1 (127 * r.2)
  else
    let r := ramp (cut b 0 8 : Nat) (cut b 8 8 : Nat) 0 255 i
    fracTexel r.1.toNat (255 * r.2)

/-- BC1 to BC5 at texel k of a block. -/
def bc15 (n : Nat) (srgb signed : Bool) (b k : Nat) : List Nat :=
  let hi := b / 2 ^ 64
  match n with
  | 1 => colourBlock true srgb b k
  | 2 => (colourBlock false srgb hi k).take 3 ++ [fracTexel (cut b (4 * k) 4) 15]
  | 3 => (colourBlock false srgb hi k).take 3 ++ [rampTexel false b k]
  | 4 => [rampTexel signed b k, 0, 0, one32]
  | _ => [rampTexel signed b k, rampTexel signed hi k, 0, one32]

/-! BPTC. -/

/-- The partitions into two subsets: two bits per texel. -/
def subsets2 : List Nat :=
  [0x50505050, 0x40404040, 0x54545454, 0x54505040, 0x50404000, 0x55545450, 0x55545040, 0x54504000,
    0x50400000, 0x55555450, 0x55544000, 0x54400000, 0x55555440, 0x55550000, 0x55555500, 0x55000000]
    ++ [0x55150100, 0x00004054, 0x15010000, 0x00405054, 0x00004050, 0x15050100, 0x05010000, 0x40505054,
    0x00404050, 0x05010100, 0x14141414, 0x05141450, 0x01155440, 0x00555500, 0x15014054, 0x05414150]
    ++ [0x44444444, 0x55005500, 0x11441144, 0x05055050, 0x05500550, 0x11114444, 0x41144114, 0x44111144,
    0x15055054, 0x01055040, 0x05041050, 0x05455150, 0x14414114, 0x50050550, 0x41411414, 0x00141400]
    ++ [0x00041504, 0x00105410, 0x10541000, 0x04150400, 0x50410514, 0x41051450, 0x05415014, 0x14054150,
    0x41050514, 0x41505014, 0x40011554, 0x54150140, 0x50505500, 0x00555050, 0x15151010, 0x54540404]

/-- The partitions into three subsets: two bits per texel. -/
def subsets3 : List Nat :=
  [0xAA685050, 0x6A5A5040, 0x5A5A4200, 0x5450A0A8, 0xA5A50000, 0xA0A05050, 0x5555A0A0, 0x5A5A5050,
    0xAA550000, 0xAA555500, 0xAAAA5500, 0x90909090, 0x94949494, 0xA4A4A4A4, 0xA9A59450, 0x2A0A4250]
    ++ [0xA5945040, 0x0A425054, 0xA5A5A500, 0x55A0A0A0, 0xA8A85454, 0x6A6A4040, 0xA4A45000, 0x1A1A0500,
    0x0050A4A4, 0xAAA59090, 0x14696914, 0x69691400, 0xA08585A0, 0xAA821414, 0x50A4A450, 0x6A5A0200]
    ++ [0xA9A58000, 0x5090A0A8, 0xA8A09050, 0x24242424, 0x00AA5500, 0x24924924, 0x24499224, 0x50A50A50,
    0x500AA550, 0xAAAA4444, 0x66660000, 0xA5A0A5A0, 0x50A050A0, 0x69286928, 0x44AAAA44, 0x66666600]
    ++ [0xAA444444, 0x54A854A8, 0x95809580, 0x96969600, 0xA85454A8, 0x80959580, 0xAA141414, 0x96960000,
    0xAAAA1414, 0xA05050A0, 0xA0A5A5A0, 0x96000000, 0x40804080, 0xA9A8A9A8, 0xAAAAAA44, 0x2A4A5254]

/-- The anchor texel of the second of two subsets. -/
def anchors2 : List Nat :=
  [15, 15, 15, 15, 15, 15, 15, 15,
    15, 15, 15, 15, 15, 15, 15, 15]
    ++ [15, 2, 8, 2, 2, 8, 8, 15,
    2, 8, 2, 2, 8, 8, 2, 2]
    ++ [15, 15, 6, 8, 2, 8, 15, 15,
    2, 8, 2, 2, 2, 15, 15, 6]
    ++ [6, 2, 6, 8, 15, 15, 2, 2,
    15, 15, 15, 15, 15, 2, 2, 15]

/-- The anchor texel of the second of three subsets. -/
def anchors3a : List Nat :=
  [3, 3, 15, 15, 8, 3, 15, 15,
    8, 8, 6, 6, 6, 5, 3, 3]
    ++ [3, 3, 8, 15, 3, 3, 6, 10,
    5, 8, 8, 6, 8, 5, 15, 15]
    ++ [8, 15, 3, 5, 6, 10, 8, 15,
    15, 3, 15, 5, 15, 15, 15, 15]
    ++ [3, 15, 5, 5, 5, 8, 5, 10,
    5, 10, 8, 13, 15, 12, 3, 3]

/-- The anchor texel of the third of three subsets. -/
def anchors3b : List Nat :=
  [15, 8, 8, 3, 15, 15, 3, 8,
    15, 15, 15, 15, 15, 15, 15, 8]
    ++ [15, 8, 15, 3, 15, 8, 15, 8,
    3, 15, 6, 10, 15, 15, 10, 8]
    ++ [15, 3, 15, 10, 10, 8, 9, 10,
    6, 15, 8, 15, 3, 6, 6, 8]
    ++ [15, 3, 15, 15, 15, 15, 15, 15,
    15, 15, 15, 15, 3, 15, 15, 8]

/-- The interpolation weights of an index width. -/
def bptcWeights (n : Nat) : List Nat :=
  match n with
  | 2 => [0, 21, 43, 64]
  | 3 => [0, 9, 18, 27, 37, 46, 55, 64]
  | _ => [0, 4, 9, 13, 17, 21, 26, 30, 34, 38, 43, 47, 51, 55, 60, 64]

/-- The subset of texel k. -/
def subsetOf (n p k : Nat) : Nat :=
  match n with
  | 2 => cut (subsets2.getD p 0) (2 * k) 2
  | 3 => cut (subsets3.getD p 0) (2 * k) 2
  | _ => 0

/-- The anchor texels, whose indices are one bit shorter. -/
def anchorsOf (n p : Nat) : List Nat :=
  match n with
  | 2 => [0, anchors2.getD p 0]
  | 3 => [0, anchors3a.getD p 0, anchors3b.getD p 0]
  | _ => [0]

/-- The index of texel k in a list of indices that starts at a bit. -/
def indexOfTexel (b start bits : Nat) (anchors : List Nat) (k : Nat) : Nat :=
  let before := (anchors.filter (fun a => decide (a < k))).length
  cut b (start + bits * k - before) (if anchors.contains k then bits - 1 else bits)

/-- A mode of BC7: subsets, and the bits of partition, rotation, index selection, colour, alpha, endpoint and shared
p-bits, and the two index widths. -/
structure Bc7Mode where
  subsets : Nat
  part : Nat
  rot : Nat
  sel : Nat
  col : Nat
  alpha : Nat
  epb : Nat
  spb : Nat
  ix : Nat
  ix2 : Nat
deriving DecidableEq, Repr

/-- The modes of BC7. -/
def bc7Mode (m : Nat) : Option Bc7Mode :=
  match m with
  | 0 => some ⟨3, 4, 0, 0, 4, 0, 1, 0, 3, 0⟩
  | 1 => some ⟨2, 6, 0, 0, 6, 0, 0, 1, 3, 0⟩
  | 2 => some ⟨3, 6, 0, 0, 5, 0, 0, 0, 2, 0⟩
  | 3 => some ⟨2, 6, 0, 0, 7, 0, 1, 0, 2, 0⟩
  | 4 => some ⟨1, 0, 2, 1, 5, 6, 0, 0, 2, 3⟩
  | 5 => some ⟨1, 0, 2, 0, 7, 8, 0, 0, 2, 2⟩
  | 6 => some ⟨1, 0, 0, 0, 7, 7, 1, 0, 4, 0⟩
  | 7 => some ⟨2, 6, 0, 0, 5, 5, 1, 0, 2, 0⟩
  | _ => none

/-- A channel of n bits expanded to 8 by replication. -/
def expand8 (n c : Nat) : Nat := if n = 0 then 255 else c * 2 ^ (8 - n) + c / 2 ^ (2 * n - 8)

/-- Interpolation between two 8-bit endpoints. -/
def lerp8 (a b w : Nat) : Nat := ((64 - w) * a + w * b + 32) / 64

/-- BC7 at texel k: four 8-bit channels, or none in the reserved mode. -/
def bc7 (b k : Nat) : Option (List Nat) :=
  let mode := ((List.range 8).find? (fun j => b.testBit j)).getD 8
  (bc7Mode mode).map (fun m =>
    let p0 := mode + 1
    let part := cut b p0 m.part
    let p1 := p0 + m.part
    let rot := cut b p1 m.rot
    let p2 := p1 + m.rot
    let sel := cut b p2 m.sel
    let p3 := p2 + m.sel
    let ne := 2 * m.subsets
    let pa := p3 + 3 * ne * m.col
    let pp := pa + ne * m.alpha
    let np := if m.epb = 1 then ne else if m.spb = 1 then m.subsets else 0
    let pi := pp + np
    let s := subsetOf m.subsets part k
    let pbit (e : Nat) : Nat := cut b (pp + (if m.epb = 1 then e else e / 2)) 1
    let chan (e c : Nat) : Nat :=
      let raw := if c < 3 then cut b (p3 + (c * ne + e) * m.col) m.col else cut b (pa + e * m.alpha) m.alpha
      let n := if c < 3 then m.col else m.alpha
      if n = 0 then 255
      else if np = 0 then expand8 n raw
      else expand8 (n + 1) (2 * raw + pbit e)
    let anchors := anchorsOf m.subsets part
    let i1 := indexOfTexel b pi m.ix anchors k
    let w1 := (bptcWeights m.ix).getD i1 0
    let w2 := if m.ix2 = 0 then w1
      else (bptcWeights m.ix2).getD (indexOfTexel b (pi + 16 * m.ix - anchors.length) m.ix2 [0] k) 0
    let wc := if sel = 1 then w2 else w1
    let wa := if sel = 1 then w1 else w2
    let v := (List.range 4).map (fun c => lerp8 (chan (2 * s) c) (chan (2 * s + 1) c) (if c < 3 then wc else wa))
    let g (c : Nat) : Nat := v.getD c 0
    match rot with
    | 1 => [g 3, g 1, g 2, g 0]
    | 2 => [g 0, g 3, g 2, g 1]
    | 3 => [g 0, g 1, g 3, g 2]
    | _ => v)

/-- BC7's texel values (R248). -/
def bc7Texel (srgb : Bool) (b k : Nat) : List Nat :=
  match bc7 b k with
  | some v => (v.take 3).map (fun c => colourTexel srgb c 255) ++ [fracTexel (v.getD 3 0) 255]
  | none => [0, 0, 0, 0]

/-- A mode of BC6H: the width of its code, whether it has two subsets, the endpoint width, the delta widths, and its
bit fields in order: component (4 · channel + endpoint, 12 the partition), lowest bit, and count. -/
structure Bc6Mode where
  bits : Nat
  two : Bool
  w : Nat
  d : List Nat
  parts : List (Nat × Nat × Nat)
deriving DecidableEq, Repr

/-- The modes of BC6H. -/
def bc6Mode (code : Nat) : Option Bc6Mode :=
  match code with
  | 0 => some { bits := 2, two := true, w := 10, d := [5, 5, 5], parts := [
      (6, 4, 1), (10, 4, 1), (11, 4, 1), (0, 0, 10), (4, 0, 10), (8, 0, 10), (1, 0, 5), (7, 4, 1), (6, 0, 4), (5, 0, 5),
      (11, 0, 1), (7, 0, 4), (9, 0, 5), (11, 1, 1), (10, 0, 4), (2, 0, 5), (11, 2, 1), (3, 0, 5), (11, 3, 1), (12, 0, 5)] }
  | 1 => some { bits := 2, two := true, w := 7, d := [6, 6, 6], parts := [
      (6, 5, 1), (7, 4, 1), (7, 5, 1), (0, 0, 7), (11, 0, 1), (11, 1, 1), (10, 4, 1), (4, 0, 7), (10, 5, 1), (11, 2, 1),
      (6, 4, 1), (8, 0, 7), (11, 3, 1), (11, 5, 1), (11, 4, 1), (1, 0, 6), (6, 0, 4), (5, 0, 6), (7, 0, 4), (9, 0, 6),
      (10, 0, 4), (2, 0, 6), (3, 0, 6), (12, 0, 5)] }
  | 2 => some { bits := 5, two := true, w := 11, d := [5, 4, 4], parts := [
      (0, 0, 10), (4, 0, 10), (8, 0, 10), (1, 0, 5), (0, 10, 1), (6, 0, 4), (5, 0, 4), (4, 10, 1), (11, 0, 1), (7, 0, 4),
      (9, 0, 4), (8, 10, 1), (11, 1, 1), (10, 0, 4), (2, 0, 5), (11, 2, 1), (3, 0, 5), (11, 3, 1), (12, 0, 5)] }
  | 6 => some { bits := 5, two := true, w := 11, d := [4, 5, 4], parts := [
      (0, 0, 10), (4, 0, 10), (8, 0, 10), (1, 0, 4), (0, 10, 1), (7, 4, 1), (6, 0, 4), (5, 0, 5), (4, 10, 1), (7, 0, 4),
      (9, 0, 4), (8, 10, 1), (11, 1, 1), (10, 0, 4), (2, 0, 4), (11, 0, 1), (11, 2, 1), (3, 0, 4), (6, 4, 1), (11, 3, 1),
      (12, 0, 5)] }
  | 10 => some { bits := 5, two := true, w := 11, d := [4, 4, 5], parts := [
      (0, 0, 10), (4, 0, 10), (8, 0, 10), (1, 0, 4), (0, 10, 1), (10, 4, 1), (6, 0, 4), (5, 0, 4), (4, 10, 1), (11, 0, 1),
      (7, 0, 4), (9, 0, 5), (8, 10, 1), (10, 0, 4), (2, 0, 4), (11, 1, 1), (11, 2, 1), (3, 0, 4), (11, 4, 1), (11, 3, 1),
      (12, 0, 5)] }
  | 14 => some { bits := 5, two := true, w := 9, d := [5, 5, 5], parts := [
      (0, 0, 9), (10, 4, 1), (4, 0, 9), (6, 4, 1), (8, 0, 9), (11, 4, 1), (1, 0, 5), (7, 4, 1), (6, 0, 4), (5, 0, 5),
      (11, 0, 1), (7, 0, 4), (9, 0, 5), (11, 1, 1), (10, 0, 4), (2, 0, 5), (11, 2, 1), (3, 0, 5), (11, 3, 1), (12, 0, 5)] }
  | 18 => some { bits := 5, two := true, w := 8, d := [6, 5, 5], parts := [
      (0, 0, 8), (7, 4, 1), (10, 4, 1), (4, 0, 8), (11, 2, 1), (6, 4, 1), (8, 0, 8), (11, 3, 1), (11, 4, 1), (1, 0, 6),
      (6, 0, 4), (5, 0, 5), (11, 0, 1), (7, 0, 4), (9, 0, 5), (11, 1, 1), (10, 0, 4), (2, 0, 6), (3, 0, 6), (12, 0, 5)] }
  | 22 => some { bits := 5, two := true, w := 8, d := [5, 6, 5], parts := [
      (0, 0, 8), (11, 0, 1), (10, 4, 1), (4, 0, 8), (6, 5, 1), (6, 4, 1), (8, 0, 8), (7, 5, 1), (11, 4, 1), (1, 0, 5),
      (7, 4, 1), (6, 0, 4), (5, 0, 6), (7, 0, 4), (9, 0, 5), (11, 1, 1), (10, 0, 4), (2, 0, 5), (11, 2, 1), (3, 0, 5),
      (11, 3, 1), (12, 0, 5)] }
  | 26 => some { bits := 5, two := true, w := 8, d := [5, 5, 6], parts := [
      (0, 0, 8), (11, 1, 1), (10, 4, 1), (4, 0, 8), (10, 5, 1), (6, 4, 1), (8, 0, 8), (11, 5, 1), (11, 4, 1), (1, 0, 5),
      (7, 4, 1), (6, 0, 4), (5, 0, 5), (11, 0, 1), (7, 0, 4), (9, 0, 6), (10, 0, 4), (2, 0, 5), (11, 2, 1), (3, 0, 5),
      (11, 3, 1), (12, 0, 5)] }
  | 30 => some { bits := 5, two := true, w := 6, d := [6, 6, 6], parts := [
      (0, 0, 6), (7, 4, 1), (11, 0, 1), (11, 1, 1), (10, 4, 1), (4, 0, 6), (6, 5, 1), (10, 5, 1), (11, 2, 1), (6, 4, 1),
      (8, 0, 6), (7, 5, 1), (11, 3, 1), (11, 5, 1), (11, 4, 1), (1, 0, 6), (6, 0, 4), (5, 0, 6), (7, 0, 4), (9, 0, 6),
      (10, 0, 4), (2, 0, 6), (3, 0, 6), (12, 0, 5)] }
  | 3 => some { bits := 5, two := false, w := 10, d := [10, 10, 10], parts := [
      (0, 0, 10), (4, 0, 10), (8, 0, 10), (1, 0, 10), (5, 0, 10), (9, 0, 10)] }
  | 7 => some { bits := 5, two := false, w := 11, d := [9, 9, 9], parts := [
      (0, 0, 10), (4, 0, 10), (8, 0, 10), (1, 0, 9), (0, 10, 1), (5, 0, 9), (4, 10, 1), (9, 0, 9), (8, 10, 1)] }
  | 11 => some { bits := 5, two := false, w := 12, d := [8, 8, 8], parts := [
      (0, 0, 10), (4, 0, 10), (8, 0, 10), (1, 0, 8), (0, 11, 1), (0, 10, 1), (5, 0, 8), (4, 11, 1), (4, 10, 1), (9, 0, 8),
      (8, 11, 1), (8, 10, 1)] }
  | 15 => some { bits := 5, two := false, w := 16, d := [4, 4, 4], parts := [
      (0, 0, 10), (4, 0, 10), (8, 0, 10), (1, 0, 4), (0, 15, 1), (0, 14, 1), (0, 13, 1), (0, 12, 1), (0, 11, 1), (0, 10, 1),
      (5, 0, 4), (4, 15, 1), (4, 14, 1), (4, 13, 1), (4, 12, 1), (4, 11, 1), (4, 10, 1), (9, 0, 4), (8, 15, 1), (8, 14, 1),
      (8, 13, 1), (8, 12, 1), (8, 11, 1), (8, 10, 1)] }
  | _ => none

/-- The components of a BC6H block, by number. -/
def bc6Parts (b : Nat) (m : Bc6Mode) : List Nat :=
  (m.parts.foldl (fun (a : Nat × List Nat) p =>
    (a.1 + p.2.2, a.2.mapIdx (fun j x => if j = p.1 then x + cut b a.1 p.2.2 * 2 ^ p.2.1 else x)))
    (m.bits, List.replicate 13 0)).2

/-- An unquantised endpoint of BC6H. -/
def bc6Unq (signed : Bool) (w : Nat) (x : Int) : Int :=
  if signed then
    if 16 ≤ w then x
    else
      let a := x.natAbs
      let u : Nat := if a = 0 then 0 else if 2 ^ (w - 1) - 1 ≤ a then 0x7FFF else (a * 2 ^ 15 + 0x4000) / 2 ^ (w - 1)
      if x < 0 then -(u : Int) else u
  else if 15 ≤ w then x
  else if x = 0 then 0
  else if x = 2 ^ w - 1 then 0xFFFF
  else ((x.toNat * 2 ^ 15 + 0x4000) / 2 ^ (w - 1) : Nat)

/-- The half-float pattern of an interpolated BC6H value. -/
def bc6Finish (signed : Bool) (v : Int) : Nat :=
  if signed then
    if v < 0 then 0x8000 + v.natAbs * 31 / 32 else v.natAbs * 31 / 32
  else v.natAbs * 31 / 64

/-- BC6H at texel k: the R, G and B patterns, or none in a reserved mode. -/
def bc6 (signed : Bool) (b k : Nat) : Option (List Nat) :=
  let code := if b % 4 < 2 then b % 4 else b % 32
  (bc6Mode code).map (fun m =>
    let ps := bc6Parts b m
    let part := ps.getD 12 0
    let moved := !(code == 30 || code == 3)
    let s := if m.two then subsetOf 2 part k else 0
    let endp (c e : Nat) : Int :=
      let base := ps.getD (4 * c) 0
      let raw := ps.getD (4 * c + e) 0
      let v := if e = 0 then base
        else if moved then wrapTo m.w ((base : Int) + asSigned (m.d.getD c 1) raw)
        else raw
      bc6Unq signed m.w (if signed then asSigned m.w v else v)
    let bits := if m.two then 3 else 4
    let start := if m.two then 82 else 65
    let anchors := if m.two then anchorsOf 2 part else [0]
    let w : Int := (bptcWeights bits).getD (indexOfTexel b start bits anchors k) 0
    (List.range 3).map (fun c =>
      bc6Finish signed (((64 - w) * endp c (2 * s) + w * endp c (2 * s + 1) + 32).fdiv 64)))

/-- BC6H's texel values (R248). -/
def bc6Texel (signed : Bool) (b k : Nat) : List Nat :=
  match bc6 signed b k with
  | some v => v.map halfTexel ++ [one32]
  | none => [0, 0, 0, one32]

end Sys2Proof.Machine
end

