-- ==== Sys2Proof/Machine/Astc.lean ====
section
/-! DEFINITION. ASTC blocks under the LDR profile (R248), by the ASTC chapter of the Khronos Data Format Specification
(log 17). A decoded channel is an FP32 encoding. -/

namespace Sys2Proof.Machine

/-! Integer sequences. -/

/-- A quantisation: bits of each value, and 3 or 5 where a trit or a quint goes with it, else 1. -/
structure Quant where
  bits : Nat
  base : Nat
deriving DecidableEq, Repr

/-- The quantisations by rising number of levels: 2, 3, 4, 5, 6, 8, 10, 12, … 256. -/
def quants : List Quant :=
  [⟨1, 1⟩, ⟨0, 3⟩, ⟨2, 1⟩, ⟨0, 5⟩, ⟨1, 3⟩, ⟨3, 1⟩, ⟨1, 5⟩, ⟨2, 3⟩, ⟨4, 1⟩, ⟨2, 5⟩, ⟨3, 3⟩, ⟨5, 1⟩]
    ++ [⟨3, 5⟩, ⟨4, 3⟩, ⟨6, 1⟩, ⟨4, 5⟩, ⟨5, 3⟩, ⟨7, 1⟩, ⟨5, 5⟩, ⟨6, 3⟩, ⟨8, 1⟩]

/-- The bits of a sequence of n values. -/
def Quant.count (q : Quant) (n : Nat) : Nat :=
  n * q.bits + (if q.base = 3 then (8 * n + 4) / 5 else if q.base = 5 then (7 * n + 2) / 3 else 0)

/-- The five trits of their eight bits. -/
def tritsOf (t : Nat) : List Nat :=
  let all := decide (cut t 2 3 = 7)
  let c := if all then cut t 5 3 * 4 + cut t 0 2 else cut t 0 5
  let t4 := if all then 2 else if cut t 5 2 = 3 then 2 else cut t 7 1
  let t3 := if all then 2 else if cut t 5 2 = 3 then cut t 7 1 else cut t 5 2
  if cut c 0 2 = 3 then [cut c 3 1 * 2 + cut c 2 1 * (1 - cut c 3 1), cut c 4 1, 2, t3, t4]
  else if cut c 2 2 = 3 then [cut c 0 2, 2, 2, t3, t4]
  else [cut c 1 1 * 2 + cut c 0 1 * (1 - cut c 1 1), cut c 2 2, cut c 4 1, t3, t4]

/-- The three quints of their seven bits. -/
def quintsOf (q : Nat) : List Nat :=
  if cut q 1 2 = 3 ∧ cut q 5 2 = 0 then
    let n := 1 - cut q 0 1
    [4, 4, cut q 0 1 * 4 + cut q 4 1 * n * 2 + cut q 3 1 * n]
  else
    let hi := decide (cut q 1 2 = 3)
    let q2 := if hi then 4 else cut q 5 2
    let c := if hi then cut q 3 2 * 8 + (3 - cut q 5 2) * 2 + cut q 0 1 else cut q 0 5
    if cut c 0 3 = 5 then [cut c 3 2, 4, q2] else [cut c 0 3, cut c 3 2, q2]

/-- The value at place j of a sequence: its bits and its trit or quint. -/
def Quant.value (q : Quant) (data j : Nat) : Nat × Nat :=
  let b := q.bits
  if q.base = 3 then
    let d := data >>> (j / 5 * (5 * b + 8))
    let t := cut d b 2 + cut d (2 * b + 2) 2 * 4 + cut d (3 * b + 4) 1 * 16 + cut d (4 * b + 5) 2 * 32
      + cut d (5 * b + 7) 1 * 128
    let at' := [0, b + 2, 2 * b + 4, 3 * b + 5, 4 * b + 7].getD (j % 5) 0
    (cut d at' b, (tritsOf t).getD (j % 5) 0)
  else if q.base = 5 then
    let d := data >>> (j / 3 * (3 * b + 7))
    let t := cut d b 3 + cut d (2 * b + 3) 2 * 8 + cut d (3 * b + 5) 2 * 32
    let at' := [0, b + 3, 2 * b + 5].getD (j % 3) 0
    (cut d at' b, (quintsOf t).getD (j % 3) 0)
  else (cut data (b * j) b, 0)

/-- A sequence of n values from a bit of a block; bits beyond its end read zero. -/
def Quant.seq (q : Quant) (b start n : Nat) : List (Nat × Nat) :=
  let data := cut b start (q.count n)
  (List.range n).map (q.value data)

/-- Bit k of a number. -/
def bitAt (x k : Nat) : Nat := cut x k 1

/-- Bits replicated to a width. -/
def replicateBits (n x w : Nat) : Nat :=
  (List.range w).foldl (fun a k => a + bitAt x ((n * 8 + k - w % n) % n) * 2 ^ k) 0

/-- A colour value unquantised to 8 bits. -/
def Quant.colour (q : Quant) (v : Nat × Nat) : Nat :=
  let b := bitAt v.1 1
  let c := bitAt v.1 2
  let d := bitAt v.1 3
  let e := bitAt v.1 4
  let f := bitAt v.1 5
  if q.base = 1 then replicateBits q.bits v.1 8
  else
    let bc : Nat × Nat :=
      if q.base = 3 then
        match q.bits with
        | 1 => (0, 204)
        | 2 => (b * 0x116, 93)
        | 3 => (c * 0x10A + b * 0x085, 44)
        | 4 => (d * 0x104 + c * 0x082 + b * 0x041, 22)
        | 5 => (e * 0x102 + d * 0x081 + c * 0x040 + b * 0x020, 11)
        | _ => (f * 0x101 + e * 0x080 + d * 0x040 + c * 0x020 + b * 0x010, 5)
      else
        match q.bits with
        | 1 => (0, 113)
        | 2 => (b * 0x10C, 54)
        | 3 => (c * 0x105 + b * 0x082, 26)
        | 4 => (d * 0x102 + c * 0x081 + b * 0x040, 13)
        | _ => (e * 0x101 + d * 0x080 + c * 0x040 + b * 0x020, 6)
    let t := (v.2 * bc.2 + bc.1) ^^^ (bitAt v.1 0 * 0x1FF)
    bitAt v.1 0 * 128 + t / 4 % 128

/-- A weight unquantised to 0 to 64. -/
def Quant.weight (q : Quant) (v : Nat × Nat) : Nat :=
  let b := bitAt v.1 1
  let c := bitAt v.1 2
  let w :=
    if q.base = 1 then replicateBits q.bits v.1 6
    else if q.bits = 0 then (if q.base = 3 then [0, 32, 63].getD v.2 0 else [0, 16, 32, 47, 63].getD v.2 0)
    else
      let bc : Nat × Nat :=
        if q.base = 3 then
          match q.bits with
          | 1 => (0, 50)
          | 2 => (b * 0x45, 23)
          | _ => (c * 0x42 + b * 0x21, 11)
        else
          match q.bits with
          | 1 => (0, 28)
          | _ => (b * 0x42, 13)
      let t := (v.2 * bc.2 + bc.1) ^^^ (bitAt v.1 0 * 0x7F)
      bitAt v.1 0 * 32 + t / 4 % 32
  if 32 < w then w + 1 else w

/-! The block mode. -/

/-- The weight grid: its size, whether two planes, and its quantisation's place. -/
structure AstcMode where
  w : Nat
  h : Nat
  dual : Bool
  q : Nat
deriving DecidableEq, Repr

/-- The block mode of its eleven bits. -/
def astcMode (m : Nat) : Option AstcMode :=
  let a := cut m 5 2
  let b := cut m 7 2
  let hi := cut m 9 1
  let dual := cut m 10 1 == 1
  let mk (r w h hi : Nat) (dual : Bool) : Option AstcMode :=
    if r < 2 then none else some { w := w, h := h, dual := dual, q := r - 2 + 6 * hi }
  if m % 4 ≠ 0 then
    let r := cut m 0 2 * 2 + cut m 4 1
    match cut m 2 2 with
    | 0 => mk r (b + 4) (a + 2) hi dual
    | 1 => mk r (b + 8) (a + 2) hi dual
    | 2 => mk r (a + 2) (b + 8) hi dual
    | _ => if 2 ≤ b then mk r (b % 2 + 2) (a + 2) hi dual else mk r (a + 2) (b + 6) hi dual
  else
    let r := cut m 2 2 * 2 + cut m 4 1
    if cut m 2 2 = 0 then none
    else
      match b with
      | 0 => mk r 12 (a + 2) hi dual
      | 1 => mk r (a + 2) 12 hi dual
      | 2 => mk r (a + 6) (cut m 9 2 + 6) 0 false
      | _ => if a = 0 then mk r 6 10 hi dual else if a = 1 then mk r 10 6 hi dual else none

/-- The number of weights. -/
def AstcMode.weights (m : AstcMode) : Nat := m.w * m.h * (if m.dual then 2 else 1)

/-- The weight quantisation. -/
def AstcMode.quant (m : AstcMode) : Quant := quants.getD m.q ⟨1, 1⟩

/-- The bits of the weights. -/
def AstcMode.bits (m : AstcMode) : Nat := m.quant.count m.weights

/-! Partitions. -/

/-- The hash of a partition seed. -/
def hash52 (p : BitVec 32) : BitVec 32 :=
  let p := p ^^^ (p >>> 15)
  let p := p - (p <<< 17)
  let p := p + (p <<< 7)
  let p := p + (p <<< 4)
  let p := p ^^^ (p >>> 5)
  let p := p + (p <<< 16)
  let p := p ^^^ (p >>> 7)
  let p := p ^^^ (p >>> 3)
  let p := p ^^^ (p <<< 6)
  p ^^^ (p >>> 17)

/-- The partition of a texel. -/
def astcPartition (seed0 parts : Nat) (small : Bool) (x0 y0 : Nat) : Nat :=
  if parts = 1 then 0
  else
    let x := if small then 2 * x0 else x0
    let y := if small then 2 * y0 else y0
    let seed := seed0 + (parts - 1) * 1024
    let r := (hash52 (BitVec.ofNat 32 seed)).toNat
    let three := if parts = 3 then 6 else 5
    let two := if seed / 2 % 2 = 1 then 4 else 5
    let sh1 := if seed % 2 = 1 then two else three
    let sh2 := if seed % 2 = 1 then three else two
    let sq (lo sh : Nat) : Nat := (cut r lo 4) ^ 2 / 2 ^ sh
    let a := (sq 0 sh1 * x + sq 4 sh2 * y + r / 2 ^ 14) % 64
    let b := (sq 8 sh1 * x + sq 12 sh2 * y + r / 2 ^ 10) % 64
    let c := if parts < 3 then 0 else (sq 16 sh1 * x + sq 20 sh2 * y + r / 2 ^ 6) % 64
    let d := if parts < 4 then 0 else (sq 24 sh1 * x + sq 28 sh2 * y + r / 2 ^ 2) % 64
    if b ≤ a ∧ c ≤ a ∧ d ≤ a then 0
    else if c ≤ b ∧ d ≤ b then 1
    else if d ≤ c then 2
    else 3

/-! Endpoints. -/

/-- bit_transfer_signed: an offset and a base, from the two. -/
def transferSigned (a b : Nat) : Int × Nat :=
  let o := a / 2 % 64
  (if o ≥ 32 then (o : Int) - 64 else o, b / 2 + a / 128 * 128)

/-- A number clamped to 8 bits. -/
def clamp8 (x : Int) : Nat := (max 0 (min 255 x)).toNat

/-- blue_contract. -/
def blueContract (l : List Int) : List Int :=
  let b := l.getD 2 0
  [(l.getD 0 0 + b) / 2, (l.getD 1 0 + b) / 2, b, l.getD 3 0]

/-- The endpoints of a colour endpoint mode, each four 8-bit channels; none for an HDR mode. -/
def astcEndpoints (mode : Nat) (v : List Nat) : Option (List Nat × List Nat) :=
  let g (k : Nat) : Nat := v.getD k 0
  let direct (alpha0 alpha1 : Nat) : List Nat × List Nat :=
    let even : List Int := [g 0, g 2, g 4, alpha0]
    let odd : List Int := [g 1, g 3, g 5, alpha1]
    if g 0 + g 2 + g 4 ≤ g 1 + g 3 + g 5 then (even.map clamp8, odd.map clamp8)
    else ((blueContract odd).map clamp8, (blueContract even).map clamp8)
  let offset (base off : Int) : List Nat × List Nat :=
    let r := transferSigned (g 1) (g 0)
    let gr := transferSigned (g 3) (g 2)
    let b := transferSigned (g 5) (g 4)
    let lo : List Int := [r.2, gr.2, b.2, base]
    let hi : List Int := [r.2 + r.1, gr.2 + gr.1, b.2 + b.1, base + off]
    if 0 ≤ r.1 + gr.1 + b.1 then (lo.map clamp8, hi.map clamp8)
    else ((blueContract hi).map clamp8, (blueContract lo).map clamp8)
  let scaled (a0 a1 : Nat) : List Nat × List Nat :=
    ([g 0 * g 3 / 256, g 1 * g 3 / 256, g 2 * g 3 / 256, a0], [g 0, g 1, g 2, a1])
  match mode with
  | 0 => some ([g 0, g 0, g 0, 255], [g 1, g 1, g 1, 255])
  | 1 =>
    let l0 := g 0 / 4 + g 1 / 64 * 64
    let l1 := min 255 (l0 + g 1 % 64)
    some ([l0, l0, l0, 255], [l1, l1, l1, 255])
  | 4 => some ([g 0, g 0, g 0, g 2], [g 1, g 1, g 1, g 3])
  | 5 =>
    let l := transferSigned (g 1) (g 0)
    let a := transferSigned (g 3) (g 2)
    let l1 := clamp8 (l.2 + l.1)
    some ([clamp8 l.2, clamp8 l.2, clamp8 l.2, clamp8 a.2], [l1, l1, l1, clamp8 (a.2 + a.1)])
  | 6 => some (scaled 255 255)
  | 8 => some (direct 255 255)
  | 9 => some (offset 255 0)
  | 10 => some (scaled (g 4) (g 5))
  | 12 => some (direct (g 6) (g 7))
  | 13 =>
    let a := transferSigned (g 7) (g 6)
    some (offset a.2 a.1)
  | _ => none

/-! The block. -/

/-- The error colour (R248). -/
def astcError : List Nat := [one32, 0, one32, one32]

/-- A 16-bit channel as the LDR profile delivers it: the curve on its top 8 bits, or a half float. -/
def astcChannel (srgb : Bool) (c : Nat) : Nat :=
  if srgb then curveTexel (c / 256) 255
  else if c = 65535 then one32
  else halfTexel (FFmt.fp16.roundE .rtz { neg := false, m := { n := c, d := 65536, e := 0 } }).1

/-- The four channels of 16 bits. -/
def astcColour (srgb : Bool) (l : List Nat) : List Nat :=
  (l.take 3).map (astcChannel srgb) ++ [astcChannel false (l.getD 3 0)]

/-- A void-extent block. -/
def astcVoid (srgb : Bool) (b : Nat) : List Nat :=
  let s0 := cut b 12 13
  let s1 := cut b 25 13
  let t0 := cut b 38 13
  let t1 := cut b 51 13
  let free := decide (cut b 12 52 = 2 ^ 52 - 1)
  if cut b 9 1 = 1 ∨ cut b 10 2 ≠ 3 ∨ (!free ∧ (s1 ≤ s0 ∨ t1 ≤ t0)) then astcError
  else astcColour srgb ((List.range 4).map (fun c => cut b (64 + 16 * c) 16))

/-- The bits of a block in reverse order. -/
def reverse128 (b : Nat) : Nat := (List.range 128).foldl (fun a k => 2 * a + bitAt b k) 0

/-- A plane's weight at a texel, from the grid (weight infill). -/
def AstcMode.infill (m : AstcMode) (ws : List Nat) (plane bw bh x y : Nat) : Nat :=
  let step (n : Nat) : Nat := (1024 + n / 2) / (n - 1)
  let gs := (step bw * x * (m.w - 1) + 32) / 64
  let gt := (step bh * y * (m.h - 1) + 32) / 64
  let js := gs / 16
  let fs := gs % 16
  let jt := gt / 16
  let ft := gt % 16
  let w11 := (fs * ft + 8) / 16
  let k := if m.dual then 2 else 1
  let at' (dx dy : Nat) : Nat := ws.getD (k * (js + dx + (jt + dy) * m.w) + plane) 0
  (at' 0 0 * (16 + w11 - fs - ft) + at' 1 0 * (fs - w11) + at' 0 1 * (ft - w11) + at' 1 1 * w11 + 8) / 16

/-- The colour endpoint modes of the partitions, from the six bits and the high part. -/
def endpointModes (parts enc : Nat) : List Nat :=
  if enc % 4 = 0 then List.replicate parts (cut enc 2 4)
  else (List.range parts).map (fun i => (cut enc (2 + i) 1 + enc % 4 - 1) * 4 + cut enc (2 + parts + 2 * i) 2)

/-- A block whose mode is given, at a texel. -/
def astcTexelOf (srgb : Bool) (b bw bh x y : Nat) (m : AstcMode) : List Nat :=
  let parts := cut b 11 2 + 1
  if 64 < m.weights ∨ m.bits < 24 ∨ 96 < m.bits ∨ bw < m.w ∨ bh < m.h ∨ (parts = 4 ∧ m.dual) then astcError
  else
    let top := 128 - m.bits
    let extra := if parts = 1 ∨ cut b 23 2 = 0 then 0 else 3 * parts - 4
    let modes := if parts = 1 then [cut b 13 4]
      else endpointModes parts (cut b 23 6 + cut b (top - extra) extra * 64)
    let ccs := cut b (top - extra - 2) 2
    let low := top - extra - (if m.dual then 2 else 0)
    let start := if parts = 1 then 17 else 29
    let count := (modes.map (fun c => (c / 4 + 1) * 2)).sum
    let avail := low - start
    match (quants.drop 4).reverse.find? (fun q => decide (q.count count ≤ avail)) with
    | none => astcError
    | some q =>
      if 18 < count ∨ low < start then astcError
      else
        let vals := (q.seq b start count).map q.colour
        let p := astcPartition (cut b 13 10) parts (decide (bw * bh < 31)) x y
        let skip := ((modes.take p).map (fun c => (c / 4 + 1) * 2)).sum
        match astcEndpoints (modes.getD p 0) (vals.drop skip) with
        | none => astcError
        | some (e0, e1) =>
          let ws := (m.quant.seq (reverse128 b) 0 m.weights).map m.quant.weight
          let w0 := m.infill ws 0 bw bh x y
          let w1 := if m.dual then m.infill ws 1 bw bh x y else w0
          astcColour srgb ((List.range 4).map (fun c =>
            let wide (k : Nat) : Nat := if srgb && decide (c < 3) then k * 256 + 128 else k * 257
            let w := if m.dual && c == ccs then w1 else w0
            (wide (e0.getD c 0) * (64 - w) + wide (e1.getD c 0) * w + 32) / 64))

/-- ASTC at texel (x, y) of a block (R248). -/
def astcTexel (srgb : Bool) (bw bh b x y : Nat) : List Nat :=
  if cut b 0 9 = 0x1FC then astcVoid srgb b
  else
    match astcMode (cut b 0 11) with
    | some m => astcTexelOf srgb b bw bh x y m
    | none => astcError

end Sys2Proof.Machine
end

