-- ==== Sys2Proof/Machine/Texture.lean ====
section
/-! DEFINITION. tfetch (R247 to R250): the descriptor, the layout of levels, filtering with exact sums, and texel
reads. -/

namespace Sys2Proof.Machine

/-! The descriptor. -/

/-- The footprints of the ASTC format codes from 0x20 on (R248). -/
def astcFootprints : List (Nat × Nat) :=
  [(4, 4), (5, 4), (5, 5), (6, 5), (6, 6), (8, 5), (8, 6), (8, 8), (10, 5), (10, 6), (10, 8), (10, 10), (12, 10), (12, 12)]

/-- A format's block: width, height, bytes; none where the code is not listed (R248). -/
def texBlock (code : Nat) : Option (Nat × Nat × Nat) :=
  match code with
  | 0x01 => some (1, 1, 4)
  | 0x02 => some (1, 1, 8)
  | 0x30 => some (4, 4, 16)
  | 0x31 => some (1, 1, 4)
  | c =>
    if 0x10 ≤ c ∧ c ≤ 0x16 then some (4, 4, if c = 0x10 ∨ c = 0x13 then 8 else 16)
    else if 0x20 ≤ c ∧ c ≤ 0x2D then
      let f := astcFootprints.getD (c - 0x20) (4, 4)
      some (f.1, f.2, 16)
    else none

/-- R247: the first byte of a texture descriptor that is in error. A field of several bytes that is out of its range is named
by its first byte: which one of them is "the byte in error" is stated nowhere (log 51). -/
def texError (_ : State) (bs : List Byte) : Option Nat :=
  let filter := at_ bs 16 1
  if at_ bs 0 8 % 16 ≠ 0 then some 0
  else if 16383 < at_ bs 8 2 then some 8
  else if 16383 < at_ bs 10 2 then some 10
  else if 2047 < at_ bs 12 2 then some 12
  else if at_ bs 14 1 = 0 ∨ 15 < at_ bs 14 1 then some 14
  else if (texBlock (at_ bs 15 1)).isNone then some 15
  else if 128 ≤ filter ∨ filter / 4 % 32 = 0 ∨ 16 < filter / 4 % 32 then some 16
  else if 16 ≤ at_ bs 17 1 then some 17
  else if 4 ≤ at_ bs 18 1 then some 18
  else
    match nonzeroIn bs 19 5 with
    | some o => some o
    | none => nonzeroIn bs 48 16

/-- A texture: its descriptor's fields. -/
structure Tex where
  base : Nat
  w : Nat
  h : Nat
  layers : Nat
  levels : Nat
  format : Nat
  filter : Nat
  aniso : Nat
  wrapU : Nat
  wrapV : Nat
  srgb : Bool
  signed : Bool
  border : List Nat
  plane : Nat
deriving DecidableEq, Repr

/-- The fields of a texture descriptor (R247). -/
def texOf (bs : List Byte) : Tex where
  base := at_ bs 0 8
  w := at_ bs 8 2 + 1
  h := at_ bs 10 2 + 1
  layers := at_ bs 12 2 + 1
  levels := at_ bs 14 1
  format := at_ bs 15 1
  filter := at_ bs 16 1 % 4
  aniso := at_ bs 16 1 / 4 % 32
  wrapU := at_ bs 17 1 % 4
  wrapV := at_ bs 17 1 / 4 % 4
  srgb := at_ bs 18 1 % 2 == 1
  signed := at_ bs 18 1 / 2 % 2 == 1
  border := (List.range 4).map (fun c => at_ bs (24 + 4 * c) 4)
  plane := at_ bs 40 8

/-- Whether a texture has two planes (R248). -/
def Tex.latent (t : Tex) : Bool := t.format == 0x30 || t.format == 0x31

/-- The block of the texture's format. -/
def Tex.block (t : Tex) : Nat × Nat × Nat := (texBlock t.format).getD (1, 1, 4)

/-- The width of level l. -/
def Tex.width (t : Tex) (l : Nat) : Nat := max 1 (t.w / 2 ^ l)

/-- The height of level l. -/
def Tex.height (t : Tex) (l : Nat) : Nat := max 1 (t.h / 2 ^ l)

/-- The bytes of a row of blocks of level l (R248). -/
def Tex.rowBytes (t : Tex) (l : Nat) : Nat := ((t.width l + t.block.1 - 1) / t.block.1 * t.block.2.2 + 15) / 16 * 16

/-- The bytes of a layer of level l. -/
def Tex.layerBytes (t : Tex) (l : Nat) : Nat := t.rowBytes l * ((t.height l + t.block.2.1 - 1) / t.block.2.1)

/-- The address of level l: at the end of the level before, rounded up to a multiple of 128 (R248). -/
def Tex.levelAt (t : Tex) (l : Nat) : Nat :=
  (List.range l).foldl (fun a k => (a + t.layers * t.layerBytes k + 127) / 128 * 128) t.base

/-- A texel of a block of a format, from the block's number, at its place in the block. -/
def texelOf (format : Nat) (srgb signed : Bool) (b x y : Nat) : List Nat :=
  match format with
  | 0x01 => (List.range 3).map (fun c => colourTexel srgb (cut b (8 * c) 8) 255) ++ [fracTexel (cut b 24 8) 255]
  | 0x02 => (List.range 4).map (fun c => halfTexel (cut b (16 * c) 16))
  | 0x15 => bc6Texel signed b (4 * y + x)
  | 0x16 => bc7Texel srgb b (4 * y + x)
  | 0x30 => bc7Texel false b (4 * y + x)
  | 0x31 => (List.range 4).map (fun c => fracTexel (cut b (8 * c) 8) 255)
  | c =>
    if c < 0x20 then bc15 (c - 0x0F) srgb signed b (4 * y + x)
    else
      let f := astcFootprints.getD (c - 0x20) (4, 4)
      astcTexel srgb f.1 f.2 b x y

/-- R249: a coordinate under a wrap mode; none takes the border colour. -/
def wrapCoord (mode n : Nat) (x : Int) : Option Nat :=
  match mode with
  | 0 => some (x.emod n).toNat
  | 1 =>
    let k := (x.emod (2 * n)).toNat
    some (if n ≤ k then 2 * n - 1 - k else k)
  | 2 => some (max 0 (min x ((n : Int) - 1))).toNat
  | _ => if 0 ≤ x ∧ x < n then some x.toNat else none

/-- A read of n bytes at any alignment. -/
def State.anyRead (s : State) (va : Word) (n : Nat) : Acc (List Byte) :=
  if va.toNat % n = 0 then s.unitRead va n
  else
    (Acc.list (fun j s => s.unitRead (va + BitVec.ofNat 64 j) 1) (List.range n) s).bind (fun l s => .ok l.flatten s)

/-- R249: texel(l, x, y) of a layer: its channels, four or, of a latent texture, eight. The border has four values; the
second plane of a latent texture takes them again, which is stated nowhere (log 51). -/
def Tex.texel (t : Tex) (layer l : Nat) (x y : Int) (s : State) : Acc (List Nat) :=
  match wrapCoord t.wrapU (t.width l) x, wrapCoord t.wrapV (t.height l) y with
  | some x, some y =>
    let b := t.block
    let off := t.levelAt l - t.base + layer * t.layerBytes l + y / b.2.1 * t.rowBytes l + x / b.1 * b.2.2
    let one (base : Nat) (s : State) : Acc (List Nat) :=
      (s.anyRead (BitVec.ofNat 64 (base + off)) b.2.2).bind (fun bs s =>
        .ok (texelOf t.format t.srgb t.signed (natLE bs) (x % b.1) (y % b.2.1)) s)
    (one t.base s).bind (fun c0 s =>
      if t.latent then (one (t.base + t.plane) s).bind (fun c1 s => .ok (c0 ++ c1) s) else .ok c0 s)
  | _, _ => .ok (if t.latent then t.border ++ t.border else t.border) s

/-! Filtering. -/

/-- An exact coordinate: a dyadic number over a count. -/
structure Coord where
  num : Dy
  den : Nat
deriving DecidableEq, Repr

/-- floor(k · x). -/
def Coord.floorMul (c : Coord) (k : Nat) : Int :=
  let r := scale2 1 c.den c.num.e
  (c.num.i * k * r.1).fdiv r.2

/-- A texel and its weight, a whole number. -/
abbrev Tap := Nat × Nat × Int × Int

/-- R249: the texels of probe(l, u, v), each with its weight times 65,536, times `w`. -/
def Tex.probe (t : Tex) (w l : Nat) (u v : Coord) : List Tap :=
  if t.filter = 0 then [(w * 65536, l, u.floorMul (t.width l), v.floorMul (t.height l))]
  else
    let zs := u.floorMul (256 * t.width l) - 128
    let zt := v.floorMul (256 * t.height l) - 128
    let i := zs.fdiv 256
    let j := zt.fdiv 256
    let fs := (zs.fmod 256).toNat
    let ft := (zt.fmod 256).toNat
    [(w * ((256 - fs) * (256 - ft)), l, i, j), (w * (fs * (256 - ft)), l, i + 1, j),
     (w * ((256 - fs) * ft), l, i, j + 1), (w * (fs * ft), l, i + 1, j + 1)]

/-- R249: trilinear at a point: λ in 1/256. -/
def Tex.trilinear (t : Tex) (lam : Nat) (u v : Coord) : List Tap :=
  let g := lam % 256
  t.probe (256 - g) (lam / 256) u v ++ t.probe g (min (lam / 256 + 1) (t.levels - 1)) u v

/-- R249: N of the anisotropic filter. -/
def Tex.probes (t : Tex) (ratio : Nat) : Nat :=
  match val32 ratio with
  | .nan _ => 1
  | .inf neg => if neg then 1 else t.aniso
  | .fin n m e => (max 1 (min (t.aniso : Int) (floorDyadic n m e))).toNat

/-- R249: the position of probe i of n along an axis. -/
def axisPoint (u a : Nat) (n i : Nat) : Coord :=
  { num := ((val32 u).dy.mul ⟨2 * n, 0⟩).add ((val32 a).dy.mul ⟨2 * (i : Int) + 1 - n, 0⟩), den := 2 * n }

/-- R249: the taps of a record at λ, with the whole number that their weights add up to. -/
def Tex.taps (t : Tex) (r : List Nat) (lam : Dy) : List Tap × Nat :=
  let u : Coord := { num := (val32 (wordOf r 0)).dy, den := 1 }
  let v : Coord := { num := (val32 (wordOf r 1)).dy, den := 1 }
  let lam256 := (fixOf false lam.i.natAbs lam.e 8).toNat
  match t.filter with
  | 2 => (t.trilinear lam256 u v, 2 ^ 24)
  | 3 =>
    let n := t.probes (wordOf r 4)
    ((List.range n).flatMap (fun i =>
      t.trilinear lam256 (axisPoint (wordOf r 0) (wordOf r 5) n i) (axisPoint (wordOf r 1) (wordOf r 6) n i)), n * 2 ^ 24)
  | _ => (t.probe 1 ((lam256 + 128) / 256) u v, 2 ^ 16)

/-- Whether a record's coordinates are not all finite: those that the filter uses (R249). -/
def Tex.lost (t : Tex) (r : List Nat) : Bool :=
  !finite32 (wordOf r 0) || !finite32 (wordOf r 1)
    || (t.filter == 3 && (!finite32 (wordOf r 5) || !finite32 (wordOf r 6)))

/-- R249: one channel: the exact weighted sum over the whole number, rounded once. A zero sum of products that are all
negative zeros is −0 (R62). -/
def channelSum (l : List (Nat × Nat)) (total : Nat) : Nat :=
  let a := l.foldl (fun a p => a.add (intFVal (p.1 : Int)) (val32 p.2)) (DotSum.exact 0 0)
  match a with
  | .exact i e =>
    if i = 0 then (if l.all (fun p => (val32 p.2).neg) then 0x80000000 else 0)
    else (FFmt.fp32.round .rne (decide (i < 0)) { n := i.natAbs, d := total, e := e }).1
  | .inf n => if n then negInf32 else posInf32
  | .nan => FFmt.fp32.nanCode

/-- R249: the layer of a record. -/
def Tex.layerOf (t : Tex) (b : Nat) : Nat :=
  match val32 b with
  | .nan _ => 0
  | .inf neg => if neg then 0 else t.layers - 1
  | v => (max 0 (min (roundInt .rne v.exact).1 ((t.layers : Int) - 1))).toNat

/-- R249: λ of a record; NaN gives 0. -/
def Tex.lambda (t : Tex) (b : Nat) : Dy :=
  let top : Dy := ⟨(t.levels : Int) - 1, 0⟩
  match val32 b with
  | .nan _ => ⟨0, 0⟩
  | .inf neg => if neg then ⟨0, 0⟩ else top
  | v => if v.neg then ⟨0, 0⟩ else if 0 < cmpVal v (.fin false (t.levels - 1) 0) then top else v.dy

/-- R249: the result record of one record. -/
def Tex.fetch (t : Tex) (r : List Nat) (s : State) : Acc (List Nat) :=
  let n := if t.latent then 8 else 4
  if t.lost r then .ok (List.replicate n FFmt.fp32.nanCode ++ List.replicate (8 - n) 0) s
  else
    let layer := t.layerOf (wordOf r 2)
    let taps := t.taps r (t.lambda (wordOf r 3))
    (Acc.list (fun (p : Tap) s => t.texel layer p.2.1 p.2.2.1 p.2.2.2 s) taps.1 s).bind (fun ts s =>
      .ok ((List.range n).map (fun c =>
        channelSum ((taps.1.zip ts).map (fun e => (e.1.1, e.2.getD c 0))) taps.2) ++ List.replicate (8 - n) 0) s)

/-- One record of TFETCH (R249, R250). -/
def goTfetch (d a : Reg) : Flight → State → Move :=
  reread 64 64 texError (unitMove (fun f => recMove 8 8 (fun k s =>
    if f.pad k then .ok () (s.onMe (fun t => t.putWords d k (zeroRecord 8)))
    else ((texOf f.desc).fetch (s.me.words a k 8) s).bind (fun r s => .ok () (s.onMe (fun t => t.putWords d k r)))) f))

/-- TFETCH (R247 to R250). -/
def execTfetch (l : BitVec 4) (d a b : Reg) (s : State) : Out :=
  s.descIssue (.tfetch l d a b) l (s.gfxOk fmtFP32 256 (vlTimes 8)) 62 0 (s.x b) 64 64 texError (goTfetch d a)

end Sys2Proof.Machine
end

