-- ==== Sys2Proof/Machine/Paging.lean ====
section
/-! DEFINITION. Page tables as the firmware changes them (R388 to R393): backing a page, copying one on write, the
service of a page fault, the shootdown, and frames that are wiped. -/

namespace Sys2Proof.Machine

/-! Frames. -/

/-- The 2 MiB frames of a run of a size, from its first. -/
def runFrames (f size : Nat) : List Nat := (List.range (size / 0x200000)).map (fun k => f + 0x200000 * k)

/-- Takes memory of a leaf's size from a context's pool on a die: a page, a frame, or an aligned run of frames (R389). -/
def Ctx.takeSize (c : Ctx) (die size : Nat) : Option (Nat × Ctx) :=
  if size = 4096 then c.takePage die
  else if size = 0x200000 then c.takeFrame die
  else if 2 ^ 36 < size then none
  else
    let l := c.frames die
    (l.find? (fun f => f % size == 0 && (runFrames f size).all (fun g => l.contains g))).map (fun f =>
      (f, { c with pool := Tab.set c.pool die (l.filter (fun g => !(runFrames f size).contains g)) }))

/-- The lines of a range that some die owns. -/
def State.ownedIn (s : State) (pa n : Nat) : List Nat :=
  s.dies.flatMap (fun d => (d.2.owned.map Prod.fst).filter (fun ln => decide (pa ≤ ln * 128) && decide (ln * 128 < pa + n)))

/-- The bytes of a memory outside a range. -/
def Memory.clear (m : Memory) (pa n : Nat) : Memory := m.filter (fun e => decide (e.1 < pa) || decide (pa + n ≤ e.1))

/-- Memory wiped (R389, R446): it reads zero, no die and no instruction cache keeps a copy of it, and its lines' ticks are 0
(R324). -/
def State.wipe (s : State) (pa n : Nat) : State :=
  let out (ln : Nat) : Bool := decide (ln * 128 < pa) || decide (pa + n ≤ ln * 128)
  { s with
    mem := Memory.clear s.mem pa n
    home := s.home.filter (fun e => out e.1)
    wiped := (pa / 128, n / 128) :: s.wiped.filter (fun w => w != (pa / 128, n / 128))
    cores := Tab.mapVal s.cores (fun _ k => { k with icache := k.icache.filter (fun e => out e.1) })
    dies := Tab.mapVal s.dies (fun _ d =>
      { d with loans := d.loans.filter (fun e => out e.1), owned := d.owned.filter (fun e => out e.1) }) }

/-- R390: a frame's contents copied to another, what other dies own of it first brought home. -/
def State.copyFrame (s : State) (src dst n : Nat) : State :=
  let s1 := (s.ownedIn src n).foldl (fun s ln => s.recall ln) s
  let bytes := s1.mem.filter (fun e => decide (src ≤ e.1) && decide (e.1 < src + n))
  { s1 with mem := bytes.foldl (fun m e => Memory.put m (e.1 - src + dst) e.2) (Memory.clear s1.mem dst n) }

/-! The shootdown. -/

/-- A translation cache without a context's entries that meet a range. -/
def tlbDrop (tag va n : Nat) (l : List TlbEntry) : List TlbEntry :=
  l.filter (fun e => e.tag != tag || decide (e.va + e.size ≤ va) || decide (va + n ≤ e.va))

/-- R393, step 2: every cached translation of a context in a range is dropped. -/
def State.shootdown (s : State) (tag va n : Nat) : State :=
  let f := tlbDrop tag va n
  { s with
    dies := Tab.mapVal s.dies (fun _ d => { d with lastTlb := f d.lastTlb, quadTlb := Tab.mapVal d.quadTlb (fun _ q => f q) })
    cores := Tab.mapVal s.cores (fun _ k =>
      if (k.serving.map Prod.fst) = some tag then { k with microTlb := f k.microTlb, laneTlb := k.laneTlb.map f } else k) }

/-- The flight of a core that holds a translation of a context in a range, by what moves it on (R185). -/
def Core.holder (k : Core) (core tag va n : Nat) : Option Event :=
  k.img.harts.findSome? (fun h =>
    (h.2.chain.find? (fun f => decide ((tlbDrop tag va n f.pages).length < f.pages.length))).map (fun f =>
      f.mover { core := core, h := h.1 }))

/-- The stores that the cores of a context have issued, performed. -/
def State.performAll (s : State) (tag : Nat) : List Nat → Acc Unit
  | [] => .ok () s
  | c :: l => if s.tagOf c = some tag then (s.flush c).bind (fun _ s => s.performAll tag l) else s.performAll tag l

/-- R185, R393, step 3: whether every access under a translation of a context in a range has completed: no instruction in
flight holds one, and the stores that the context has issued are performed. What holds one moves next. Engine tiles and ray
reads translate at each access, and hold none. A change to the tables waits for this and then comes at once with its
shootdown, so that no access stands between the two (log 7). -/
def State.rangeQuiet (s : State) (tag va n : Nat) : Acc Unit :=
  match s.cores.findSome? (fun e => if (e.2.serving.map Prod.fst) = some tag then e.2.holder e.1 tag va n else none) with
  | some e => .wait (s.post e)
  | none => s.performAll tag (Tab.keys s.cores)

/-! Leaves. -/

/-- Changes the leaf of a context that starts at an address; none where no page-table page is left for it. -/
def State.setLeaf (s : State) (tag va : Nat) (pte : Word) : Option State :=
  match s.ctx tag with
  | some c => s.setLeaves tag (c.leaves.map (fun l => if l.va = va then { l with pte := pte } else l))
  | none => some s

/-- A leaf that is mapped to allocate and not yet backed (R389). -/
def Leaf.unbacked (l : Leaf) : Bool := l.alloc && !l.pte.getLsbD 0

/-- A page-table entry with a physical page and V = 1. -/
def ptePlaced (pte : Word) (pa : Nat) : Word := setField (setBit pte 0 true) 10 44 (pa / 4096)

/-- C and G of a page-table entry. -/
def pteC (pte : Word) : Bool := pte.getLsbD 8
/-- G of a page-table entry. -/
def pteG (pte : Word) : Bool := pte.getLsbD 5

/-- R390: a page-table entry made private and writable. -/
def ptePrivate (pte : Word) : Word :=
  setBit (setBit (setBit (setBit (setBit pte 2 true) 8 false) 6 true) 7 true) 5 false

/-- R391: whether a mapping permits an access: the test of the walk, as if the page were backed, and with a store to a
leaf with C = 1 permitted. -/
def Leaf.permits (l : Leaf) (kind : AccKind) (p : Priv) : Bool :=
  let pte := setBit l.pte 0 true
  let pte := if kind == .store && pteC pte then setBit (ptePrivate pte) 1 true else pte
  !leafRefuses (if l.unbacked then setField pte 10 44 0 else pte) l.size kind p

/-- What the service of a fault answers (R391). -/
inductive PageReply where
  | ok
  | fatal
  | noMemory
deriving DecidableEq, Repr

/-- R389, R393: an unbacked leaf is backed from the pool on its die, or on the die of the touch. -/
def State.back (s : State) (tag : Nat) (l : Leaf) (die : Nat) : Option State :=
  match s.ctx tag with
  | none => none
  | some c =>
    (c.takeSize (if l.die = 0xFF then die else l.die) l.size).bind (fun r =>
      ((s.setCtx tag r.2).setLeaf tag l.va (ptePlaced l.pte r.1)).map (fun s => s.shootdown tag l.va l.size))

/-- R390, step 5: a leaf rewritten for a store, shot down, and the answer; NO_MEMORY, with nothing changed, where no page-table
page is left for it. -/
def State.rewriteLeaf (s s1 : State) (tag : Nat) (l : Leaf) (pte : Word) : PageReply × State :=
  match s1.setLeaf tag l.va pte with
  | some s2 => (.ok, s2.shootdown tag l.va l.size)
  | none => (.noMemory, s)

/-- R390: a store's service on a backed leaf. -/
def State.serviceStore (s : State) (tag : Nat) (l : Leaf) (die : Nat) : PageReply × State :=
  if l.pte.getLsbD 2 then (.ok, s)
  else if !pteC l.pte then (.fatal, s)
  else if !pteG l.pte then s.rewriteLeaf s tag l (ptePrivate l.pte)
  else
    match (s.ctx tag).bind (fun c => c.takeSize die l.size) with
    | none => (.noMemory, s)
    | some (pa, c) =>
      s.rewriteLeaf ((s.setCtx tag c).copyFrame (field l.pte 10 44 * 4096) pa l.size) tag l (ptePlaced (ptePrivate l.pte) pa)

/-- R389 to R392: the service of a page fault of a context at an address, for a fault met on a die under given
privilege. -/
def State.service (s : State) (tag : Nat) (kind : AccKind) (va : Nat) (p : Priv) (die : Nat) : PageReply × State :=
  if 2 ^ 56 ≤ va ∨ inWindows va then (.fatal, s)
  else
    match (s.ctx tag).bind (fun c => c.leafOf va) with
    | none => (.fatal, s)
    | some l =>
      if !l.permits kind p then (.fatal, s)
      else
        let r := if l.unbacked then s.back tag l die else some s
        match r with
        | none => (.noMemory, s)
        | some s1 =>
          match kind, (s1.ctx tag).bind (fun c => c.leafOf va) with
          | .store, some l1 => s1.serviceStore tag l1 die
          | _, _ => (.ok, s1)

/-- R185, R393: the service of a page fault comes when no access under the page's old translation is left. -/
def State.quietAt (s : State) (tag va : Nat) : Acc Unit :=
  match (s.ctx tag).bind (fun c => c.leafOf va) with
  | some l => s.rangeQuiet tag l.va l.size
  | none => .ok () s

/-! Faults of engines and of the traversal unit. -/

/-- The privilege that a parked fault is checked under: U-mode reads of the traversal unit, else the leaf's R and W
alone (R259, log 22). -/
def Parked.priv (p : Parked) : Priv := if p.user then { mode := .u, sum := false, mxr := false } else enginePriv

end Sys2Proof.Machine
end

