-- ==== Sys2Proof/Machine/Records.lean ====
section
/-! DEFINITION. Task records (R266) and the kernel table (R413, R414): their layout, their checks, and their reads by an
instruction or by an engine. -/

namespace Sys2Proof.Machine

/-- The fields of a task record (R266). -/
def taskRecOf (bs : List Byte) : TaskRec where
  entry := BitVec.ofNat 64 (at_ bs 0 8)
  arg := BitVec.ofNat 64 (at_ bs 8 8)
  kernel := BitVec.ofNat 32 (at_ bs 16 4)
  key := BitVec.ofNat 32 (at_ bs 20 4)
  ticket := BitVec.ofNat 32 (at_ bs 24 4)
  ctl := BitVec.ofNat 8 (at_ bs 28 1)
  domain := BitVec.ofNat 8 (at_ bs 29 1)

/-- The 64 bytes of a task record. -/
def TaskRec.bytes (r : TaskRec) : List Byte :=
  bytesLE 8 r.entry.toNat ++ bytesLE 8 r.arg.toNat ++ bytesLE 4 r.kernel.toNat ++ bytesLE 4 r.key.toNat
    ++ bytesLE 4 r.ticket.toNat ++ [r.ctl, r.domain] ++ List.replicate 34 0

/-- R266: the first byte of a task record that is in error; a kernel index at or above the table's count is one. -/
def taskError (count : Nat) (bs : List Byte) : Option Nat :=
  if count ≤ at_ bs 16 4 then some 16
  else if 32 ≤ at_ bs 28 1 then some 28
  else if 64 ≤ at_ bs 29 1 ∧ at_ bs 29 1 ≠ 0xFF then some 29
  else nonzeroIn bs 30 34

/-- KT (R413). -/
def kernelTable : Nat := 0x00FFFFE000000000

/-- The address of an entry of the kernel table (R413). -/
def kernelEntry (k : Nat) : Nat := kernelTable + 64 + 64 * k

/-- What a task takes from an entry of the kernel table (R414). -/
def kernelFactsOf (bs : List Byte) : KernelFacts where
  opmask := BitVec.ofNat 64 (at_ bs 8 8)
  scratch := at_ bs 16 4
  ringbytes := at_ bs 20 4
  raydepth := at_ bs 27 1
  payload := at_ bs 28 2

/-- The facts of a task whose kernel is not known: none. -/
def KernelFacts.none : KernelFacts where
  opmask := 0
  scratch := 0
  ringbytes := 0
  raydepth := 0
  payload := 0

/-- A fault of the table's read names the entry (R414). -/
def atEntry {α : Type} (va : Word) (r : Acc α) : Acc α :=
  match r with
  | .trap t s => .trap (if t.cause = 19 then t else { t with tval := va }) s
  | r => r

/-- R413: the first reserved byte of the table's header that is not zero. -/
def kernelHeaderError (bs : List Byte) : Option Nat :=
  match nonzeroIn bs 4 4 with
  | some o => some o
  | none => nonzeroIn bs 32 32

/-- R413: the first reserved byte of an entry that is not zero. -/
def kernelEntryError (bs : List Byte) : Option Nat := nonzeroIn bs 36 28

/-- R413, R414: the table's count, read by an instruction for an entry; a reserved byte of the header that is not zero is a
descriptor fault at it (R15). -/
def State.readKernelCount (s : State) (k : Nat) : Acc Nat :=
  (atEntry (BitVec.ofNat 64 (kernelEntry k)) (s.unitRead (BitVec.ofNat 64 kernelTable) 64)).bind (fun h s =>
    match kernelHeaderError h with
    | some o => .fail descFault (BitVec.ofNat 64 (kernelTable + o)) s
    | none => .ok (at_ h 0 4) s)

/-- R414: the table's count and an entry, read by an instruction under its own privilege (log 49); a reserved byte of the
entry that is not zero is a descriptor fault at it (R15). -/
def State.readKernel (s : State) (k : Nat) : Acc (Nat × List Byte) :=
  let va := BitVec.ofNat 64 (kernelEntry k)
  (s.readKernelCount k).bind (fun count s =>
    if count ≤ k then .ok (count, []) s
    else
      (atEntry va (s.readRecord va 64 64)).bind (fun bs s =>
        match kernelEntryError bs with
        | some o => .fail descFault (va + BitVec.ofNat 64 o) s
        | none => .ok (count, bs) s))

/-- R266, R414: a task record at an address, read and checked by an instruction, with its kernel's facts. -/
def State.readTask (s : State) (va : Word) : Acc (TaskRec × KernelFacts × List Byte) :=
  (s.readRecord va 64 64).bind (fun bs s =>
    (s.readKernel (at_ bs 16 4)).bind (fun r s =>
      match taskError r.1 bs with
      | some o => .fail descFault (va + BitVec.ofNat 64 o) s
      | none => .ok (taskRecOf bs, kernelFactsOf r.2, bs) s))

/-- Whether an engine's access that has no place meets a page fault, which firmware may service (R392); any other fault
cannot be serviced. -/
def State.enginePageFault (s : State) (tag : Nat) (kind : AccKind) (a : Nat) : Bool :=
  decide (a < 2 ^ 56) && !inWindows a &&
    (match (s.ctx tag).bind (fun c => c.leafOf a) with
     | some l => leafRefuses l.pte l.size kind enginePriv
     | none => true)

/-- What an engine's read of an entry of the kernel table comes to (R414, R260, R392): its bytes; nothing, where the index is
not in the table, a reserved byte is not zero (R15), or a read cannot be serviced; or a page fault at an address. -/
inductive KernelRead where
  | ok (bs : List Byte) (s : State)
  | absent
  | page (va : Nat)

/-- An engine's read of an entry of the kernel table that has no bytes. -/
def State.kernelStop (s : State) (tag va : Nat) : KernelRead :=
  if s.enginePageFault tag .load va then .page va else .absent

/-- R414, R260: an entry of the kernel table read by an engine of a die. -/
def State.engineKernel (s : State) (q tag : Nat) (p : Tick) (k : Nat) : KernelRead :=
  match s.engineRead q tag p kernelTable 64 with
  | none => s.kernelStop tag kernelTable
  | some (h, p1, s1) =>
    if (kernelHeaderError h).isSome ∨ at_ h 0 4 ≤ k then .absent
    else
      match s1.engineRead q tag p1 (kernelEntry k) 64 with
      | none => s.kernelStop tag (kernelEntry k)
      | some (e, _, s2) => if (kernelEntryError e).isSome then .absent else .ok e s2

/-- A new task of a record. -/
def newTask (r : TaskRec) (f : KernelFacts) (launch die : Nat) : Task where
  tr := r
  facts := f
  launch := launch
  seq := 0
  waited := 0
  since := 0
  queue := .die die
  heldBy := none
  ray := none
  done := false
  shadow := false

/-- R296, R307: a task is first queued at a quad's local queue, or at a die's queue, of a die; with where it went, or none
where it fails with a placement error, which its launch learns. -/
def State.submit (s : State) (tag die : Nat) (quad : Option Nat) (t : Task) : Option Queue × State :=
  let r := s.firstQueue tag die t
  match r.2.queueTask tag die quad r.1 with
  | some (q, s1) => (some q, s1)
  | none => (none, r.2.placementError tag r.1 true)

end Sys2Proof.Machine
end

