-- ==== Sys2Proof/Machine/Rays.lean ====
section
/-! DEFINITION. Ray instructions (R257 to R265, R367) and the traversal unit. -/

namespace Sys2Proof.Machine

/-! The objects of an acceleration structure (R257). -/

/-- A 32-bit word of bytes read. -/
def w32 (bs : List Byte) (off : Nat) : Nat := at_ bs off 4

/-- n words of bytes read. -/
def w32s (bs : List Byte) (off n : Nat) : List Nat := (List.range n).map (fun k => w32 bs (off + 4 * k))

/-- The ray of a trace in the space where it is tested: origin, direction, tmin, and the current tmax (R260). -/
def Ray.frame (r : Ray) (inst : Bool) : List Nat :=
  let od := match inst, r.inst with
    | true, some i => i.ray
    | _, _ => r.ray.take 6
  od.map BitVec.toNat ++ [(r.ray.getD 6 0).toNat, r.tmax.toNat]

/-- R260: a coordinate of a point or a direction transformed, exact and rounded once; an infinity or NaN among the terms
goes through the sum by R62. -/
def transformRow (row : List Nat) (v : List Nat) (point : Bool) : Nat :=
  dot32 ((List.range 3).map (fun k => (val32 (wordOf row k), val32 (wordOf v k)))
    ++ if point then [(.fin false 1 0, val32 (wordOf row 3))] else [])

/-- The determinant of an instance's matrix, or none where it is not finite. -/
def matrixDet (m : List Nat) : Option Dy :=
  let row (k : Nat) : List Nat := (m.drop (4 * k)).take 3
  if (row 0 ++ row 1 ++ row 2).all finite32 then
    some ((vecOf (row 0) 0).dot ((vecOf (row 1) 0).cross (vecOf (row 2) 0)))
  else none

/-- R260: the instance that a record makes for a ray. -/
def instanceOf (bs : List Byte) (ray : List Nat) : Instance :=
  let m := w32s bs 0 12
  let row (k : Nat) : List Nat := (m.drop (4 * k)).take 4
  { ray := ((List.range 3).map (fun k => BitVec.ofNat 32 (transformRow (row k) (ray.take 3) true)))
      ++ ((List.range 3).map (fun k => BitVec.ofNat 32 (transformRow (row k) ((ray.drop 3).take 3) false)))
    id := BitVec.ofNat 32 (w32 bs 56)
    shader := at_ bs 61 3
    opq := at_ bs 64 1 % 2 == 1
    nocull := at_ bs 64 1 / 2 % 2 == 1
    mirrored := match matrixDet m with
      | some d => decide (d.i < 0)
      | none => false }

/-- R257: whether an instance record has a reserved bit set. -/
def instanceBad (bs : List Byte) : Bool := decide (4 ≤ w32 bs 64) || (nonzeroIn bs 68 60).isSome

/-- R257: whether a triangle record has a reserved bit set. -/
def triangleBad (bs : List Byte) : Bool := decide (4 ≤ w32 bs 40) || decide (w32 bs 44 ≠ 0)

/-- The kind of a child reference: 0 empty, 1 node, 2 leaf, 3 instance. -/
def refKind (r : Nat) : Nat := r / 2 ^ 62

/-- R257: whether a reference has a reserved bit set. -/
def refBad (r : Nat) : Bool := decide (r / 2 ^ 48 % 128 ≠ 0)

/-- What a reference leads to. -/
def refWork (r : Nat) (inst : Bool) : List RayWork :=
  let a := r % 2 ^ 48
  match refKind r with
  | 1 => [.node (BitVec.ofNat 64 a) inst]
  | 2 => (List.range (r / 2 ^ 56 % 64 + 1)).map (fun k => .tri (BitVec.ofNat 64 (a + 48 * k)) (r / 2 ^ 55 % 2 == 1) inst)
  | 3 => if inst then [] else [.object (BitVec.ofNat 64 a)]
  | _ => []

/-- R260: the children of a node that the ray meets, in ascending order of lo, ties to the lower child. -/
def nodeWork (bs : List Byte) (frame : List Nat) (inst : Bool) : List RayWork :=
  let met := (List.range 4).filterMap (fun c =>
    let r := at_ bs (96 + 8 * c) 8
    if refKind r = 0 ∨ (refKind r = 3 ∧ inst) then none
    else (boxTest frame (w32s bs (24 * c) 6)).map (fun iv => (iv.1, r)))
  (sortBy (fun a b => decide (cmpVal (val32 a.1) (val32 b.1) ≤ 0)) met).flatMap (fun e => refWork e.2 inst)

/-- R257: whether a node holds a reference with a reserved bit set, an empty one too. -/
def nodeBad (bs : List Byte) : Bool := (List.range 4).any (fun c => refBad (at_ bs (96 + 8 * c) 8))

/-! Reads and writes on a ray's behalf. -/

/-- What an access on a ray's behalf gives. -/
inductive RayAcc (α : Type) where
  | ok (a : α) (s : State)
  /-- the ray waits, parked or for the horizon -/
  | wait (s : State)
  /-- it cannot be serviced: the ray completes FAULTED -/
  | dead (s : State)

/-- R262, R392, R440: what an access's end means for a ray: a page fault parks it, uncorrectable data faults its
context. -/
def rayAcc {α : Type} (tag : Nat) (i : HartId) (slot uid : Nat) (store user : Bool) (r : Acc α) : RayAcc α :=
  match r with
  | .ok a s => .ok a s
  | .wait s => .wait s
  | .trap t s =>
    if t.cause = 13 ∨ t.cause = 15 then
      .wait (s.park (dieOf i.core) { tag := tag, va := t.tval, store := store, user := user,
                                     who := .ray (s.core i.core).lcore i.h slot uid })
    else if t.cause = 19 then .dead (s.post (.contextFault tag 2 (dieOf i.core) (s.core i.core).lcore t.tval))
    else .dead s

/-- R259: a read of the traversal unit for a hardware context, checked as a U-mode read. Reads do not cross a line, and one
that lies in a scratchpad window ends the ray FAULTED (log 52). -/
def State.rayRead (s : State) (i : HartId) (va : Word) (n : Nat) : Acc (List Byte) :=
  (s.translate i.core { mode := .u, sum := false, mxr := false } .load va n none).bind (fun pl s =>
    if pl.isMem then s.readPlace i.core pl n else .fail 5 va s)

/-- A read of n bytes in pieces of 16. -/
def State.rayReads (s : State) (i : HartId) (va : Word) (n : Nat) : Acc (List Byte) :=
  (Acc.list (fun j s => s.rayRead i (va + BitVec.ofNat 64 (16 * j)) 16) (List.range (n / 16)) s).bind
    (fun l s => .ok l.flatten s)

/-- R367: a write of the traversal unit, in pieces of 8, checked by R and W of the leaf alone (log 22). -/
def State.rayWrite (s : State) (i : HartId) (va : Word) (data : List Byte) : Acc Unit :=
  (Acc.list (fun j s =>
    let a := va + BitVec.ofNat 64 (8 * j)
    (s.translate i.core enginePriv .store a 8 none).bind (fun pl s =>
      if pl.isMem then s.writePlace i pl ((data.drop (8 * j)).take 8) else .fail 7 a s))
    (List.range (data.length / 8)) s).bind (fun _ s => .ok () s)

/-! Shader tasks. -/

/-- The bytes of a hit record (R260). -/
def hitBytes (token : Nat) (h : Hit) (r : Ray) : List Byte :=
  bytesLE 8 token ++ bytesLE 4 h.t.toNat ++ bytesLE 4 h.u.toNat ++ bytesLE 4 h.v.toNat ++ bytesLE 4 h.inst.toNat
    ++ bytesLE 4 h.prim.toNat ++ bytesLE 4 h.kind.toNat ++ bytesLE 8 r.payload.toNat ++ bytesLE 4 r.paybytes
    ++ bytesLE 4 r.depth ++ List.replicate 16 0

/-- The hit of a ray that has none, as the hit record of its miss task shows it: what its fields then hold is not stated, and
the model takes those of a completion record without a hit (R263; log 52). -/
def Hit.none : Hit where
  t := 0x7F800000
  u := 0
  v := 0
  inst := 0xFFFFFFFF
  prim := 0xFFFFFFFF
  kind := 0
  shader := 0

/-- R367: the address of a hit record. -/
def hitAddr (hb : Word) (lcore h slot : Nat) : Word :=
  hb + BitVec.ofNat 64 (5120 * lcore + 512 * (h - 1) + 64 * slot)

/-- R260: the task record of a shader task. -/
def shaderRec (r : Ray) (pc arg : Word) (kernel : Nat) : TaskRec where
  entry := pc
  arg := arg
  kernel := BitVec.ofNat 32 kernel
  key := r.key
  ticket := 0
  ctl := BitVec.ofNat 8 r.prio
  domain := 0xFF

/-- Replaces a ray of a hardware context. -/
def State.setRay (s : State) (i : HartId) (slot : Nat) (r : Ray) : State := s.onHart i (fun t => t.onRay slot (fun _ => r))

/-- A ray completes (R263). -/
def State.endRay (s : State) (i : HartId) (slot status : Nat) : State := s.onHart i (fun t => t.completeRay slot status)

/-- R260, R297, R300, R307, R367: the shader task of a ray's candidate or end is queued: its hit record is written
first. A full partition makes the ray wait, a page fault of the table's read parks it (R392); a kernel that the table does not
hold, or a task that can be placed nowhere, ends it FAULTED. `after` is the ray's phase while it waits for the task. -/
def State.queueShader (s : State) (i : HartId) (slot : Nat) (r : Ray) (kernel kind : Nat) (h : Hit) (after : RayPhase) :
    State :=
  let tag := s.accTag i.core
  let die := dieOf i.core
  let l := (s.core i.core).lcore
  let full := ((s.ctx tag).map (fun c => c.partFull die false)).getD false
  if full then s
  else
    match s.engineKernel die tag (s.core i.core).ptick kernel with
    | .absent => s.endRay i slot rayFAULTED
    | .page va =>
      s.park die { tag := tag, va := BitVec.ofNat 64 va, store := false, user := false,
                   who := .ray l i.h slot r.uid }
    | .ok ke s =>
      let tk := s.newToken tag
      let arg := hitAddr (((s.ctx tag).map Ctx.hb).getD 0) l i.h slot
      match rayAcc tag i slot r.uid true false (tk.2.rayWrite i arg (hitBytes tk.1 h r)) with
      | .wait s => s
      | .dead s => s.endRay i slot rayFAULTED
      | .ok _ s =>
        let link : RayLink := { lcore := l, h := i.h, slot := slot, uid := r.uid, token := tk.1, kind := kind }
        let t : Task :=
          { newTask (shaderRec r (BitVec.ofNat 64 (at_ ke 0 8)) arg kernel) (kernelFactsOf ke) r.launch die with
            ray := some link }
        ((s.setRay i slot { r with phase := after, token := tk.1, tasks := r.tasks + 1 }).submit tag die (some (l / 4)) t).2

/-- A kernel index that names no shader (R258). -/
def noShader : Nat := 0xFFFFFFFF

/-- R258: the four kernel indices of an entry of the shader table: closest-hit, any-hit, intersection, miss. The table may
stand at any address: an entry is read in parts that cross no line. -/
def State.shaderEntry (s : State) (i : HartId) (r : Ray) (e : Nat) : Acc (List Nat) :=
  (Acc.list (fun (p : Nat × Nat) s => s.rayRead i (BitVec.ofNat 64 p.1) p.2)
    (pieces (r.shtab + BitVec.ofNat 64 (16 * e)).toNat 16) s).bind (fun l s => .ok (w32s l.flatten 0 4) s)

/-! One step of traversal. -/

/-- R260: a candidate that needs a shader: its task is queued, or without a shader it is accepted or, procedural,
rejected. -/
def State.rayCandidate (s : State) (i : HartId) (slot : Nat) (r : Ray) (h : Hit) : State :=
  let tag := s.accTag i.core
  let proc := h.kind == 0xFF
  match rayAcc tag i slot r.uid false true (s.shaderEntry i r h.shader) with
  | .wait s => s.setRay i slot { r with cand := some h }
  | .dead s => s.endRay i slot rayFAULTED
  | .ok es s =>
    let k := es.getD (if proc then 2 else 1) noShader
    if k = noShader then s.setRay i slot (if proc then r.reject false else r.accept h false)
    else
      (s.setRay i slot { r with cand := some h }).queueShader i slot { r with cand := some h } k (if proc then 1 else 0) h
        .verdict

/-- R260: a triangle record met by a ray. -/
def State.rayTriangle (s : State) (i : HartId) (slot : Nat) (r : Ray) (bs : List Byte) (leafOpq inst : Bool) : State :=
  let fl := w32 bs 40
  let io := if inst then r.inst else none
  let frame := r.frame inst
  let id := match io with
    | some o => o.id
    | none => 0xFFFFFFFF
  let shader := match io with
    | some o => o.shader
    | none => 0
  let mk (t u v kind : Nat) : Hit :=
    { t := BitVec.ofNat 32 t, u := BitVec.ofNat 32 u, v := BitVec.ofNat 32 v, inst := id,
      prim := BitVec.ofNat 32 (w32 bs 36), kind := BitVec.ofNat 32 kind, shader := shader }
  if fl / 2 % 2 = 1 then
    match boxTest frame (w32s bs 0 6) with
    | some iv => s.rayCandidate i slot r (mk iv.1 0 0 0xFF)
    | none => s.setRay i slot r
  else
    match triTest frame (w32s bs 0 10) with
    | none => s.setRay i slot r
    | some h =>
      let front := h.front != (io.map Instance.mirrored).getD false
      let culled := !((io.map Instance.nocull).getD false) && (if front then r.flags.getLsbD 3 else r.flags.getLsbD 2)
      if culled then s.setRay i slot r
      else
        let c := mk h.t h.u h.v (if front then 0 else 1)
        if fl % 2 = 1 || leafOpq || r.flags.getLsbD 0 || (io.map Instance.opq).getD false then
          s.setRay i slot (r.accept c false)
        else s.rayCandidate i slot r c

/-- R260: no candidate remains, or the search was ended: the closest-hit or the miss task, or the completion. -/
def State.rayFinish (s : State) (i : HartId) (slot : Nat) (r : Ray) : State :=
  let tag := s.accTag i.core
  let shader (e k kind status : Nat) (h : Hit) (s : State) : State :=
    match rayAcc tag i slot r.uid false true (s.shaderEntry i r e) with
    | .wait s => s
    | .dead s => s.endRay i slot rayFAULTED
    | .ok es s =>
      let x := es.getD k noShader
      if x = noShader then s.endRay i slot status else s.queueShader i slot r x kind h .shading
  match r.best with
  | some h => if r.flags.getLsbD 4 then s.endRay i slot rayHIT else shader h.shader 0 2 rayHIT h s
  | none => shader 0 3 3 rayMISS Hit.none s

/-- R257, R260: one node, instance record or triangle of a ray, or its end. A child's address is looked at when the child is
visited (log 52). -/
def State.rayStep (s : State) (i : HartId) (slot : Nat) (r : Ray) : State :=
  let tag := s.accTag i.core
  let read (va : Word) (align n : Nat) (k : List Byte → State → State) : State :=
    if va.toNat % align ≠ 0 then s.endRay i slot rayFAULTED
    else
      match rayAcc tag i slot r.uid false true (s.rayReads i va n) with
      | .wait s => s
      | .dead s => s.endRay i slot rayFAULTED
      | .ok bs s => k bs s
  match r.cand, r.stopAll, r.work with
  | some h, _, _ => s.rayCandidate i slot r h
  | none, true, _ => s.rayFinish i slot r
  | none, false, [] => s.rayFinish i slot r
  | none, false, w :: l =>
    let r' : Ray := { r with work := l }
    match w with
    | .node a inst => read a 128 128 (fun bs s =>
        if nodeBad bs then s.endRay i slot rayFAULTED
        else s.setRay i slot { r' with work := nodeWork bs (r.frame inst) inst ++ l })
    | .object a => read a 128 128 (fun bs s =>
        if instanceBad bs then s.endRay i slot rayFAULTED
        else if at_ bs 60 1 &&& r.mask.toNat = 0 then s.setRay i slot r'
        else s.setRay i slot
          { r' with inst := some (instanceOf bs (r.ray.map BitVec.toNat)),
                    work := .node (BitVec.ofNat 64 (at_ bs 48 8)) true :: l })
    | .tri a opq inst => read a 16 48 (fun bs s =>
        if triangleBad bs then s.endRay i slot rayFAULTED else s.rayTriangle i slot r' bs opq inst)

/-- RAY_TRAVERSAL (R260, R265): a running ray of a resident, live hardware context moves one step, unless it is parked
by a fault (R262); it moves again next while it runs and got anywhere. -/
def execRayTraversal (h : HartId) (slot : Nat) (s : State) : Out :=
  match Tab.get? (s.hart h).rays slot with
  | some r =>
    let tag := s.accTag h.core
    if r.phase = .running ∧ (s.tagOf h.core).isSome
        ∧ !s.isParked (dieOf h.core) tag (.ray (s.core h.core).lcore h.h slot r.uid) then
      let s1 := s.rayStep h slot r
      match Tab.get? (s1.hart h).rays slot with
      | some r1 => if r1.phase = .running ∧ r1 ≠ r then .next (s1.post (.rayTraversal h slot)) else .next s1
      | none => .next s1
    else .next s
  | none => .next s

/-! The ray instructions. -/

/-- R258: the first byte of a trace record that is in error. -/
def traceError (bs : List Byte) : Option Nat :=
  if at_ bs 16 8 % 8 ≠ 0 then some 16
  else if 32 ≤ at_ bs 24 1 then some 24
  else
    match nonzeroIn bs 25 3 with
    | some o => some o
    | none =>
      match nonzeroIn bs 30 2 with
      | some o => some o
      | none => nonzeroIn bs 36 28

/-- The kernel that a hardware context runs; a control context runs none of the kernel table. -/
def Hart.kernel (t : Hart) : KernelFacts :=
  match t.task with
  | some k => k.task.facts
  | none => KernelFacts.none

/-- R259: a ray slot of a trace, from its ray record and its trace record. -/
def rayOf (t : Hart) (ray : List Nat) (bs : List Byte) (uid : Nat) : Ray where
  uid := uid
  ray := ray.map (BitVec.ofNat 32)
  shtab := BitVec.ofNat 64 (at_ bs 8 8)
  payload := BitVec.ofNat 64 (at_ bs 16 8)
  flags := BitVec.ofNat 32 (at_ bs 24 4)
  mask := BitVec.ofNat 8 (at_ bs 28 1)
  depth := at_ bs 29 1
  key := BitVec.ofNat 32 (at_ bs 32 4)
  prio := match t.task with
    | some k => k.task.tr.prio
    | none => 0
  launch := match t.task with
    | some k => k.task.launch
    | none => 0
  paybytes := t.kernel.payload
  work := [.node (BitVec.ofNat 64 (at_ bs 0 8)) false]
  inst := none
  tmax := BitVec.ofNat 32 (wordOf ray 7)
  best := none
  cand := none
  token := 0
  stopAll := false
  phase := .running
  tasks := 0
  status := 0
  returned := false
  order := 0

/-- R259: the lowest free slot of a hardware context, or none where it holds eight. -/
def Hart.freeSlot (t : Hart) : Option Nat := (List.range 8).find? (fun k => (Tab.get? t.rays k).isNone)

/-- R37, R51: whether the format in vtype is one that an instruction may execute under. -/
def State.vtypeFits (s : State) : Bool := (s.fmt.map s.me.fmtFits).getD false

/-- An instruction of the group at issue; one that names a vector register, of at least 256 bits, executes under whatever
format vtype holds (R37, R51, R239). -/
def State.rayIssue (s : State) (i : Instr) (vec : Bool) (k : State → Out) : Out :=
  s.issueVec i vec (!vec || (decide (256 ≤ cfgVlen s.me.vcfgst) && s.vtypeFits)) (some 61) k

/-- TRACE (R258, R259). The traversal begins when every access that the hardware context's instructions have made has been
performed; its other rays go on. -/
def execTrace (l : BitVec 4) (d a b : Reg) (s : State) : Out :=
  let i : Instr := .trace l d a b
  s.rayIssue i true (fun s =>
    let xb := s.x b
    s.inOrder (fun s => (s.readRecord xb 64 64).run (fun bs s =>
      match traceError bs with
      | some o => s.trap descFault (xb + BitVec.ofNat 64 o)
      | none =>
        s.drained (fun s => s.madeReleased (fun s =>
          let done (s : State) (v : Word) : Out := (s.setX d v).doneLong l [.v a.val] (xs [d])
          match s.me.freeSlot with
          | none => done s (BitVec.allOnes 64)
          | some k =>
            let u := s.newToken s.myTag
            let r := rayOf s.me (s.me.words a 0 8) bs u.1
            let s1 := u.2.onMe (fun t => { t with rays := Tab.set t.rays k r })
            if r.depth = 0 ∨ s.me.kernel.raydepth < r.depth then
              done (s1.endRay s1.cur k rayREFUSED) (BitVec.ofNat 64 k)
            else done (s1.post (.rayTraversal s1.cur k)) (BitVec.ofNat 64 k))))))

/-- RWAIT (R263). -/
def execRwait (l : BitVec 4) (d : Reg) (s : State) : Out :=
  s.rayIssue (.rwait l d) false (fun s =>
    match s.me.nextCompletion with
    | some (k, _) => (s.onMe (fun t => t.onRay k (fun r => { r with returned := true }))).doneWithLong l d (BitVec.ofNat 64 k)
    | none => if s.me.rayOutstanding then .next s else s.doneWithLong l d (BitVec.allOnes 64))

/-- R263: the completion record of a slot. -/
def Hart.completionOf (t : Hart) (k : Nat) : List Nat :=
  let blank (status : Nat) : List Nat := [status, posInf32, 0, 0, 0xFFFFFFFF, 0xFFFFFFFF, 0, k]
  match Tab.get? t.rays k with
  | none => blank rayNONE
  | some r =>
    if r.phase ≠ .complete then blank rayPENDING
    else
      match r.status == rayHIT, r.best with
      | true, some h => [rayHIT, h.t.toNat, h.u.toNat, h.v.toNat, h.inst.toNat, h.prim.toNat, h.kind.toNat, k]
      | _, _ => blank r.status

/-- RGET (R263). -/
def execRget (l : BitVec 4) (d a : Reg) (s : State) : Out :=
  s.rayIssue (.rget l d a) true (fun s => s.drained (fun s =>
    let k := field (s.x a) 0 3
    let rec_ := s.me.completionOf k
    (s.onMe (fun t =>
      let t1 := t.putWords d 0 rec_
      match Tab.get? t.rays k with
      | some r => if r.phase = .complete then { t1 with rays := Tab.erase t1.rays k } else t1
      | none => t1)).doneLong l [] [.v d.val]))

/-- R261: a verdict on a candidate of a ray. -/
def Ray.judge (r : Ray) (xb : Word) : Ray :=
  let code := field xb 0 2
  let stop := decide (2 ≤ code)
  match r.cand with
  | none => r
  | some h =>
    if code = 0 ∨ code = 3 then r.reject stop
    else if h.kind ≠ 0xFF then r.accept h stop
    else
      let t := field xb 32 32
      let k := field xb 8 8
      let bad := isNan32 t || decide (cmpVal (val32 t) (val32 (r.ray.getD 6 0).toNat) < 0)
        || decide (0 < cmpVal (val32 t) (val32 r.tmax.toNat))
      if bad then r.reject false
      else r.accept { h with t := BitVec.ofNat 32 t, kind := BitVec.ofNat 32 (max 2 k) } stop

/-- RHIT (R261). -/
def execRhit (l : BitVec 4) (a b : Reg) (s : State) : Out :=
  s.rayIssue (.rhit l a b) false (fun s => s.madeReleased (fun s =>
    match s.tagOf s.cur.core with
    | none => s.done 4
    | some tag =>
      match s.tokenRay tag (s.x a).toNat with
      | none => s.done 4
      | some (lc, h, slot) =>
        let xb := s.x b
        ((s.onLogical tag lc (fun m => m.onHart h (fun t =>
          t.onRay slot (fun r => { r.judge xb with phase := .running })))).wakeRay tag lc h slot).done 4))

/-- RCANCEL (R264). -/
def execRcancel (l : BitVec 4) (a : Reg) (s : State) : Out :=
  s.rayIssue (.rcancel l a) false (fun s => (s.onMe (fun t => t.cancelRay (field (s.x a) 0 3))).done 4)

end Sys2Proof.Machine
end

