-- ==== Sys2Proof/Machine/Tasks.lean ====
section
/-! DEFINITION. Task and helper instructions (R266 to R275, R296 to R310, R362). A core that serves no context has no
queues, and no core of a context: what it starts belongs to no launch. -/

namespace Sys2Proof.Machine

/-- An instruction that only the control context executes: a trap of step 4 of R101 on any other. -/
def State.control (s : State) (k : State → Out) : Out := if s.cur.h = 0 then k s else s.illegal

/-- What the executing hardware context's core holds for its context. -/
def State.myImg (s : State) : Img := s.img s.cur.core

/-- Changes it. -/
def State.onMyImg (s : State) (f : Img → Img) : State := s.onImg s.cur.core f

/-- −k as a status. -/
def minus (k : Nat) : Word := -(BitVec.ofNat 64 k)

/-- Whether a hardware context of the executing core holds a live helper. -/
def Img.liveAt (m : Img) (h : Nat) : Bool := (m.hart h).live

/-- The helpers' numbers. -/
def helperIds : List Nat := (List.range 10).map (fun j => j + 1)

/-! hstart. -/

/-- R267: the hardware context that a request gets, or none. -/
def Img.grantHart (m : Img) (request : Nat) : Option Nat :=
  if request = 0 then helperIds.find? (fun h => !m.liveAt h)
  else if request ≤ 10 ∧ !m.liveAt request then some request
  else none

/-- R267: the status of an hstart that starts nothing, or the hardware context that it starts. -/
def State.startStatus (s : State) (request : Nat) (f : KernelFacts) : Except Word Nat :=
  match s.myImg.grantHart request with
  | none => .error (minus 1)
  | some h =>
    let next := s.myImg.hnext.toNat
    if next = 0 ∨ 32 < next ∨ s.myImg.freeUnits < next then .error (minus 2)
    else if !covers s.myCore.capmask f.opmask then .error (minus 3)
    else if s.partition s.cur.core < f.scratch + f.ringbytes then .error (minus 4)
    else .ok h

/-- R362: the obligation that a shading task's commit record gives it. -/
def State.readObligation (s : State) (r : TaskRec) : Acc (Option Obligation) :=
  if !r.tv then .ok none s
  else
    (s.readRecord r.arg 32 32).bind (fun bs s =>
      if at_ bs 0 4 ≠ r.ticket.toNat then .fail descFault r.arg s
      else .ok (some { owner := at_ bs 4 4, pass := at_ bs 8 4, block := at_ bs 12 2, ticket := at_ bs 0 4 }) s)

/-- The taken task bound to a record address (R306). -/
def State.boundAt (s : State) (a : Word) : Option Task := (s.myImg.taken.find? (fun t => t.addr == a)).map Taken.task

/-- The binding of an address released: of two tasks taken to one address, the one taken first (R306; log
72). -/
def Img.unbind (m : Img) (a : Word) : Img := { m with taken := m.taken.eraseP (fun t => t.addr == a) }

/-- R437: a run of a selected task starts: where it runs is kept, and whether it folds a hash. -/
def State.startRun (s : State) (tag core : Nat) (t : Task) : Bool × State :=
  match (s.ctx tag).bind (fun c => c.shadows.find? (fun r => r.seq == t.seq)) with
  | none => (false, s)
  | some r =>
    let r' : Shadow := if t.shadow then { r with copy := some core } else { r with primary := some core }
    (t.shadow || r.hp.isNone,
      s.onCtx tag (fun c => { c with shadows := c.shadows.map (fun q => if q.seq = r.seq then r' else q) }))

/-- R268: a helper as hstart starts it. -/
def startedHart (r : TaskRec) (share : Nat) (k : HelperTask) : Hart :=
  let t : Hart := { Hart.init .u with pc := r.entry, live := true, share := share, task := some k }
  ((t.put 10 r.arg).put 11 (r.key.setWidth 64)).put 12 (if r.tv then r.ticket.setWidth 64 else 0)

/-- R268, R306: the helper starts: a bound task keeps its launch, age and number; any other record is a new task of the
service launch (R297). -/
def State.startHelper (s : State) (h : Nat) (a : Word) (r : TaskRec) (f : KernelFacts) (o : Option Obligation) : State :=
  let c := s.cur.core
  let tag := s.myTag
  let start := match s.boundAt a with
    | some t => ({ t with tr := r, facts := f }, s.onMyImg (fun m => m.unbind a))
    | none => s.firstQueue tag (dieOf c) (newTask r f 0 (dieOf c))
  let run := start.2.startRun tag c start.1
  let k : HelperTask := { task := start.1, obligation := o, met := false, folds := run.1, hash := 0, stored := [] }
  run.2.setHart { core := c, h := h } (startedHart r s.myImg.hnext.toNat k)

/-- R414: the record that hstart reads, with the facts that govern its task: those a bound task was queued with, of which
the table's entry is not read again, else the facts of the kernel's entry. -/
def State.readStart (s : State) (va : Word) : Acc (TaskRec × KernelFacts × List Byte) :=
  match s.boundAt va with
  | none => s.readTask va
  | some t =>
    (s.readRecord va 64 64).bind (fun bs s =>
      (s.readKernelCount (at_ bs 16 4)).bind (fun count s =>
        match taskError count bs with
        | some o => .fail descFault (va + BitVec.ofNat 64 o) s
        | none => .ok (taskRecOf bs, t.facts, bs) s))

/-- HSTART (R267, R268, R306, R309, R362). -/
def execHstart (l : BitVec 4) (d a b : Reg) (s : State) : Out :=
  s.control (fun s => s.base [a, b] [d] (fun s => s.released (fun s =>
    let xa := s.x a
    (s.readStart xa).run (fun r s =>
      match s.startStatus (field (s.x b) 0 4) r.2.1 with
      | .error v => s.doneWithLong l d v
      | .ok h =>
        (s.readObligation r.1).run (fun o s =>
          (s.startHelper h xa r.1 r.2.1 o).doneWithLong l d (BitVec.ofNat 64 h))))))

/-- R269: whether a selector of hjoin waits no longer. -/
def Img.joined (m : Img) (sel : Nat) : Bool :=
  if sel = 0 then helperIds.any (fun h => !m.liveAt h)
  else if sel ≤ 10 then !m.liveAt sel
  else if sel = 15 then helperIds.all (fun h => !m.liveAt h)
  else true

/-- HJOIN (R269). -/
def execHjoin (_l : BitVec 4) (a : Reg) (s : State) : Out :=
  s.control (fun s => s.base [a] [] (fun s =>
    if s.myImg.joined (field (s.x a) 0 4) then s.done 4 else .next s))

/-- HEXIT (R270): the task is done, what is in flight completes, the rays are cancelled, and so not waited for (R265, log 71),
the helper retires. -/
def execHexit (_l : BitVec 4) (s : State) : Out :=
  if s.cur.h = 0 then s.illegal
  else
    s.base [] [] (fun s => s.madeReleased (fun s =>
      (s.markDone s.cur s.myTag 0).drained (fun s => s.madeReleased (fun s =>
        .next (s.retireHelper s.cur s.myTag true)))))

/-- The hardware contexts of a core other than the executing one that are live, and that were not found waiting at issue in this
slot (R271, R311). Those that turn out to wait at issue when they are tried are not ready either, and are no longer waited
for. -/
def State.readyOthers (s : State) : List Nat :=
  let c := s.cur.core
  (List.range 11).filter (fun h => h != s.cur.h && (if h = 0 then s.controlReady c else s.helperReady c h))

/-- HYIELD (R271). -/
def execHyield (_l : BitVec 4) (s : State) : Out :=
  s.base [] [] (fun s =>
    let l := s.readyOthers
    (s.onMe (fun t => { t with yield := if l.isEmpty then none else some (l, Config.yieldCc) })).done 4)

/-! Queues. -/

/-- The status of a put by where the task went (R272). -/
def Queue.putStatus : Queue → Word
  | .quad _ _ => 0
  | .die _ => 1

/-- R306: a taken task returns to the queues unchanged, its binding released. A shadow copy returns to its die's
queue. -/
def State.returnTask (s : State) (a : Word) (t : Task) : Word × State :=
  let tag := s.myTag
  let s1 := s.onMyImg (fun m => m.unbind a)
  let die := dieOf s.cur.core
  if t.shadow then (1, s1.onCtx tag (fun c => { c with tasks := c.tasks ++ [{ t with queue := .die die }] }))
  else
    match s1.queueTask tag die (some (s.myCore.lcore / 4)) t with
    | some (q, s2) => (q.putStatus, s2)
    | none => (minus 2, s1.placementError tag t true)

/-- R272, R275, R297: the task whose completion a put record waits for, and the launch of the put. -/
def State.putter (s : State) (r : TaskRec) : Option Nat × Nat :=
  match s.me.task with
  | some k => (if r.cont && !k.task.done then some k.task.seq else none, k.task.launch)
  | none => (none, 0)

/-- R272, R300, R307: a new record is put. -/
def State.putTask (s : State) (r : TaskRec) (f : KernelFacts) : Word × State :=
  let tag := s.myTag
  let die := dieOf s.cur.core
  let full := ((s.ctx tag).map (fun c => c.partFull die (r.cont && s.cur.h != 0))).getD false
  if full then (minus 1, s)
  else
    let p := s.putter r
    let res := s.submit tag die (some (s.myCore.lcore / 4)) { newTask r f p.2 die with heldBy := p.1 }
    match res.1 with
    | some q => (q.putStatus, res.2)
    | none => (minus 2, res.2)

/-- QPUT (R272, R300, R306, R307). -/
def execQput (l : BitVec 4) (d a : Reg) (s : State) : Out :=
  s.base [a] [d] (fun s => s.released (fun s =>
    let xa := s.x a
    match (if s.cur.h = 0 then s.boundAt xa else none) with
    | some t =>
      let r := s.returnTask xa t
      r.2.doneWithLong l d r.1
    | none =>
      (s.readTask xa).run (fun r s =>
        let p := s.putTask r.1 r.2.1
        p.2.doneWithLong l d p.1)))

/-- The dwords of a record written in ascending order by the executing hardware context. -/
def State.writeDwords (s : State) (va : Word) (bs : List Byte) : Acc Unit :=
  (Acc.list (fun j s => s.write (va + BitVec.ofNat 64 (8 * j)) ((bs.drop (8 * j)).take 8)) (List.range (bs.length / 8)) s).bind
    (fun _ s => .ok () s)

/-- R273, R306: a core takes a task: its record is written, and it is bound to the record's address, as one action; a
write that may not yet be performed leaves the task in its queue. A record in uncorrectable data is a machine check, and a
correctable error is counted (R299, R438, R439). -/
def State.takeTask (s0 : State) (l : BitVec 4) (d : Reg) (a : Word) (t : Task) : Out :=
  let stored := CoreCell.isQueued s0.myTag t.seq
  let s := s0.correctDie t.queue.die' stored
  if s.badCore.any stored then s.trap 19 0
  else
  match s.writeDwords a t.tr.bytes with
  | .ok _ s1 =>
    ((s1.unqueue s1.myTag t).onMyImg (fun m => { m with taken := m.taken ++ [{ addr := a, task := t }] })).doneWithLong l d 0
  | .trap t s1 => s1.trap t.cause t.tval
  | .wait _ => .next s

/-- R273, R274, R301, R306: qtake and qsteal: the address is checked before any task is taken. `first` is the step of
the search at which it begins, and `none` what becomes of one that finds nothing. -/
def State.takeWith (s : State) (l : BitVec 4) (d a : Reg) (first : Nat) (none' : State → Out) : Out :=
  s.control (fun s => s.base [a] [d] (fun s =>
    let xa := s.x a
    if xa.toNat % 64 ≠ 0 then s.trap 6 xa
    else
      (s.dataPlace .store xa 64).run (fun _ s =>
        let m := s.myImg
        if m.qsel = 0 ∨ 4 ≤ m.taken.length then s.doneWithLong l d (minus 1)
        else
          match s.search s.myTag s.cur.core first m.qsel with
          | some t => s.takeTask l d xa t
          | none => none' s)))

/-- QTAKE (R273, R305, R306): it waits while no task is eligible. -/
def execQtake (l : BitVec 4) (d a : Reg) (s : State) : Out := s.takeWith l d a 0 (fun s => .next s)

/-- QSTEAL (R274, R305): one pass without the local queue. -/
def execQsteal (l : BitVec 4) (d a : Reg) (s : State) : Out := s.takeWith l d a 1 (fun s => s.doneWithLong l d (minus 1))

/-- QTAKE_WAKE (R305): a control context that stands at a qtake restarts its search when a task is eligible for its
core. Without this step it searches again whenever it is chosen to issue. -/
def execQtakeWake (h : HartId) (s : State) : Out :=
  let s1 : State := { s with cur := h }
  if s.queueReady h.core ∧ s.controlReady h.core then
    match s1.nextInstr with
    | .ok (.qtake l d a) s2 => execQtake l d a s2
    | _ => .next s
  else .next s

/-- QDONE (R275): it has no effect on the control context, or where the task is done. -/
def execQdone (_l : BitVec 4) (a : Reg) (s : State) : Out :=
  s.base [a] [] (fun s =>
    match s.me.task with
    | some k =>
      if k.task.done then s.done 4
      else s.released (fun s => (s.markDone s.cur s.myTag (field (s.x a) 0 32)).done 4)
    | none => s.done 4)

end Sys2Proof.Machine
end

