-- ==== Sys2Proof/Machine/Barriers.lean ====
section
/-! DEFINITION. Barriers (R276, R277, R308, R309). An arrival is a release and the end of a wait an acquire at the
instruction's scope; at .mod and wider the domain's line is no line of memory, so the arrival writes back what the die
owns (R331, R332; log 21). -/

namespace Sys2Proof.Machine

/-- A barrier fault: cause 48, the domain in [5:0] and the scope code in [10:8] (R291). -/
def State.barrierFault (s : State) (scope : BitVec 3) (x : Word) : Out :=
  s.trap 48 (BitVec.ofNat 64 (field x 0 6 + scope.toNat * 256))

/-- R276: the domain that an instruction names: in the table, allocated to the running context, with the issuer inside its
scope instance; none otherwise. -/
def State.barDomain (s : State) (scope : BitVec 3) (x : Word) : Option Domain :=
  match s.tagOf s.cur.core with
  | some tag => (s.ctx tag).bind (fun c => c.domainAt scope (scopeInst scope s.myCore.lcore s.cur.core) x.toNat)
  | none => none

/-- Whether the executing hardware context has an arrival pending at a domain. -/
def State.barPending (s : State) (d : Domain) : Bool := (s.me.pendingAt d.scope d.inst d.dom).isSome

/-- R332, R336: the tick of an acquire that synchronises with a release of a tick, or none while it may not jump so far
(R328). At .die and narrower no tick moves (R321). -/
def State.acquireTick (s : State) (wide pod : Bool) (t : Tick) : Option State :=
  if !wide then some s
  else
    let p := (s.core s.cur.core).ptick
    let q := s.podTickUp pod (tickMax p (t + 1))
    if s.mayJump p q then some (s.setTick s.cur.core q) else none

/-- R277: the wait for a phase: the state after its end, an acquire at the domain's scope, or none while it waits. -/
def State.barPast (s : State) (d : Domain) : Option State :=
  if s.barPending d then none else s.acquireTick (scopeWide d.scope) (scopePod d.scope) d.doneTick

/-- BARR (R277): a second arrival in a phase is a barrier fault. -/
def execBarr (_l : BitVec 4) (a : Reg) (scope : BitVec 3) (s : State) : Out :=
  s.base [a] [] (fun s =>
    match s.barDomain scope (s.x a) with
    | none => s.barrierFault scope (s.x a)
    | some d =>
      if s.barPending d then s.barrierFault scope (s.x a)
      else s.released (fun s => (s.arrive s.cur s.myTag d).done 4))

/-- BARW (R277). -/
def execBarw (_l : BitVec 4) (a : Reg) (scope : BitVec 3) (s : State) : Out :=
  s.base [a] [] (fun s =>
    match s.barDomain scope (s.x a) with
    | none => s.barrierFault scope (s.x a)
    | some d =>
      match s.barPast d with
      | some s1 => s1.done 4
      | none => .next s)

/-- The mark of a bar that stands in its wait, at the pc. -/
def State.barMark (s : State) (d : Domain) : Word × Pending :=
  (s.pc, { scope := d.scope, inst := d.inst, dom := d.dom, phase := d.phase })

/-- Whether the bar at the pc has made its arrival at a domain, whether or not the phase has ended since (R277; log 29). -/
def State.barStands (s : State) (d : Domain) : Bool :=
  match s.me.barWait with
  | some (pc, p) => pc == s.pc && p.scope == d.scope && p.inst == d.inst && p.dom == d.dom
  | none => false

/-- A bar waits for its phase, or goes on. -/
def State.barWaits (s : State) (d : Domain) : Out :=
  match s.barPast d with
  | some s1 => (s1.onMe (fun t => { t with barWait := none })).done 4
  | none => .next (s.onMe (fun t => { t with barWait := some (s.barMark d) }))

/-- BAR (R277): it arrives where no arrival is pending, and waits. Executed again while it stands in its wait, it only
waits. -/
def execBar (_l : BitVec 4) (a : Reg) (scope : BitVec 3) (s : State) : Out :=
  s.base [a] [] (fun s =>
    match s.barDomain scope (s.x a) with
    | none => s.barrierFault scope (s.x a)
    | some d =>
      if s.barPending d || s.barStands d then s.barWaits d
      else s.released (fun s =>
        let s1 := s.arrive s.cur s.myTag d
        match s1.barDomain scope (s1.x a) with
        | some d1 => s1.barWaits d1
        | none => s1.done 4))

end Sys2Proof.Machine
end

