-- ==== Sys2Proof/Machine/Digest.lean ====
section
/-! DEFINITION. SHA-384, which R454 and R455 name: the digest of a firmware image and of a report. The function is the
public standard's (log 14). -/

namespace Sys2Proof.Machine

/-- Round constants of SHA-384, rounds 0 to 19. -/
def shaKeys0 : List Word :=
  [0x428a2f98d728ae22#64, 0x7137449123ef65cd#64, 0xb5c0fbcfec4d3b2f#64, 0xe9b5dba58189dbbc#64,
   0x3956c25bf348b538#64, 0x59f111f1b605d019#64, 0x923f82a4af194f9b#64, 0xab1c5ed5da6d8118#64,
   0xd807aa98a3030242#64, 0x12835b0145706fbe#64, 0x243185be4ee4b28c#64, 0x550c7dc3d5ffb4e2#64,
   0x72be5d74f27b896f#64, 0x80deb1fe3b1696b1#64, 0x9bdc06a725c71235#64, 0xc19bf174cf692694#64,
   0xe49b69c19ef14ad2#64, 0xefbe4786384f25e3#64, 0x0fc19dc68b8cd5b5#64, 0x240ca1cc77ac9c65#64]

/-- Round constants of SHA-384, rounds 20 to 39. -/
def shaKeys1 : List Word :=
  [0x2de92c6f592b0275#64, 0x4a7484aa6ea6e483#64, 0x5cb0a9dcbd41fbd4#64, 0x76f988da831153b5#64,
   0x983e5152ee66dfab#64, 0xa831c66d2db43210#64, 0xb00327c898fb213f#64, 0xbf597fc7beef0ee4#64,
   0xc6e00bf33da88fc2#64, 0xd5a79147930aa725#64, 0x06ca6351e003826f#64, 0x142929670a0e6e70#64,
   0x27b70a8546d22ffc#64, 0x2e1b21385c26c926#64, 0x4d2c6dfc5ac42aed#64, 0x53380d139d95b3df#64,
   0x650a73548baf63de#64, 0x766a0abb3c77b2a8#64, 0x81c2c92e47edaee6#64, 0x92722c851482353b#64]

/-- Round constants of SHA-384, rounds 40 to 59. -/
def shaKeys2 : List Word :=
  [0xa2bfe8a14cf10364#64, 0xa81a664bbc423001#64, 0xc24b8b70d0f89791#64, 0xc76c51a30654be30#64,
   0xd192e819d6ef5218#64, 0xd69906245565a910#64, 0xf40e35855771202a#64, 0x106aa07032bbd1b8#64,
   0x19a4c116b8d2d0c8#64, 0x1e376c085141ab53#64, 0x2748774cdf8eeb99#64, 0x34b0bcb5e19b48a8#64,
   0x391c0cb3c5c95a63#64, 0x4ed8aa4ae3418acb#64, 0x5b9cca4f7763e373#64, 0x682e6ff3d6b2b8a3#64,
   0x748f82ee5defb2fc#64, 0x78a5636f43172f60#64, 0x84c87814a1f0ab72#64, 0x8cc702081a6439ec#64]

/-- Round constants of SHA-384, rounds 60 to 79. -/
def shaKeys3 : List Word :=
  [0x90befffa23631e28#64, 0xa4506cebde82bde9#64, 0xbef9a3f7b2c67915#64, 0xc67178f2e372532b#64,
   0xca273eceea26619c#64, 0xd186b8c721c0c207#64, 0xeada7dd6cde0eb1e#64, 0xf57d4f7fee6ed178#64,
   0x06f067aa72176fba#64, 0x0a637dc5a2c898a6#64, 0x113f9804bef90dae#64, 0x1b710b35131c471b#64,
   0x28db77f523047d84#64, 0x32caab7b40c72493#64, 0x3c9ebe0a15c9bebc#64, 0x431d67c49c100d4c#64,
   0x4cc5d4becb3e42b6#64, 0x597f299cfc657e2a#64, 0x5fcb6fab3ad6faec#64, 0x6c44198c4a475817#64]

/-- The round constants of SHA-384: the first 64 bits of the fractions of the cube roots of the first 80 primes. -/
def shaKeys : List Word := shaKeys0 ++ shaKeys1 ++ shaKeys2 ++ shaKeys3

/-- The eight working words of SHA-384. -/
structure ShaWords where
  a : Word
  b : Word
  c : Word
  d : Word
  e : Word
  f : Word
  g : Word
  h : Word
deriving DecidableEq, Repr

/-- The words that SHA-384 starts from: the first 64 bits of the fractions of the square roots of the ninth to the sixteenth
prime. -/
def shaStart : ShaWords where
  a := 0xcbbb9d5dc1059ed8#64
  b := 0x629a292a367cd507#64
  c := 0x9159015a3070dd17#64
  d := 0x152fecd8f70e5939#64
  e := 0x67332667ffc00b31#64
  f := 0x8eb44a8768581511#64
  g := 0xdb0c2e0d64f98fa7#64
  h := 0x47b5481dbefa4fa4#64

/-- The word of the message schedule that follows sixteen words. -/
def shaNext (ws : List Word) : Word :=
  let u := ws.getD 1 0
  let v := ws.getD 14 0
  (v.rotateRight 19 ^^^ v.rotateRight 61 ^^^ (v >>> 6)) + ws.getD 9 0
    + (u.rotateRight 1 ^^^ u.rotateRight 8 ^^^ (u >>> 7)) + ws.getD 0 0

/-- One round, with its constant and its word of the schedule. -/
def ShaWords.round (v : ShaWords) (k m : Word) : ShaWords :=
  let t1 := v.h + (v.e.rotateRight 14 ^^^ v.e.rotateRight 18 ^^^ v.e.rotateRight 41)
    + ((v.e &&& v.f) ^^^ (~~~v.e &&& v.g)) + k + m
  let t2 := (v.a.rotateRight 28 ^^^ v.a.rotateRight 34 ^^^ v.a.rotateRight 39)
    + ((v.a &&& v.b) ^^^ (v.a &&& v.c) ^^^ (v.b &&& v.c))
  { a := t1 + t2, b := v.a, c := v.b, d := v.c, e := v.d + t1, f := v.e, g := v.f, h := v.g }

/-- The rounds of a block, over the constants left, with the sixteen words of the schedule that come next. -/
def shaRounds : List Word → List Word → ShaWords → ShaWords
  | [], _, v => v
  | k :: ks, ws, v => shaRounds ks (ws.drop 1 ++ [shaNext ws]) (v.round k (ws.getD 0 0))

/-- The sum of two eights of words, word by word. -/
def ShaWords.add (v u : ShaWords) : ShaWords where
  a := v.a + u.a
  b := v.b + u.b
  c := v.c + u.c
  d := v.d + u.d
  e := v.e + u.e
  f := v.f + u.f
  g := v.g + u.g
  h := v.h + u.h

/-- Bytes as a word, the highest byte first. -/
def wordBE (bs : List Byte) : Word := BitVec.ofNat 64 (natLE bs.reverse)

/-- The sixteen words of a block of 128 bytes. -/
def shaBlock (bs : List Byte) : List Word := (List.range 16).map (fun i => wordBE ((bs.drop (8 * i)).take 8))

/-- The words after the blocks of a padded message, from its first. -/
def shaBlocks : Nat → List Byte → ShaWords → ShaWords
  | 0, _, v => v
  | n + 1, bs, v => shaBlocks n (bs.drop 128) (v.add (shaRounds shaKeys (shaBlock (bs.take 128)) v))

/-- A message padded to whole blocks: a byte 0x80, zeros, and its length in bits. -/
def shaPad (bs : List Byte) : List Byte :=
  bs ++ [0x80] ++ List.replicate ((239 - bs.length % 128) % 128) 0 ++ (bytesLE 16 (8 * bs.length)).reverse

/-- The SHA-384 of some bytes (R454, R455). -/
def sha384 (bs : List Byte) : List Byte :=
  let p := shaPad bs
  let v := shaBlocks (p.length / 128) p shaStart
  ([v.a, v.b, v.c, v.d, v.e, v.f].map (fun w => (bytesLE 8 w.toNat).reverse)).flatten

end Sys2Proof.Machine
end

