-- ==== Sys2Proof/Machine/Rings.lean ====
section
/-! DEFINITION. Rings (R278 to R282, R341, R358): their instructions, and the filling of a slot. -/

namespace Sys2Proof.Machine

/-- A ring-state fault: the ring in [3:0], the kind in [5:4] (R291). -/
def State.ringFault (s : State) (r kind : Nat) : Out := s.trap 49 (BitVec.ofNat 64 (r + 16 * kind))

/-- The local window (R315). -/
def localWindow : Nat := winBase

/-- The slots of a ring, in bytes. -/
def Ring.span (g : Ring) : Nat := g.slotsz * g.count

/-- F of a slot (R278). -/
def Ring.filled (g : Ring) (sl : Nat) : Nat := Tab.getD g.fills sl 0

/-- D of a slot (R278). -/
def Ring.released (g : Ring) (sl : Nat) : Nat := Tab.getD g.reads sl 0

/-- R279: whether a slot is filled and awaits release. -/
def Ring.isFilled (g : Ring) (sl : Nat) : Bool := g.filled sl == g.released sl + 1

/-- Replaces a ring of a core. -/
def Img.setRing (m : Img) (r : Nat) (g : Ring) : Img := { m with rings := Tab.set m.rings r g }

/-- The pointers of a ring written into its descriptor (R278). -/
def Img.showPointers (m : Img) (g : Ring) : Img :=
  { m with scratch := Memory.write m.scratch (g.desc + 8) (bytesLE 2 g.wptr ++ bytesLE 2 g.rptr) }

/-- The executing core's ring and its pointers as they stand after a change. -/
def State.putRing (s : State) (c r : Nat) (g : Ring) : State :=
  (s.onImg c (fun m => (m.setRing r g).showPointers g)).clearResv none (Loc.scratch c (g.desc + 8)).line

/-! rinit. -/

/-- The least offset of a list of checks that fails: the byte in error that a descriptor fault names (log 30). -/
def firstBad (l : List (Nat × Bool)) : Option Nat := leastOf ((l.filter (fun e => e.2)).map Prod.fst)

/-- The checks that a range of a structure is zero. -/
def mustBeZero (bs : List Byte) (off n : Nat) : List (Nat × Bool) :=
  match nonzeroIn bs off n with
  | some o => [(o, true)]
  | none => []

/-- R278: the first byte of a ring descriptor that is in error, by its fields, the partition, and the bytes that the
slots may not meet. -/
def ringError (bs : List Byte) (desc partition : Nat) (annex : Nat → Bool) : Option Nat :=
  let base := at_ bs 0 4
  let size := at_ bs 4 2
  let n := at_ bs 6 2
  let fin := base + size * n
  firstBad ([(0, decide (base % 128 ≠ 0) || decide (partition < fin) || (decide (base < desc + 32) && decide (desc < fin))
        || (List.range (size * n)).any (fun j => annex (base + j))),
      (4, decide (size = 0) || decide (size % 128 ≠ 0) || decide (24576 < size)),
      (6, decide (n = 0) || decide (256 < n))] ++ mustBeZero bs 12 20)

/-- R278: whether a pattern of its die, bound or to be run by a job, targets a ring of a core. -/
def State.ringBound (s : State) (tag lcore c r : Nat) : Bool :=
  let d := s.die (dieOf c)
  let aims (p : Pattern) : Bool := p.tag == tag && p.port == 16 + r && p.dst.toNat == lcore
  d.patterns.any aims || d.jobs.any (fun j => (j.pat.map aims).getD false)

/-- R278: a ring as rinit leaves it, for a task of a launch (R7). -/
def ringOf (bs : List Byte) (desc launch : Nat) : Ring where
  launch := launch
  desc := desc
  base := at_ bs 0 4
  slotsz := at_ bs 4 2
  count := at_ bs 6 2
  wptr := 0
  rptr := 0
  fills := []
  reads := []
  checked := []
  ticks := []

/-- RINIT (R278). -/
def execRinit (_l : BitVec 4) (a b : Reg) (s : State) : Out :=
  s.base [a, b] [] (fun s =>
    let r := field (s.x a) 0 4
    let xb := s.x b
    let c := s.cur.core
    let off := xb.toNat - localWindow
    if xb.toNat % 32 ≠ 0 then s.trap 4 xb
    else if xb.toNat < localWindow ∨ s.partition c < off + 32 then s.trap 5 xb
    else
      s.inOrder (fun s => (s.readRecord xb 32 32).run (fun bs s =>
        match ringError bs off (s.partition c) (fun j => s.myCore.inAnnex c j) with
        | some o => s.trap descFault (xb + BitVec.ofNat 64 o)
        | none =>
          if s.ringBound s.myTag s.myCore.lcore c r then s.ringFault r 1
          else s.released (fun s => (s.putRing c r (ringOf bs off s.myLaunch)).done 4))))

/-! Filling. -/

/-- R279: the slot that a filler would fill next, while it may: the ring's write slot is not filled and awaiting
release. -/
def Ring.room (g : Ring) : Option Nat := if g.isFilled g.wptr then none else some g.wptr

/-- R279: the fill of the write slot of a ring of a core: its bytes, its count, the write pointer and its tick, as one
action. -/
def State.fillSlot (s : State) (c r : Nat) (g : Ring) (data : List Byte) (tick : Tick) : State :=
  let off := g.base + g.slotsz * g.wptr
  let g' : Ring :=
    { g with fills := Tab.set g.fills g.wptr (g.filled g.wptr + 1), ticks := Tab.set g.ticks g.wptr tick,
             wptr := (g.wptr + 1) % g.count }
  let s1 := s.putScratch c off data
  let s2 := (List.range (data.length / 128 + 1)).foldl (fun s j =>
    if 128 * j < data.length then s.clearResv none (Loc.scratch c (off + 128 * j)).line else s) s1
  s2.putRing c r g'

/-! rawait and rrel. -/

/-- RAWAIT (R280): an acquire that synchronises with the slot's fill. -/
def execRawait (l : BitVec 4) (d a : Reg) (s : State) : Out :=
  s.base [a] [d] (fun s =>
    let r := field (s.x a) 0 4
    match Tab.get? s.myImg.rings r with
    | none => s.ringFault r 2
    | some g =>
      if g.isFilled g.rptr then
        match s.acquireTick true false (Tab.getD g.ticks g.rptr 0) with
        | some s1 => s1.doneWithLong l d (BitVec.ofNat 64 (localWindow + g.base + g.slotsz * g.rptr))
        | none => .next s
      else .next s)

/-- R281: the slot at the read pointer released. -/
def Ring.release (g : Ring) : Ring :=
  { g with reads := Tab.set g.reads g.rptr (g.released g.rptr + 1), checked := g.checked.filter (fun k => k != g.rptr),
           rptr := (g.rptr + 1) % g.count }

/-- RREL (R281). -/
def execRrel (_l : BitVec 4) (a : Reg) (s : State) : Out :=
  s.base [a] [] (fun s =>
    let r := field (s.x a) 0 4
    match Tab.get? s.myImg.rings r with
    | none => s.ringFault r 2
    | some g =>
      if g.isFilled g.rptr then s.released (fun s => (s.putRing s.cur.core r g.release).done 4)
      else s.ringFault r 3)

end Sys2Proof.Machine
end

