-- ==== Sys2Proof/Machine/Streams.lean ====
section
/-! DEFINITION. Patterns and ports (R283, R284, R287, R340 to R346, R352): sbind, the start of a pattern, and the
delivery of a tile; how engines access memory and report completion (R336, R392). -/

namespace Sys2Proof.Machine

/-! Engine accesses. -/

/-- What stands in the way of an engine's access of a range. -/
inductive EngineStop where
  /-- a page fault at an address -/
  | page (va : Nat)
  /-- a fault that cannot be serviced -/
  | dead
  /-- uncorrectable data in the line at a physical address (R438) -/
  | bad (pa : Nat)
deriving DecidableEq, Repr

/-- The first stop of an engine's access of n bytes, if it meets one. -/
def State.engineStop (s : State) (tag : Nat) (kind : AccKind) (va n : Nat) : Option EngineStop :=
  (pieces va n).findSome? (fun e =>
    match s.enginePlace tag kind (BitVec.ofNat 64 e.1) with
    | some (.mem pa _ _) => if kind = .load ∧ s.isBad pa then some (.bad (pa / 128 * 128)) else none
    | _ => if s.enginePageFault tag kind e.1 then some (.page e.1) else some .dead)

/-- What an engine's access comes to. -/
inductive Eng (α : Type) where
  | ok (a : α) (p : Tick) (s : State)
  /-- it waits: parked by a page fault, or for the horizon -/
  | wait (s : State)
  /-- it ends the work FAULTED -/
  | dead (s : State)

/-- One engine access after another. -/
def Eng.bind {α β : Type} (r : Eng α) (f : α → Tick → State → Eng β) : Eng β :=
  match r with
  | .ok a p s => f a p s
  | .wait s => .wait s
  | .dead s => .dead s

/-- R346, R392, R440: what a stop means for a unit of a die: it parks, or it ends; uncorrectable data faults its
context. -/
def State.engineHalt {α : Type} (s : State) (die tag : Nat) (who : Agent) (store : Bool) (e : EngineStop) : Eng α :=
  match e with
  | .page va => .wait (s.park die { tag := tag, va := BitVec.ofNat 64 va, store := store, user := false, who := who })
  | .dead => .dead s
  | .bad pa => .dead (s.post (.contextFault tag 2 die 0xFFFFF (BitVec.ofNat 64 pa)))

/-- R328, R336: an engine's read of a range for a unit. -/
def State.engRead (s : State) (die tag : Nat) (who : Agent) (p : Tick) (va n : Nat) : Eng (List Byte) :=
  match s.engineStop tag .load va n with
  | some e => s.engineHalt die tag who false e
  | none =>
    match s.engineRead die tag p va n with
    | some (bs, q, s1) => if s.mayJump p q then .ok bs q s1 else .wait s
    | none => .dead s

/-- R328, R336: an engine's write of a range for a unit. -/
def State.engWrite (s : State) (die tag : Nat) (who : Agent) (p : Tick) (va : Nat) (data : List Byte) : Eng Unit :=
  match s.engineStop tag .store va data.length with
  | some e => s.engineHalt die tag who true e
  | none =>
    match s.engineWrite die tag p va data with
    | some (q, s1) => if s.mayJump p q then .ok () q s1 else .wait s
    | none => .dead s

/-- R336: a write of one dword at its home. -/
def State.engineHome (s : State) (die tag : Nat) (p : Tick) (va : Nat) (data : List Byte) : Option (Tick × State) :=
  (pieces va data.length).foldl (fun a e =>
    match a with
    | none => none
    | some (p, s) =>
      match s.enginePlace tag .store (BitVec.ofNat 64 e.1) with
      | some (.mem pa _ g) =>
        let r := s.writePhys die p .home (if g then 0 else tag) pa ((data.drop (e.1 - va)).take e.2)
        some (r.1, r.2.clearResv none (.phys (pa / 128 * 128)))
      | _ => none) (some (p, s))

/-- R328, R336: an engine's write of a dword at its home, for a unit. -/
def State.engWriteHome (s : State) (die tag : Nat) (who : Agent) (p : Tick) (va : Nat) (data : List Byte) : Eng Unit :=
  match s.engineStop tag .store va data.length with
  | some e => s.engineHalt die tag who true e
  | none =>
    match s.engineHome die tag p va data with
    | some (q, s1) => if s.mayJump p q then .ok () q s1 else .wait s
    | none => .dead s

/-- R287, R336, R343: the done dword, or a progress post, of a unit with a declared scope: a page fault is serviced, and
a write that cannot be serviced is dropped. At .mod and wider it is made at its home. -/
def State.donePost (s : State) (die tag : Nat) (who : Agent) (p : Tick) (scope : BitVec 3) (va v : Word) : Eng Unit :=
  if va = 0 then .ok () p s
  else
    match (if scopeWide scope then s.engWriteHome die tag who p va.toNat (bytesLE 8 v.toNat)
        else s.engWrite die tag who p va.toNat (bytesLE 8 v.toNat)) with
    | .dead s => .ok () p s
    | r => r

/-! Statuses (R287). -/

/-- DONE. -/
def jobDONE : Nat := 0
/-- OUT_OF_FOOTPRINT. -/
def jobOUT : Nat := 1
/-- FAULTED. -/
def jobFAULTED : Nat := 2
/-- RING_UNSET. -/
def jobUNSET : Nat := 3
/-- GROUP_MISMATCH. -/
def jobMISMATCH : Nat := 4

/-- A done dword (R287). -/
def doneWord (status : Nat) : Word := BitVec.ofNat 64 (2 ^ 63 + status)

/-- Whether some image of a context is resident on a die (R399). -/
def State.residentOn (s : State) (tag die : Nat) : Bool := (s.die die).clusters.any (fun e => e.2.tag == tag)

/-- The quads of a die where a job waits, to which its streamers are asked again. -/
def State.askStreamers (s : State) (die : Nat) : State :=
  (((s.die die).jobs.filter (fun j => !j.running && j.op != 3)).map Job.quad).dedup.foldl
    (fun s q => s.post (.jobStart die q)) s

/-- Replaces a job of a die. -/
def Die.setJob (d : Die) (j : Job) : Die :=
  { d with jobs := d.jobs.map (fun k => if k.tag = j.tag ∧ k.num = j.num then j else k) }

/-- The parameters of a collective: kind, format, operation, group and count (R285). -/
structure Collective where
  kind : Nat
  fmt : Nat
  op : Nat
  group : Nat
  count : Nat
deriving DecidableEq, Repr

/-- The parameters of a collective's card. -/
def Job.collective (j : Job) : Collective where
  kind := j.param.toNat % 256
  fmt := j.param.toNat / 2 ^ 8 % 256
  op := j.param.toNat / 2 ^ 16 % 256
  group := j.param.toNat / 2 ^ 32 % 2 ^ 32
  count := j.param.toNat / 2 ^ 64

/-- Whether two jobs are of one round of one group (R351). -/
def Job.sameRound (j k : Job) : Bool :=
  k.tag == j.tag && k.op == 3 && k.collective.group == j.collective.group && k.round == j.round

/-- R351: the last job of a collective's round has completed: its group goes on to the next round. -/
def State.roundOver (s : State) (j : Job) : State :=
  if j.op ≠ 3 ∨ s.dies.any (fun d => d.2.jobs.any j.sameRound) then s
  else
    (s.onCtx j.tag (fun c => { c with groups := Tab.modify c.groups j.collective.group (fun q =>
      { q with rounds := j.round + 1 }) })).post (.collectiveRound j.tag j.collective.group)

/-- R287, R336, R349: a job's done dword is written, its tick kept, its footprint released, and the jobs that depended on it
may start. While the dword may not be written, the job is over but for it. -/
def State.closeJob (s : State) (die : Nat) (j : Job) (status : Nat) : State :=
  match s.donePost die j.tag (.job j.num) j.tick j.scope j.done (doneWord status) with
  | .ok _ t s1 =>
    let s2 := s1.onDie die (fun d => { d with
      jobs := d.jobs.filter (fun k => k.tag != j.tag || k.num != j.num)
      parked := d.parked.filter (fun q => q.tag != j.tag || q.who != .job j.num) })
    ((s2.onCtx j.tag (fun c => { c with jobDone := Tab.set c.jobDone j.num t })).roundOver j).askStreamers die
  | .wait s1 => s1.onDie die (fun d => d.setJob { j with ending := some status })
  | .dead s1 => s1

/-- A job of a die ends with a status, at a tick. -/
def State.finishJob (s : State) (die tag num status : Nat) (p : Tick) : State :=
  match (s.die die).jobs.find? (fun j => j.tag == tag && j.num == num) with
  | none => s
  | some j => s.closeJob die { j with tick := p } status

/-! Patterns. -/

/-- The size of an element (R283). -/
def Pattern.size (p : Pattern) : Nat := 2 ^ p.esz

/-- The number of elements (R342). -/
def Pattern.total (p : Pattern) : Nat := p.ext.foldl (· * ·) 1

/-- The indices of element n, dimension 0 innermost (R342). -/
def indices : List Nat → Nat → List Nat
  | [], _ => []
  | e :: l, n => n % e :: indices l (n / e)

/-- R342: the coordinates of element n. -/
def Pattern.coords (p : Pattern) (n : Nat) : List Int := (indices p.ext n).zipWith (fun i o => o + (i : Int)) p.org

/-- R342: whether element n lies inside the tensor. -/
def Pattern.inside (p : Pattern) (n : Nat) : Bool :=
  ((p.coords n).zip p.bound).all (fun e => decide (0 ≤ e.1) && decide (e.1 < (e.2 : Int)))

/-- R342: the address of an inside element. -/
def Pattern.addr (p : Pattern) (n : Nat) : Word :=
  p.src + BitVec.ofInt 64 (((p.coords n).zip p.stride).foldl (fun a e => a + e.1 * e.2) 0)

/-- A signed field. -/
def signedAt (bs : List Byte) (off n : Nat) : Int := (BitVec.ofNat (8 * n) (at_ bs off n)).toInt

/-- R283, R284, R342: the byte of a pattern descriptor that is in error. `dstOk` says that the port is granted, or that a
ring port's core may be named. -/
def patternError (bs : List Byte) (port vl : Nat) (dstOk : Bool) : Option Nat :=
  let dims := at_ bs 17 1
  let d := max 1 (min dims 5)
  let ext (k : Nat) : Nat := if k = 0 then vl else at_ bs (32 + 4 * k) 4
  let n := (List.range d).foldl (fun a k => a * ext k) 1
  firstBad ((if 16 ≤ port then mustBeZero bs 12 4 else [])
    ++ [(8, !dstOk), (16, decide (3 < at_ bs 16 1)), (17, decide (dims = 0) || decide (5 < dims)),
        (18, decide (at_ bs 18 1 < 2) || decide (6 < at_ bs 18 1)), (32, decide (vl = 0) || decide (2 ^ 40 < n))]
    ++ (List.range 4).map (fun k => (36 + 4 * k, decide (k + 1 < d) && decide (ext (k + 1) = 0)))
    ++ mustBeZero bs 19 5 ++ mustBeZero bs 52 4 ++ mustBeZero bs 76 4 ++ mustBeZero bs 140 4 ++ mustBeZero bs 152 8)

/-- R283, R284: a pattern as it is captured. -/
def patternOf (bs : List Byte) (tag lcore h port vl : Nat) (tick : Tick) (job : Option Nat) : Pattern :=
  let d := at_ bs 17 1
  { num := 0, tag := tag, lcore := lcore, h := h, port := port
    src := BitVec.ofNat 64 (at_ bs 0 8)
    dst := BitVec.ofNat 64 (at_ bs 8 8)
    esz := at_ bs 16 1
    dims := d
    scope := BitVec.ofNat 3 (at_ bs 18 1)
    fill := BitVec.ofNat 64 (at_ bs 24 8)
    ext := (List.range d).map (fun k => if k = 0 then vl else at_ bs (32 + 4 * k) 4)
    bound := (List.range d).map (fun k => at_ bs (56 + 4 * k) 4)
    stride := (List.range d).map (fun k => signedAt bs (80 + 8 * k) 8)
    org := (List.range d).map (fun k => signedAt bs (120 + 4 * k) 4)
    done := BitVec.ofNat 64 (at_ bs 144 8)
    next := 0, elem := 0, buf := [], posting := false, ending := none, bytes := 0, running := false, tick := tick, job := job, regionErr := false }

/-- R284, R396: whether a port may be bound by a context on a die: a granted fabric port, or a ring port that names a core
of the die. -/
def State.portOk (s : State) (tag die port dst : Nat) : Bool :=
  match s.ctx tag with
  | none => false
  | some c =>
    if port < 16 then (c.routes[port]?.map Route.granted).getD false
    else
      match c.coreOf dst with
      | some q => dieOf q == die
      | none => false

/-- R284, R342: a pattern descriptor read and checked by an instruction. -/
def State.readPattern (s : State) (va : Word) (port : Nat) (job : Option Nat) : Acc Pattern :=
  (s.readRecord va 32 160).bind (fun bs s =>
    let c := s.cur.core
    let vl := s.me.vl.toNat
    match patternError bs port vl (s.portOk s.myTag (dieOf c) port (at_ bs 8 8 % 2 ^ 32)) with
    | some o => .fail descFault (va + BitVec.ofNat 64 o) s
    | none => .ok (patternOf bs s.myTag s.myCore.lcore s.cur.h port vl s.myCore.ptick job) s)

/-- The patterns of a port, in binding order. -/
def Die.portQueue (d : Die) (tag lcore port : Nat) : List Pattern :=
  d.patterns.filter (fun p => p.tag == tag && p.lcore == lcore && p.port == port)

/-- The physical core by which a port's patterns are named. -/
def State.portCore (s : State) (tag lcore : Nat) : Nat := ((s.ctx tag).bind (fun c => c.coreOf lcore)).getD 0

/-- A pattern joins its port's queue (R284), with a number of its own. -/
def State.bindPattern (s : State) (die : Nat) (p : Pattern) : State :=
  (s.onDie die (fun d =>
    { d with patterns := d.patterns ++ [{ p with num := d.nextPattern }], nextPattern := d.nextPattern + 1 })).post (.patternStart (s.portCore p.tag p.lcore) p.port)

/-- SBIND (R284): it waits while four patterns are queued at the port. -/
def execSbind (_l : BitVec 4) (a b : Reg) (s : State) : Out :=
  s.base [a, b] [] (fun s =>
    let port := field (s.x a) 0 5
    let die := dieOf s.cur.core
    let queued := ((s.die die).portQueue s.myTag s.myCore.lcore port).filter (fun p => !p.running)
    if 4 ≤ queued.length then .next s
    else
      s.inOrder (fun s => (s.readPattern (s.x b) port none).run (fun p s =>
        s.released (fun s => (s.bindPattern die { p with tick := s.myCore.ptick }).done 4))))

/-! The stream dispatcher and the streamer. -/

/-- Whether two patterns fill one ring (R341). -/
def Pattern.sameRing (p q : Pattern) : Bool := decide (16 ≤ p.port) && p.port == q.port && p.tag == q.tag && p.dst == q.dst

/-- R358: whether an open pass's inbox holds the lock of the ring that a pattern fills. -/
def Ctx.inboxLock (c : Ctx) (p : Pattern) : Bool :=
  c.passes.any (fun e => e.2.ring == p.port - 16 && e.2.owners.any (fun u => u.lcore == p.dst.toNat))

/-- Whether two patterns are of one port. -/
def Pattern.samePort (p q : Pattern) : Bool := p.tag == q.tag && p.lcore == q.lcore && p.port == q.port

/-- R340, R341, R352: whether a pattern of a die may start: it is the oldest of a free port, nothing else fills its ring,
no pattern offered its ring before, and its context is resident. The patterns of a die stand in the order in which their
ports offered them. -/
def State.mayStart (s : State) (die : Nat) (p : Pattern) : Bool :=
  let l := (s.die die).patterns
  let head (q : Pattern) : Bool := l.find? (fun r => r.samePort q) == some q
  !p.running && head p && s.residentOn p.tag die &&
    (p.port < 16 ||
      (!((s.ctx p.tag).map (fun c => c.inboxLock p)).getD false
        && !(l.any (fun q => q.running && q.sameRing p))
        && l.find? (fun q => q.sameRing p && head q) == some p))

/-- Replaces a pattern of a die, by its number. -/
def Die.setPattern (d : Die) (p : Pattern) : Die :=
  { d with patterns := d.patterns.map (fun r => if r.num = p.num then p else r) }

/-- A pattern as it stands now. -/
def State.keepPattern (s : State) (die : Nat) (p : Pattern) : State := s.onDie die (fun d => d.setPattern p)

/-- R340: a pattern leaves its die; the rest of its port's queue is offered anew, after what other ports have offered. -/
def Die.dropPattern (d : Die) (p : Pattern) : Die :=
  let l := d.patterns.filter (fun q => q.num != p.num)
  { d with patterns := l.filter (fun q => !q.samePort p) ++ l.filter (fun q => q.samePort p)
           parked := d.parked.filter (fun q => q.tag != p.tag || q.who != .pattern p.lcore p.port) }

/-- R287, R343: a pattern ends with a status, its done dword written; a job whose pattern it is ends with it. While the
dword may not be written, the pattern is over but for it (R328). -/
def State.endPattern (s : State) (die : Nat) (p : Pattern) (status : Nat) : State :=
  match s.donePost die p.tag (.pattern p.lcore p.port) p.tick p.scope p.done (doneWord status) with
  | .ok _ t s1 =>
    let s2 := (s1.onDie die (fun d => d.dropPattern p)).post (.patternStart (s.portCore p.tag p.lcore) p.port)
    match p.job with
    | some n => s2.finishJob die p.tag n status t
    | none => s2
  | .wait s1 => s1.keepPattern die { p with running := true, posting := false, ending := some status }
  | .dead s1 => s1

/-- The ring that a pattern fills, and its core, while that core is resident (R405). -/
def State.targetRing (s : State) (p : Pattern) : Option (Nat × Option Ring) :=
  (s.residentCore p.tag p.dst.toNat).map (fun c => (c, Tab.get? (s.img c).rings (p.port - 16)))

/-- R341: a pattern starts; one whose ring has not been initialised ends with RING_UNSET. -/
def State.startPattern (s : State) (die : Nat) (p : Pattern) : State :=
  let go : State := (s.keepPattern die { p with running := true }).post
    (.tileDeliver (s.portCore p.tag p.lcore) p.port)
  if p.port < 16 then go
  else
    match s.targetRing p with
    | none => s
    | some (_, none) => s.endPattern die p jobUNSET
    | some (_, some _) => go

/-- The ports, by context and logical core, that go by a physical core and port: a saved image's still go by the core where it
lay last (R340). -/
def State.portsAt (s : State) (core port : Nat) : List (Nat × Nat) :=
  (((s.die (dieOf core)).patterns.filter (fun p => p.port == port && s.portCore p.tag p.lcore == core)).map (fun p =>
    (p.tag, p.lcore))).dedup

/-- The oldest pattern of a port that may start does (R341). -/
def State.startPort (s : State) (die port : Nat) (k : Nat × Nat) : State :=
  match ((s.die die).portQueue k.1 k.2 port).find? (s.mayStart die) with
  | some p => s.startPattern die p
  | none => s

/-- PATTERN_START (R340, R341): the oldest queued pattern of a core's port. The core is the one where the binder's image
lies, or lay last; the ports of different cores are distinct, and each starts its own. -/
def execPatternStart (core port : Nat) (s : State) : Out :=
  .next ((s.portsAt core port).foldl (fun s k => s.startPort (dieOf core) port k) s)

/-- R343: the elements of a tile of a pattern whose ring's slots are of a size. -/
def Pattern.tileLen (p : Pattern) (slotsz : Nat) : Nat := (if p.port < 16 then 4096 else slotsz) / p.size

/-- Whether a job's access of n bytes lies in one of its regions (R347); one that spans two of them lies in none (log 75). -/
def inRegions (l : List Region) (a n : Nat) : Bool := l.any (fun r => decide (r.base.toNat ≤ a) && decide (a + n ≤ r.base.toNat + r.len))

/-- The job that a pattern is part of. -/
def State.jobOf (s : State) (die : Nat) (p : Pattern) : Option Job :=
  p.job.bind (fun n => (s.die die).jobs.find? (fun j => j.tag == p.tag && j.num == n))

/-- One element read: its bytes and whether its access was suppressed (R285, R342). -/
def State.readElem (s : State) (die : Nat) (p : Pattern) (n : Nat) : Eng (List Byte × Bool) :=
  if !p.inside n then .ok (bytesLE p.size p.fill.toNat, false) p.tick s
  else
    let a := (p.addr n).toNat
    if a % p.size ≠ 0 then .dead s
    else
      let out := match s.jobOf die p with
        | some j => !inRegions j.reads a p.size
        | none => false
      if out then
        let r := s.draw
        .ok (bytesLE p.size r.1.toNat, true) p.tick r.2
      else
        (s.engRead die p.tag (.pattern p.lcore p.port) p.tick a p.size).bind (fun bs q s => .ok (bs, false) q s)

/-- How far a streamer came with a tile: all of it, or up to an access that must wait, or that cannot be made. -/
inductive TileRun where
  | ok (p : Pattern) (s : State)
  | wait (p : Pattern) (s : State)
  | dead (p : Pattern) (s : State)

/-- The elements of a tile read in order, from where the pattern stands: `first` is the number of the tile's first, `fuel`
the elements left. What has been read is kept, and not read again (R328). -/
def State.readTile (s : State) (die first : Nat) : Nat → Pattern → TileRun
  | 0, p => .ok p s
  | fuel + 1, p =>
    match s.readElem die p (first + p.buf.length / p.size) with
    | .ok a t s => s.readTile die first fuel { p with buf := p.buf ++ a.1, tick := t, regionErr := p.regionErr || a.2 }
    | .wait s => .wait p s
    | .dead s => .dead p s

/-- R345: a tile written to a local fabric port at an address, element by element, from where the pattern stands; a job's
element outside its write regions is suppressed, and a misaligned element ends the pattern (R346). -/
def State.writeTile (s : State) (die a : Nat) : Nat → Pattern → TileRun
  | 0, p => .ok p s
  | fuel + 1, p =>
    let at' := (a + p.elem * p.size) % 2 ^ 64
    let out := match s.jobOf die p with
      | some j => !inRegions j.writes at' p.size
      | none => false
    if out then s.writeTile die a fuel { p with elem := p.elem + 1, regionErr := true }
    else if at' % p.size ≠ 0 then .dead p s
    else
      match s.engWrite die p.tag (.pattern p.lcore p.port) p.tick at' ((p.buf.drop (p.elem * p.size)).take p.size) with
      | .ok _ t s => s.writeTile die a fuel { p with elem := p.elem + 1, tick := t }
      | .wait s => .wait p s
      | .dead s => .dead p s

/-- The way around one dimension of the torus. -/
def torusSpan (n a b : Nat) : Nat := min ((a + n - b) % n) ((b + n - a) % n)

/-- R449: the distance of two coordinates of the torus: the steps along its three dimensions (log 56). -/
def torusDistance (a b : Nat × Nat × Nat) : Nat :=
  torusSpan 64 a.1 b.1 + torusSpan 64 a.2.1 b.2.1 + torusSpan 192 a.2.2 b.2.2

/-- R441, R449: the pod-link port by which a flit bound for a coordinate leaves: present in the pod map, let by a mask and not
down, its far end nearest the coordinate, the lower port in a tie; none where no port is left. -/
def State.portToward (s : State) (mask : Nat → Bool) (dest : Nat × Nat × Nat) : Option Nat :=
  match s.podmap with
  | none => none
  | some m =>
    ((m.links.filter (fun e => mask e.1 && !s.linksDown.contains e.1)).foldl (fun (a : Option (Nat × Nat)) e =>
      let d := torusDistance e.2 dest
      match a with
      | none => some (e.1, d)
      | some b => if d < b.2 then some (e.1, d) else a) none).map Prod.fst

/-- R449: the port by which a flit of a route leaves: among those of the route's mask. -/
def State.portFor (s : State) (r : Route) : Option Nat := s.portToward r.links.getLsbD (r.x, r.y, r.z)

/-- R449: this module's coordinate, where a pod map is loaded. -/
def State.selfCoord (s : State) : Nat × Nat × Nat := (s.podmap.map PodMap.self).getD (0, 0, 0)

/-- R345, R397, R441: a tile of k elements sent to another module, within a job's write regions (R347). Its writes are
performed there before the pattern goes on (R336); whether that module accepts them is a free value, and a refusal ends the
pattern FAULTED (log 56). -/
def State.sendTile (s : State) (die a k : Nat) (p : Pattern) : TileRun :=
  match (s.ctx p.tag).bind (fun c => c.routes[p.port]?) with
  | none => .dead p s
  | some r =>
    match s.portFor r with
    | none => .dead p s
    | some port =>
      if a % p.size ≠ 0 then .dead p s
      else
        let ok (i : Nat) : Bool := match s.jobOf die p with
          | some j => inRegions j.writes (a + i * p.size) p.size
          | none => true
        let w := (List.range k).filterMap (fun i =>
          if ok i then
            some ({ port := port, src := s.selfCoord, srcTag := p.tag, x := r.x, y := r.y, z := r.z, tag := r.tag, va := BitVec.ofNat 64 (a + i * p.size),
                    data := (p.buf.drop (i * p.size)).take p.size } : PodWrite)
          else none)
        let s1 : State := { s with podOut := s.podOut ++ w, fresh := s.fresh + 1 }
        let p1 : Pattern := { p with elem := k, regionErr := p.regionErr || decide (w.length < k) }
        if Config.podAccepts s.fresh then .ok p1 s1 else .dead p1 { s with fresh := s.fresh + 1 }

/-- R343: the progress of a pattern whose tile has been written is posted; after the last tile it completes. -/
def State.postTile (s : State) (die : Nat) (p : Pattern) : State :=
  match s.donePost die p.tag (.pattern p.lcore p.port) p.tick p.scope p.done (BitVec.ofNat 64 (p.bytes % 2 ^ 48)) with
  | .ok _ t s1 =>
    let p1 : Pattern := { p with posting := false, tick := t }
    if p.total * p.size ≤ p.bytes then s1.endPattern die p1 (if p1.regionErr then jobOUT else jobDONE)
    else (s1.keepPattern die p1).post (.tileDeliver (s.portCore p.tag p.lcore) p.port)
  | .wait s1 => s1.keepPattern die p
  | .dead s1 => s1

/-- R343: a tile has been written. -/
def State.tileDone (s : State) (die : Nat) (p : Pattern) : State :=
  s.postTile die { p with next := p.next + 1, elem := 0, bytes := p.bytes + p.buf.length, buf := [], posting := true }

/-- R343 to R346: one tile of a running pattern, of k elements from `first` on, to a ring of a core or to a fabric port. -/
def State.deliverTile (s : State) (die : Nat) (p : Pattern) (dest : Option (Nat × Ring)) (first k : Nat) : State :=
  match s.readTile die first (k - p.buf.length / p.size) p with
  | .wait p1 s1 => s1.keepPattern die p1
  | .dead p1 s1 => s1.endPattern die p1 jobFAULTED
  | .ok p1 s1 =>
    let a := (p.dst.toNat + first * p.size) % 2 ^ 64
    match dest with
    | some (core, g) => (s1.fillSlot core (p.port - 16) g p1.buf p1.tick).tileDone die p1
    | none =>
      match (if p.port < 8 then s1.writeTile die a (k - p1.elem) p1 else s1.sendTile die a k p1) with
      | .wait p2 s2 => s2.keepPattern die p2
      | .dead p2 s2 => s2.endPattern die p2 jobFAULTED
      | .ok p2 s2 => s2.tileDone die p2

/-- R343 to R346: a running pattern goes on: its done dword or its progress is written, or its next tile. A tile for a ring
waits for the core's image and for its slot (R344, R405); a pattern whose ring has ended with its kernel (R7) ends with
RING_UNSET (log 70). -/
def State.deliver (s : State) (die : Nat) (p : Pattern) : State :=
  match p.ending with
  | some status => s.endPattern die p status
  | none =>
    if p.posting then s.postTile die p
    else
      let tile (dest : Option (Nat × Ring)) (len : Nat) : State :=
        s.deliverTile die p dest (p.next * len) (min len (p.total - p.next * len))
      if p.port < 16 then tile none (p.tileLen 0)
      else
        match s.targetRing p with
        | some (core, some g) => if g.room.isSome then tile (some (core, g)) (p.tileLen g.slotsz) else s
        | some (_, none) => s.endPattern die p jobUNSET
        | none => s

/-- A port's running pattern goes on, while its context is resident on the die and no fault parks it (R352). -/
def State.deliverPort (s : State) (die port : Nat) (k : Nat × Nat) : State :=
  match ((s.die die).portQueue k.1 k.2 port).find? (fun p =>
      p.running && s.residentOn p.tag die && !s.isParked die p.tag (.pattern p.lcore p.port)) with
  | some p => s.deliver die p
  | none => s

/-- TILE_DELIVER (R343 to R346, R352): the next tile of a core's running pattern; one that waits holds up no other port
(R344). -/
def execTileDeliver (core port : Nat) (s : State) : Out :=
  .next ((s.portsAt core port).foldl (fun s k => s.deliverPort (dieOf core) port k) s)

end Sys2Proof.Machine
end

