-- ==== Sys2Proof/Machine/Engines.lean ====
section
/-! DEFINITION. Job cards, footprints and collectives (R285 to R288, R347 to R351), swait, and the service of engine
faults (R392). -/

namespace Sys2Proof.Machine

/-! The card. -/

/-- Region k of a card, from an offset (R285). -/
def regionAt (bs : List Byte) (off k : Nat) : Region where
  base := BitVec.ofNat 64 (at_ bs (off + 16 * k) 8)
  len := at_ bs (off + 16 * k + 8) 8

/-- The checks that the regions beyond a count are zero. -/
def spareRegions (bs : List Byte) (off n : Nat) : List (Nat × Bool) :=
  mustBeZero bs (off + 16 * min n 4) (64 - 16 * min n 4)

/-- The formats of a collective (R288). -/
def collectiveFmt (c : Nat) : Bool := [0x02, 0x03, 0x06, 0x07, 0x09, 0x0A, 0x0B].contains c

/-- R285, R288: the checks of the parameters of an op. `groupOk` says that a collective group may be joined. -/
def paramChecks (bs : List Byte) (op : Nat) (groupOk : Nat → Bool) : List (Nat × Bool) :=
  match op with
  | 0 => mustBeZero bs 16 16 ++ [(136, decide (at_ bs 72 8 ≠ at_ bs 136 8))]
  | 1 => mustBeZero bs 24 8
  | 2 => (24, decide (31 < at_ bs 24 1)) :: mustBeZero bs 25 7
  | _ =>
    [(16, decide (2 < at_ bs 16 1)), (17, !collectiveFmt (at_ bs 17 1)), (18, decide (2 < at_ bs 18 1)),
     (19, decide (at_ bs 19 1 ≠ 0)), (20, !groupOk (at_ bs 20 4))]

/-- R285, R286, R288: the byte of a job card that is in error. -/
def cardError (bs : List Byte) (collective : Bool) (groupOk : Nat → Bool) : Option Nat :=
  let op := at_ bs 0 1
  if (if collective then op ≠ 3 else 3 ≤ op) then some 0
  else
    firstBad ([(1, decide (4 < at_ bs 1 1)), (2, decide (4 < at_ bs 2 1)),
        (3, decide (at_ bs 3 1 < 2) || decide (6 < at_ bs 3 1))]
      ++ mustBeZero bs 4 4 ++ mustBeZero bs 32 32 ++ spareRegions bs 64 (at_ bs 1 1) ++ spareRegions bs 128 (at_ bs 2 1)
      ++ paramChecks bs op groupOk)

/-- R349: whether two regions overlap. -/
def Region.meets (a b : Region) : Bool :=
  decide (0 < a.len) && decide (0 < b.len) && decide (a.base.toNat < b.base.toNat + b.len)
    && decide (b.base.toNat < a.base.toNat + a.len)

/-- Whether two lists of regions overlap. -/
def regionsMeet (l m : List Region) : Bool := l.any (fun a => m.any (fun b => a.meets b))

/-- R349: whether a later job depends on an earlier one. -/
def Job.dependsOn (b a : Job) : Bool :=
  a.tag == b.tag && (regionsMeet a.writes b.reads || regionsMeet a.reads b.writes || regionsMeet a.writes b.writes)

/-- A job as its card is captured (R285). -/
def jobOfCard (bs : List Byte) (num tag lcore h quad round rank : Nat) (tick : Tick) (pat : Option Pattern) : Job where
  num := num
  tag := tag
  lcore := lcore
  h := h
  quad := quad
  op := at_ bs 0 1
  scope := BitVec.ofNat 3 (at_ bs 3 1)
  done := BitVec.ofNat 64 (at_ bs 8 8)
  param := BitVec.ofNat 128 (at_ bs 16 16)
  reads := (List.range (at_ bs 1 1)).map (regionAt bs 64)
  writes := (List.range (at_ bs 2 1)).map (regionAt bs 128)
  waits := []
  running := false
  next := 0
  image := []
  supp := false
  tick := tick
  round := round
  rank := rank
  pat := pat
  ending := none

/-- R286, R348: a job enters its die's footprint table with the next number of its context; it waits for the live jobs
on which it depends. -/
def State.submitJob (s : State) (j : Job) : State :=
  let die := dieOf s.cur.core
  let waits := ((s.die die).jobs.filter (fun a => j.dependsOn a)).map Job.num
  let s1 := s.onDie die (fun d => { d with jobs := d.jobs ++ [{ j with waits := waits }] })
  (s1.onCtx j.tag (fun c => { c with nextJob := j.num + 1 })).onMe (fun t => { t with jobs := t.jobs ++ [j.num] })

/-- The next job number of a context. -/
def State.jobNumber (s : State) (tag : Nat) : Nat := ((s.ctx tag).map Ctx.nextJob).getD 1

/-- R286: a job card at issue: it waits while the footprint table is full; the card is read and checked; `k` follows. -/
def State.readCard (s : State) (d a : Reg) (collective : Bool) (groupOk : State → Nat → Bool)
    (k : List Byte → State → Out) : Out :=
  s.base [a] [d] (fun s =>
    let xa := s.x a
    if 4096 ≤ (s.die (dieOf s.cur.core)).jobs.length then .next s
    else
      s.inOrder (fun s => (s.readRecord xa 64 192).run (fun bs s =>
        match cardError bs collective (groupOk s) with
        | some o => s.trap descFault (xa + BitVec.ofNat 64 o)
        | none => k bs s)))

/-- The job of a card that the executing hardware context submits. -/
def State.newJob (s : State) (bs : List Byte) (round rank : Nat) (pat : Option Pattern) : Job :=
  let c := s.cur.core
  jobOfCard bs (s.jobNumber s.myTag) s.myTag s.myCore.lcore s.cur.h (quadOf c) round rank s.myCore.ptick pat

/-- SJOB (R286, R347). -/
def execSjob (l : BitVec 4) (d a : Reg) (s : State) : Out :=
  s.readCard d a false (fun _ _ => false) (fun bs s =>
    let num := s.jobNumber s.myTag
    let pat : Acc (Option Pattern) :=
      if at_ bs 0 1 = 2 then
        (s.readPattern (BitVec.ofNat 64 (at_ bs 16 8)) (at_ bs 24 1) (some num)).bind (fun p s => .ok (some p) s)
      else .ok none s
    pat.run (fun p s => s.released (fun s =>
      let j := s.newJob bs 0 0 (p.map (fun p => { p with tick := s.myCore.ptick }))
      ((s.submitJob j).post (.jobStart (dieOf s.cur.core) (quadOf s.cur.core))).doneWithLong l d (BitVec.ofNat 64 num))))

/-- R288, R398: the rank of the executing core in a group of its context. -/
def State.rankIn (s : State) (g : Nat) : Option Nat :=
  match s.ctx s.myTag with
  | none => none
  | some c =>
    match Tab.get? c.groups g with
    | none => none
    | some grp =>
      let me := (c.self.1, c.self.2.1, c.self.2.2, s.myCore.lcore)
      if grp.members.contains me then some (grp.members.idxOf me) else none

/-- SCOLL (R288, R351): the n-th submission of a core on a group joins round n. A core that is no member of the group has
no group there (log 31). -/
def execScoll (lw : BitVec 4) (d a : Reg) (s : State) : Out :=
  s.readCard d a true (fun s g => (s.rankIn g).isSome) (fun bs s => s.released (fun s =>
    let g := at_ bs 20 4
    let tag := s.myTag
    let l := s.myCore.lcore
    let num := s.jobNumber tag
    let round := match (s.ctx tag).bind (fun c => Tab.get? c.groups g) with
      | some grp => Tab.getD grp.submitted l 0
      | none => 0
    let s1 := s.submitJob (s.newJob bs round ((s.rankIn g).getD 0) none)
    let s2 := s1.onCtx tag (fun c => { c with groups := Tab.modify c.groups g (fun q =>
      { q with submitted := Tab.set q.submitted l (round + 1) }) })
    (s2.post (.collectiveRound tag g)).doneWithLong lw d (BitVec.ofNat 64 num)))

/-! swait. -/

/-- Whether a job of a context is live. -/
def State.jobLive (s : State) (tag n : Nat) : Bool := s.dies.any (fun d => d.2.jobs.any (fun j => j.tag == tag && j.num == n))

/-- The tick of a completed job (R336). -/
def State.jobTick (s : State) (tag n : Nat) : Option Tick := (s.ctx tag).bind (fun c => Tab.get? c.jobDone n)

/-- R287: swait's wait is over: an acquire of the completions of its jobs. -/
def State.jobsDone (s : State) (l : List Nat) : Out :=
  let t := l.foldl (fun (a : Option Tick) n =>
    match a, s.jobTick s.myTag n with
    | some p, some q => some (tickMax p q)
    | some p, none => some p
    | none, q => q) none
  match t with
  | none => s.done 4
  | some p =>
    match s.acquireTick true false p with
    | some s1 => s1.done 4
    | none => .next s

/-- SWAIT (R287). -/
def execSwait (_l : BitVec 4) (a : Reg) (s : State) : Out :=
  s.base [a] [] (fun s =>
    let n := (s.x a).toNat
    let l := if n = 0 then s.me.jobs else if s.jobNumber s.myTag ≤ n then [] else [n]
    if l.any (s.jobLive s.myTag) then .next s else s.jobsDone l)

/-! The work of a job. -/

/-- How far an engine came with a job. -/
inductive JobRun where
  | done (j : Job) (s : State)
  | wait (j : Job) (s : State)
  | dead (j : Job) (s : State)

/-- One piece of work after another. -/
def JobRun.bind (r : JobRun) (f : Job → State → JobRun) : JobRun :=
  match r with
  | .done j s => f j s
  | .wait j s => .wait j s
  | .dead j s => .dead j s

/-- R347: the source of a copy read, piece by piece. -/
def jobRead (die : Nat) (j : Job) : List (Nat × Nat) → State → JobRun
  | [], s => .done j s
  | e :: l, s =>
    match s.engRead die j.tag (.job j.num) j.tick e.1 e.2 with
    | .ok bs t s => jobRead die { j with image := j.image ++ bs, tick := t } l s
    | .wait s => .wait j s
    | .dead s => .dead j s

/-- The pieces of a list of regions, each with its offset in its region. -/
def regionPieces (l : List Region) : List (Nat × Nat × Nat) :=
  l.flatMap (fun r => (pieces r.base.toNat r.len).map (fun e => (e.1, e.2, e.1 - r.base.toNat)))

/-- R347: pieces written, piece by piece; `data` gives the bytes from an offset of a region. -/
def jobWrite (die : Nat) (data : Job → Nat → Nat → List Byte) (j : Job) : List (Nat × Nat × Nat) → State → JobRun
  | [], s => .done j s
  | e :: l, s =>
    match s.engWrite die j.tag (.job j.num) j.tick e.1 (data j e.2.2 e.2.1) with
    | .ok _ t s => jobWrite die data { j with next := j.next + 1, tick := t } l s
    | .wait s => .wait j s
    | .dead s => .dead j s

/-- The source of a copy: read region 0. -/
def Job.source (j : Job) : List (Nat × Nat) :=
  match j.reads with
  | r :: _ => (pieces r.base.toNat r.len).filter (fun e => decide (r.base.toNat + j.image.length ≤ e.1))
  | [] => []

/-- The bytes that a job writes at an offset of a region (R347). -/
def Job.data (j : Job) (off n : Nat) : List Byte :=
  if j.op = 0 then (j.image.drop off).take n
  else (List.range n).map (fun k => j.param.extractLsb' (8 * ((off + k) % 8)) 8)

/-- What a job has still to write: a copy writes its first write region, a fill every one (R285, R347). -/
def Job.target (j : Job) : List (Nat × Nat × Nat) :=
  (regionPieces (if j.op = 0 then j.writes.take 1 else j.writes)).drop j.next

/-- Whether every write of a copy or fill job is performed. -/
def Job.performed (j : Job) : Bool := j.source.isEmpty && j.target.isEmpty

/-- R347, R352: a copy or fill job goes on from where it stands. -/
def State.runJob (s : State) (die : Nat) (j : Job) : State :=
  let work := if j.op = 0 then jobRead die j j.source s else .done j s
  match work.bind (fun j s => jobWrite die Job.data j j.target s) with
  | .done j s => (s.onDie die (fun d => d.setJob j)).post (.jobComplete die j.tag (BitVec.ofNat 64 j.num))
  | .wait j s => s.onDie die (fun d => d.setJob j)
  | .dead j s => (s.onDie die (fun d => d.setJob j)).finishJob die j.tag j.num jobFAULTED j.tick

/-- R350: how near a job is to a quad's streamer, or none where that streamer may not take it: own quad, sibling quad, any
quad. -/
def Job.reach (j : Job) (quad : Nat) : Option Nat :=
  if j.quad = quad then some 0
  else if j.scope = 2 then none
  else if j.quad = quad ^^^ 1 then some 1
  else if j.scope = 3 then none
  else some 2

/-- R349, R352: whether a job may start. -/
def State.jobReady (s : State) (die : Nat) (j : Job) : Bool :=
  !j.running && j.ending.isNone && s.residentOn j.tag die
    && !(j.waits.any (fun n => (s.die die).jobs.any (fun k => k.tag == j.tag && k.num == n)))

/-- R350: the job that a quad's streamer takes: the nearest, and among those the oldest. -/
def State.nextJobFor (s : State) (die quad : Nat) : Option Job :=
  let l := (s.die die).jobs.filter (fun j => j.op != 3 && s.jobReady die j)
  [0, 1, 2].findSome? (fun k => l.find? (fun j => j.reach quad == some k))

/-- A running copy or fill job that stands, though nothing parks it. -/
def State.standingJob (s : State) (die : Nat) : Option Job :=
  (s.die die).jobs.find? (fun j => j.running && j.ending.isNone && decide (j.op < 2) && !j.performed && s.residentOn j.tag die
    && !s.isParked die j.tag (.job j.num))

/-- R350: a streamer starts a job; one of op 2 has its pattern join its port's queue. -/
def State.startJob (s : State) (die quad : Nat) (j : Job) : State :=
  let s1 := s.post (.jobStart die quad)
  match j.pat with
  | some p => (s1.onDie die (fun d => d.setJob { j with running := true, pat := none })).bindPattern die p
  | none => (s1.onDie die (fun d => d.setJob { j with running := true })).runJob die { j with running := true }

/-- JOB_START (R350): a quad's streamer goes on with a job that stands, or takes the next ready one. -/
def execJobStart (die quad : Nat) (s : State) : Out :=
  match s.standingJob die with
  | some j => .next (s.runJob die j)
  | none =>
    match s.nextJobFor die quad with
    | some j => .next (s.startJob die quad j)
    | none => .next s

/-- The status with which a job is over: the one it already has, or DONE for a copy or fill job whose writes are all
performed. -/
def Job.outcome (j : Job) : Option Nat :=
  match j.ending with
  | some status => some status
  | none => if j.running ∧ j.op < 2 ∧ j.performed then some jobDONE else none

/-- JOB_COMPLETE (R287): a job that is over completes, unless a fault parks its done dword. -/
def execJobComplete (die tag : Nat) (job : Word) (s : State) : Out :=
  match (s.die die).jobs.find? (fun j => j.tag == tag && j.num == job.toNat) with
  | some j =>
    match j.outcome with
    | some status =>
      if s.residentOn tag die ∧ !s.isParked die tag (.job j.num) then .next (s.finishJob die tag j.num status j.tick)
      else .next s
    | none => .next s
  | none => .next s

/-! Collectives. -/

/-- The bytes of an element of a collective. -/
def Collective.size (c : Collective) : Nat := ((Fmt.ofCode c.fmt).map Fmt.sew).getD 8 / 8

/-- The live collective jobs of a group and round, with their dies, by rank. -/
def State.roundJobs (s : State) (tag g r : Nat) : List (Nat × Job) :=
  sortBy (fun a b => decide (a.2.rank ≤ b.2.rank))
    (s.dies.flatMap (fun d => (d.2.jobs.filter (fun j =>
      j.tag == tag && j.op == 3 && j.collective.group == g && j.round == r)).map (fun j => (d.1, j))))

/-- R288: one element of a reduction: the members' values in rank order. -/
def reduceElem (c : Collective) : List Nat → Nat
  | [] => 0
  | x :: l =>
    match Fmt.ofCode c.fmt with
    | none => x
    | some f =>
      let op : BinOp := if c.op = 0 then addOp else if c.op = 1 then minOp else maxOp
      l.foldl (fun r y => (op f .rne r y).1) x

/-- R288: the output of a member of a rank, from the members' inputs in rank order. -/
def collectiveOutput (c : Collective) (inputs : List (List Byte)) (rank : Nat) : List Byte :=
  let n := c.size
  let reduced (first k : Nat) : List Byte :=
    (List.range k).flatMap (fun e => bytesLE n (reduceElem c (inputs.map (fun b => at_ b ((first + e) * n) n))))
  match c.kind with
  | 0 => reduced 0 c.count
  | 1 =>
    let part := c.count / inputs.length
    reduced (part * rank) part
  | _ => inputs.flatten

/-- Free bytes, for what a suppressed read delivers (log 14). -/
def State.drawBytes (s : State) : Nat → List Byte × State
  | 0 => ([], s)
  | n + 1 =>
    let r := s.draw
    let l := r.2.drawBytes n
    (BitVec.ofNat 8 r.1.toNat :: l.1, l.2)

/-- R351: a member's input read, from where it stands; what lies beyond its read region is suppressed. What has been read
is kept, and not read again. -/
def State.readInput (s : State) (die : Nat) (j : Job) : JobRun :=
  let want := j.collective.count * j.collective.size
  let r := j.reads.headD { base := 0, len := 0 }
  let n := min want r.len
  if want ≤ j.image.length then .done j s
  else
    (jobRead die j (pieces (r.base.toNat + j.image.length) (n - j.image.length)) s).bind (fun j s =>
      let rest := s.drawBytes (want - n)
      .done { j with image := j.image ++ rest.1, supp := decide (r.len < want) } rest.2)

/-- What the collective unit makes of its members in turn. -/
inductive RoundRun where
  | done (l : List (Nat × Job)) (s : State)
  | wait (s : State)
  | dead (s : State)

/-- The members of a round in rank order, each put through a piece of work; how far each came is kept. -/
def eachMember (f : Nat → Job → State → JobRun) : List (Nat × Job) → State → RoundRun
  | [], s => .done [] s
  | m :: l, s =>
    match f m.1 m.2 s with
    | .wait j s => .wait (s.onDie m.1 (fun d => d.setJob j))
    | .dead j s => .dead (s.onDie m.1 (fun d => d.setJob j))
    | .done j s =>
      match eachMember f l (s.onDie m.1 (fun d => d.setJob j)) with
      | .done r s => .done ((m.1, j) :: r) s
      | .wait s => .wait s
      | .dead s => .dead s

/-- R288, R351: a member's output written, from where it stands; what lies beyond its write region is suppressed. -/
def writeOutput (inputs : List (List Byte)) (die : Nat) (j : Job) (s : State) : JobRun :=
  let out := collectiveOutput j.collective inputs j.rank
  let r := j.writes.headD { base := 0, len := 0 }
  let n := min out.length r.len
  (jobWrite die (fun _ off k => (out.drop off).take k) j
    (((pieces r.base.toNat n).map (fun e => (e.1, e.2, e.1 - r.base.toNat))).drop j.next) s).bind (fun j s =>
      .done { j with supp := j.supp || decide (r.len < out.length) } s)

/-- A round is over: its members' jobs complete, and when the last of them has, the group goes on to the next round. -/
def State.endRound (s : State) (tag : Nat) (l : List (Nat × Job)) (status : Job → Nat) : State :=
  l.foldl (fun s m => s.finishJob m.1 tag m.2.num (status m.2) m.2.tick) s

/-- R346, R351: whether the elements of a member's input or output are misaligned, which is a fault (log 75). -/
def Job.misaligned (j : Job) : Bool :=
  let at' (l : List Region) : Nat := (l.headD { base := 0, len := 0 }).base.toNat
  decide (at' j.reads % j.collective.size ≠ 0) || decide (at' j.writes % j.collective.size ≠ 0)

/-- R288: whether the members of a round disagree, or a reduce-scatter's count is no multiple of their number. -/
def mismatched (l : List (Nat × Job)) : Bool :=
  match l with
  | [] => false
  | m :: t =>
    let c := m.2.collective
    t.any (fun n => n.2.collective != c) || (c.kind == 1 && decide (c.count % l.length ≠ 0))

/-- R351: a round all of whose members have submitted, are ready and are resident. -/
def State.runRound (s : State) (tag : Nat) (l : List (Nat × Job)) : State :=
  if mismatched l then s.endRound tag l (fun _ => jobMISMATCH)
  else if l.any (fun m => m.2.misaligned) then s.endRound tag l (fun _ => jobFAULTED)
  else
    match eachMember (fun die j s => s.readInput die j) l s with
    | .wait s => s
    | .dead s => s.endRound tag l (fun _ => jobFAULTED)
    | .done l1 s1 =>
      match eachMember (writeOutput (l1.map (fun m => m.2.image))) l1 s1 with
      | .wait s2 => s2
      | .dead s2 => s2.endRound tag l (fun _ => jobFAULTED)
      | .done l2 s2 => s2.endRound tag l2 (fun j => if j.supp then jobOUT else jobDONE)

/-- COLLECTIVE_ROUND (R351): the next round of a group moves when every member has submitted it; members in other modules
are not seen here, and their round waits (log 32). -/
def execCollectiveRound (tag group : Nat) (s : State) : Out :=
  match (s.ctx tag).bind (fun c => Tab.get? c.groups group) with
  | none => .next s
  | some g =>
    let l := s.roundJobs tag group g.rounds
    if l.length = g.members.length ∧ l.all (fun m => s.jobReady m.1 m.2 && !s.isParked m.1 tag (.job m.2.num)) then
      .next (s.runRound tag l)
    else .next s

/-! The service of engine faults. -/

/-- A flight that the texture and feature-grid unit parked, where its image is resident. -/
def State.parkedFlight (s : State) (tag lcore h id : Nat) : Option (HartId × Flight) :=
  (s.residentCore tag lcore).bind (fun c =>
    ((s.hart { core := c, h := h }).chain.find? (fun f => f.id == id)).map (fun f => ({ core := c, h := h }, f)))

/-- R392: the unit that a fault parked goes on. -/
def State.unpark (s : State) (die : Nat) (p : Parked) : State :=
  match p.who with
  | .pattern l port => s.post (.tileDeliver (s.portCore p.tag l) port)
  | .job n =>
    match (s.die die).jobs.find? (fun j => j.tag == p.tag && j.num == n) with
    | some j =>
      if j.ending.isSome then s.post (.jobComplete die p.tag (BitVec.ofNat 64 n))
      else if j.op = 3 then s.post (.collectiveRound p.tag j.collective.group)
      else s.post (.jobStart die j.quad)
    | none => s
  | .ray l h slot _ => s.wakeRay p.tag l h slot
  | .flight l h id =>
    match s.parkedFlight p.tag l h id with
    | some (i, f) => s.post (f.mover i)
    | none => s

/-- R287, R346: a pattern whose fault cannot be serviced ends FAULTED; a done dword, or a progress post, that cannot be
written is dropped alone. -/
def State.endParkedPattern (s : State) (die : Nat) (q : Pattern) : State :=
  match q.ending with
  | some status => s.endPattern die { q with done := 0 } status
  | none =>
    if q.posting then
      if q.total * q.size ≤ q.bytes then s.endPattern die q (if q.regionErr then jobOUT else jobDONE)
      else (s.keepPattern die { q with posting := false }).post (.tileDeliver (s.portCore q.tag q.lcore) q.port)
    else s.endPattern die q jobFAULTED

/-- R287, R346, R351: a job whose fault cannot be serviced ends FAULTED, a collective's with every member of its round; a
done dword that cannot be written is dropped alone. -/
def State.endParkedJob (s : State) (die : Nat) (j : Job) : State :=
  match j.ending with
  | some status => s.closeJob die { j with done := 0 } status
  | none =>
    if j.op = 3 then s.endRound j.tag (s.roundJobs j.tag j.collective.group j.round) (fun _ => jobFAULTED)
    else s.closeJob die j jobFAULTED

/-- R262, R346, R351, R392: what becomes of the unit whose fault cannot be serviced: it ends FAULTED; a texture or
feature-grid read is the instruction's own trap (R250; log 63). -/
def State.endParked (s : State) (die : Nat) (p : Parked) : State :=
  match p.who with
  | .pattern l port =>
    match (s.die die).patterns.find? (fun q => q.running && q.tag == p.tag && q.lcore == l && q.port == port) with
    | some q => s.endParkedPattern die q
    | none => s
  | .job n =>
    match (s.die die).jobs.find? (fun j => j.tag == p.tag && j.num == n) with
    | some j => s.endParkedJob die j
    | none => s
  | .ray l h slot uid =>
    let k : RayLink := { lcore := l, h := h, slot := slot, uid := uid, token := 0, kind := 0 }
    s.rayTaskFailed p.tag k
  | .flight l h id =>
    match s.parkedFlight p.tag l h id with
    | some (i, f) => (s.onHart i (fun t => t.setFlight { f with probed := true })).post (f.mover i)
    | none => s

/-- R352, R405: whether the unit that a fault parks may move: while its context is out nothing of it does, and a round only
while every member's context is in. -/
def State.mayService (s : State) (die : Nat) (p : Parked) : Bool :=
  match p.who with
  | .pattern .. => s.residentOn p.tag die
  | .job n =>
    match (s.die die).jobs.find? (fun j => j.tag == p.tag && j.num == n) with
    | some j =>
      s.residentOn p.tag die && (decide (j.op ≠ 3)
        || (s.roundJobs p.tag j.collective.group j.round).all (fun m => s.residentOn p.tag m.1))
    | none => true
  | .ray l .. => (s.residentCore p.tag l).isSome
  | .flight l .. => (s.residentCore p.tag l).isSome

/-- ENGINE_FAULT_SERVICE (R392): the firmware of a die services the oldest fault that a unit of it waits for, as PAGE
would, when no access under the page's old translation is left (R393). -/
def execEngineFaultService (die : Nat) (s : State) : Out :=
  match (s.die die).parked.find? (s.mayService die) with
  | none => .next s
  | some p =>
    match s.quietAt p.tag p.va.toNat with
    | .wait s => .next s
    | .trap _ s => .next s
    | .ok _ s =>
      let s1 := s.onDie die (fun d => { d with parked := d.parked.erase p })
      let r := s1.service p.tag (if p.store then .store else .load) p.va.toNat p.priv die
      .next (match r.1 with
        | .ok => r.2.unpark die p
        | _ => r.2.endParked die p)

end Sys2Proof.Machine
end

