-- ==== Sys2Proof/Machine/Render.lean ====
section
/-! DEFINITION. The steps of the render path's units (R356, R358, R360). -/

namespace Sys2Proof.Machine

/-- The hardware context stands where it could issue: it is live, or the control context, and has not stopped. -/
def State.stands (s : State) (h : HartId) : Bool :=
  let t := s.hart h
  (h.h == 0 || t.live) && !t.stopped && (s.tagOf h.core).isSome

/-- PRIMITIVE_ACCEPT (R356): the vst at which a hardware context waits submits its record again. Without this step it does
so whenever it is chosen to issue. -/
def execPrimitiveAccept (h : HartId) (s : State) : Out :=
  let s1 : State := { s with cur := h }
  if s.stands h then
    match s1.nextInstr with
    | .ok (.vst o) s2 =>
      match s2.submitsTo o with
      | some _ => execVst o s2
      | none => .next s
    | _ => .next s
  else .next s

/-- INBOX_RELEASE (R358): an owner's inbox releases its lowest record into its ring, once every lower ticket of the pass
has been accepted, the owner is resident, and the ring's write slot may be filled. An inbox in uncorrectable data releases
nothing, and faults its context (R438). A pattern that was filling the ring when the pass opened goes on beside the inbox (log
77). -/
def execInboxRelease (tag pass owner : Nat) (s : State) : Out :=
  match s.pass tag pass, s.residentCore tag owner with
  | some p, some c =>
    match p.unit owner, Tab.get? (s.img c).rings p.ring with
    | some u, some g =>
      match u.inbox with
      | r :: l =>
        if s.badCore.any (CoreCell.isInbox c) then .next (s.unitFault tag owner 2)
        else if r.ticket < p.closure ∧ g.room.isSome then
          let s1 := ((s.correct c (CoreCell.isInbox c)).setUnit tag pass { u with inbox := l }).fillSlot c p.ring g r.data p.tick
          .next (s1.askInboxes tag pass)
        else .next s
      | [] => .next s
    | _, _ => .next s
  | _, _ => .next s

/-- COMMIT_LOG_POLL (R360): the commit unit of a resident owner takes what its log has published. -/
def execCommitLogPoll (tag pass owner : Nat) (s : State) : Out :=
  .next (s.pollLog tag pass owner)

end Sys2Proof.Machine
end

