-- ==== Sys2Proof/Machine/Sequencer.lean ====
section
/-! DEFINITION. Residency and switching (R34, R215, R365, R399 to R406): what a pre-emption saves, what a restoration
brings back, the first placement of an image, and the decisions of a die's context sequencer. -/

namespace Sys2Proof.Machine

/-! Saving. -/

/-- R45, R46, R48, R460: a hardware context as a pre-emption leaves it. What its own stop records is re-run at
resumption, fully blocking; a record held from an earlier trap stays held unless this stop replaces it. -/
def Hart.preempt (t : Hart) : Hart :=
  let t1 := t.stopAll t.pc
  if t.chain.isEmpty then t1 else t1.rerun

/-- Whether a queued matrix command has still to act on a tile. -/
def Img.queuedFor (m : Img) (t : Nat) : Bool := m.mq.any (fun q => q.tile == some t)

/-- R215: the accumulators of tiles that are not in use, and that no queued command has still to act on, are not saved, and
read +0. -/
def Img.keepTiles (m : Img) : Img :=
  { m with acc := m.acc.filter (fun e => m.inUse.getLsbD (e.1 / 64) || m.queuedFor (e.1 / 64)) }

/-- R404: what is saved of a core. A wait that a pre-emption stops is begun again at resumption. -/
def Img.saved (m : Img) : Img :=
  { (m.keepTiles) with harts := Tab.mapVal m.harts (fun _ t => t.preempt), mwaits := [] }

/-- The cores of a cluster. -/
def clusterCores (die cluster : Nat) : List Nat := (List.range 8).map (coreAt die cluster)

/-- A core that serves nothing any more: what it has cached for its context is gone, so that nothing of it outlives the
context's mappings and frames (R382, R393). -/
def Core.idle (k : Core) : Core :=
  { k with serving := none, img := Img.init, satp := 0, microTlb := [], laneTlb := [[], [], [], []], icache := [] }

/-- R45: whether something in flight on a cluster stands inside a group. -/
def State.insideCluster (s : State) (die cluster : Nat) : Bool :=
  (clusterCores die cluster).any (fun c => (s.img c).harts.any (fun e => e.2.inside))

/-- R45: what stands inside a group on a cluster moves next. -/
def State.finishCluster (s : State) (die cluster : Nat) : State :=
  (clusterCores die cluster).foldl (fun s c =>
    (s.img c).harts.foldl (fun s e => s.finishGroups { core := c, h := e.1 }) s) s

/-- R401, R393: whether a cluster may be saved now: everything in flight stands at a stopping point (R45), and the stores that
its cores have issued may be performed (R328). -/
def State.canSave (s : State) (die cluster : Nat) : Bool :=
  match Tab.get? (s.die die).clusters cluster with
  | none => false
  | some cl =>
    !s.insideCluster die cluster &&
    match s.performAll cl.tag (clusterCores die cluster) with
    | .ok _ _ => true
    | _ => false

/-- R401, R404: the image that runs on a cluster is saved, and the cluster is free. Stores of its cores are performed
first; only a context that is stopped for good (R440) can leave some in its image. -/
def State.saveCluster (s : State) (die cluster : Nat) : State :=
  match Tab.get? (s.die die).clusters cluster with
  | none => s
  | some cl =>
    let cores := (clusterCores die cluster).filter (fun c => s.tagOf c == some cl.tag)
    let s1 := cores.foldl (fun s c => (s.flush c).state) s
    let img : SavedImage :=
      { cores := cores.foldl (fun t c => Tab.set t (indexOf c) ((s1.img c).saved, (s1.core c).ptick)) [] }
    let s2 := s1.onCtx cl.tag (fun c =>
      { c with images := Tab.set c.images cl.image img, unserved := Tab.set c.unserved die s1.cc })
    let s3 := cores.foldl (fun s c => s.onCore c Core.idle) s2
    (s3.onDie die (fun d => { d with clusters := Tab.erase d.clusters cluster })).leaveRunning cores

/-! Placing. -/

/-- The indices of an image with a valid core-table entry (R395). -/
def Ctx.imageIndices (c : Ctx) (g : Nat) : List Nat := (List.range 8).filter (fun k => (c.coreOf (8 * g + k)).isSome)

/-- The die on which an image lies (R395). -/
def Ctx.imageDie (c : Ctx) (g : Nat) : Option Nat :=
  ((c.imageIndices g).head?).bind (fun k => (c.coreOf (8 * g + k)).map dieOf)

/-- The images of a context: its core table by eights. -/
def Ctx.imageList (c : Ctx) : List Nat := (c.ctab.map (fun e => e.1 / 8)).dedup

/-- R402: the classes that what a saved core holds needs: the kernels of its live helpers and taken tasks. -/
def Img.needs (m : Img) : Word :=
  m.taken.foldl (fun w t => w ||| t.task.facts.opmask)
    (m.harts.foldl (fun w e => match e.2.task with
      | some k => if e.2.live then w ||| k.task.facts.opmask else w
      | none => w) 0)

/-- R402: whether an image of a context may be placed on a cluster: a serving core at every valid index, whose capmask
covers what the image holds there. A failed core and a die manager core serve no context (R2, R434). -/
def State.clusterFits (s : State) (c : Ctx) (g die cluster : Nat) : Bool :=
  (c.imageIndices g).all (fun k =>
    let q := s.core (coreAt die cluster k)
    let need := (((Tab.get? c.images g).bind (fun i => Tab.get? i.cores k)).map (fun e => e.1.needs)).getD 0
    q.crec.state == 0 && covers q.capmask need)

/-- An annex, or a store, of a core in the place where the core's image lies now. -/
def Loc.rebase (core : Nat) : Loc → Loc
  | .scratch c off => .scratch (core / 8 * 8 + c % 8) off
  | l => l

/-- R404, R402: a saved core's image on a core. -/
def Img.placed (m : Img) (core : Nat) : Img :=
  { m with
    harts := Tab.mapVal m.harts (fun _ t => { t with annex := t.annex.map (fun a => { a with place := a.place.rebase core }) })
    stores := m.stores.map (fun e => { e with loc := e.loc.rebase core }) }

/-- R403: what a core holds when its image is first placed. -/
def firstImg (c : Ctx) (tag lcore : Nat) : Img :=
  let t : Hart := { Hart.init .s with pc := c.rt, mstatus := setBit 0 stSPP true }
  let t1 := ((t.put 10 c.rtarg).put 11 (BitVec.ofNat 64 lcore)).put 12 (BitVec.ofNat 64 tag)
  { Img.init with harts := [(0, t1)], stvec := c.rt }

/-- R402, R403: core k of an image comes to a cluster. -/
def State.placeCore (s : State) (tag g die cluster k : Nat) : State :=
  match s.ctx tag with
  | none => s
  | some c =>
    let core := coreAt die cluster k
    let l := 8 * g + k
    let saved := (Tab.get? c.images g).bind (fun i => Tab.get? i.cores k)
    let s1 := s.onCore core (fun q =>
      { q with serving := some (tag, l)
               img := match saved with
                 | some e => e.1.placed core
                 | none => firstImg c tag l
               ptick := match saved with
                 | some e => tickMax q.ptick e.2
                 | none => q.ptick })
    s1.onCtx tag (fun c => { c with ctab := Tab.set c.ctab l core })

/-- The rays of a resident image that are running go on (R265). -/
def State.wakeRays (s : State) (core : Nat) : State :=
  (s.img core).harts.foldl (fun s e =>
    e.2.rays.foldl (fun s r =>
      if r.2.phase = .running then s.post (.rayTraversal { core := core, h := e.1 } r.1) else s) s) s

/-- R402, R403: an image of a context is placed on a free cluster. -/
def State.placeImage (s : State) (tag g die cluster : Nat) : State :=
  match s.ctx tag with
  | none => s
  | some c =>
    let ks := c.imageIndices g
    let s1 := ks.foldl (fun s k => s.placeCore tag g die cluster k) s
    let s2 := s1.onCtx tag (fun c =>
      { c with images := Tab.erase c.images g, placed := if c.placed.contains g then c.placed else g :: c.placed
               unserved := Tab.set c.unserved die s1.cc })
    let s3 := s2.onDie die (fun d =>
      { d with clusters := Tab.set d.clusters cluster { tag := tag, image := g, slice := 0, idle := 0, evict := false } })
    let s4 := s3.enterRunning (ks.map (coreAt die cluster))
    ks.foldl (fun s k => s.wakeRays (coreAt die cluster k)) s4

/-! The sequencer. -/

/-- Whether an image of a context is resident on a die. -/
def State.imageResident (s : State) (tag g die : Nat) : Bool :=
  (s.die die).clusters.any (fun e => e.2.tag == tag && e.2.image == g)

/-- Whether a saved image holds a live helper, or a taken task. -/
def SavedImage.busy (i : SavedImage) : Bool :=
  i.cores.any (fun e => !e.2.1.taken.isEmpty || e.2.1.harts.any (fun h => h.1 != 0 && h.2.live))

/-- R400: whether a context has engine work on a die. -/
def State.engineWork (s : State) (tag die : Nat) : Bool :=
  let d := s.die die
  d.patterns.any (fun p => p.tag == tag) || d.jobs.any (fun j => j.tag == tag)

/-- R400, R440: whether a context is runnable on a die. -/
def State.runnable (s : State) (tag die : Nat) : Bool :=
  match s.ctx tag with
  | none => false
  | some c =>
    c.fault.isNone &&
      (c.tasks.any (fun t => t.queue.die' == die)
        || c.images.any (fun e => c.imageDie e.1 == some die && e.2.busy)
        || (s.die die).clusters.any (fun e => e.2.tag == tag && (clusterCores die e.1).any (fun q => !(s.img q).taken.isEmpty))
        || s.engineWork tag die)

/-- R400: the images that a runnable context may bring to a die, the best first: saved ones that hold work, other saved
ones, and those that have never been placed. -/
def State.nextImages (s : State) (tag die : Nat) : List Nat :=
  match s.ctx tag with
  | none => []
  | some c =>
    let away := c.imageList.filter (fun g => c.imageDie g == some die && !s.imageResident tag g die)
    let isSaved (g : Nat) : Bool := (Tab.get? c.images g).isSome
    let isBusy (g : Nat) : Bool := ((Tab.get? c.images g).map SavedImage.busy).getD false
    away.filter isBusy ++ away.filter (fun g => isSaved g && !isBusy g) ++ away.filter (fun g => !isSaved g)

/-- The priority of a context. -/
def State.prioOfCtx (s : State) (tag : Nat) : Nat := ((s.ctx tag).map Ctx.prio).getD 0

/-- When a context was last served on a die. -/
def State.servedAt (s : State) (tag die : Nat) : Nat := ((s.ctx tag).map (fun c => Tab.getD c.unserved die 0)).getD 0

/-- R400: whether a context goes before another: a higher priority, then longer unserved. -/
def State.goesBefore (s : State) (die a b : Nat) : Bool :=
  decide (s.prioOfCtx b < s.prioOfCtx a)
    || (s.prioOfCtx a == s.prioOfCtx b && decide (s.servedAt a die < s.servedAt b die))

/-- A tag put in its place among others in their order: behind those that it does not go before. -/
def insertTag (before : Nat → Nat → Bool) (a : Nat) : List Nat → List Nat
  | [] => [a]
  | b :: l => if before a b then a :: b :: l else b :: insertTag before a l

/-- R400: the contexts that wait for a cluster of a die, each with an image it would bring, in the order in which they are
served: highest priority, then longest unserved; the lower tag first. -/
def State.waitingContexts (s : State) (die : Nat) : List (Nat × Nat) :=
  let tags := (s.ctxs.map Prod.fst).filter (fun t => s.runnable t die && !(s.nextImages t die).isEmpty)
  (tags.foldl (fun l t => insertTag (s.goesBefore die) t l) []).flatMap (fun t => (s.nextImages t die).map (fun g => (t, g)))

/-- R400: the waiting context that is next. -/
def State.nextContext (s : State) (die : Nat) : Option (Nat × Nat) := (s.waitingContexts die).head?

/-- The first free cluster of a die on which an image fits. -/
def State.freeCluster (s : State) (c : Ctx) (g die : Nat) : Option Nat :=
  (List.range 2048).find? (fun k => (Tab.get? (s.die die).clusters k).isNone && s.clusterFits c g die k)

/-- The clusters of a die that a context's image could take from others. -/
def State.takeable (s : State) (tag g die : Nat) : List (Nat × Cluster) :=
  match s.ctx tag with
  | none => []
  | some c => (s.die die).clusters.filter (fun e => s.clusterFits c g die e.1)

/-- R400: the cluster that a waiting context pre-empts on priority alone: one whose context has the lowest, strictly
lower, priority. -/
def State.victim (s : State) (tag g die : Nat) : Option Nat :=
  ((s.takeable tag g die).foldl (fun (a : Option (Nat × Nat)) e =>
    let p := s.prioOfCtx e.2.tag
    if p < s.prioOfCtx tag then
      match a with
      | none => some (e.1, p)
      | some b => if p < b.2 then some (e.1, p) else a
    else a) none).map Prod.fst

/-- R400: the first waiting context of a die that has a free cluster to go to, its image and the cluster. -/
def State.freePlace (s : State) (die : Nat) : Option (Nat × Nat × Nat) :=
  (s.waitingContexts die).findSome? (fun e =>
    ((s.ctx e.1).bind (fun c => s.freeCluster c e.2 die)).map (fun k => (e.1, e.2, k)))

/-- R400: the first waiting context of a die that may pre-empt a cluster, its image and the cluster. -/
def State.takenPlace (s : State) (die : Nat) : Option (Nat × Nat × Nat) :=
  (s.waitingContexts die).findSome? (fun e => (s.victim e.1 e.2 die).map (fun k => (e.1, e.2, k)))

/-- R401: a cluster is saved and given to an image. A save that must wait (R328) leaves the decision to be made again. -/
def State.replaceImage (s : State) (die cluster tag g : Nat) : State :=
  if s.canSave die cluster then (s.saveCluster die cluster).post (.imageRestore tag g die cluster) else s.finishCluster die cluster

/-- CONTEXT_RUNNABLE (R400, R401): a waiting context of a die gets a free cluster, or pre-empts one of strictly lower
priority. The context named is one that waits; the sequencer serves the first for which there is a place. -/
def execContextRunnable (tag die : Nat) (s : State) : Out :=
  if !s.runnable tag die then .next s
  else
    match s.freePlace die with
    | some (t, g, k) => .next (s.post (.imageRestore t g die k))
    | none =>
      match s.takenPlace die with
      | some (t, g, k) => .next (s.replaceImage die k t g)
      | none => .next s

/-- IMAGE_RESTORE (R402, R403): an image is placed on a free cluster of its die that it fits. -/
def execImageRestore (tag image die cluster : Nat) (s : State) : Out :=
  match s.ctx tag with
  | none => .next s
  | some c =>
    if (Tab.get? (s.die die).clusters cluster).isNone ∧ c.imageDie image = some die ∧ !s.imageResident tag image die
        ∧ c.fault.isNone ∧ cluster < 2048 ∧ s.clusterFits c image die cluster then
      .next ((s.placeImage tag image die cluster).post (.contextRunnable tag die))
    else .next s

/-- The cc of a context's slice (R400, R456). -/
def State.sliceCc (s : State) (tag : Nat) : Nat := 850 * ((s.ctx tag).map Ctx.slice).getD 2000

/-- The first waiting context whose image fits a cluster and whose priority is no lower than that of the cluster's (log 76). -/
def State.successor (s : State) (die cluster : Nat) (cl : Cluster) : Option (Nat × Nat) :=
  (s.waitingContexts die).find? (fun e =>
    decide (s.prioOfCtx cl.tag ≤ s.prioOfCtx e.1) && ((s.ctx e.1).map (fun c => s.clusterFits c e.2 die cluster)).getD false)

/-- R434: whether a cluster's image is to be pre-empted: a matrix class has been fenced for it, a core has failed, or the image
needs a class that the cluster no longer has. -/
def State.misfits (s : State) (die cluster : Nat) : Bool :=
  ((Tab.get? (s.die die).clusters cluster).map Cluster.evict).getD false || (clusterCores die cluster).any (fun q =>
    let k := s.core q
    k.serving.isSome && (k.crec.state != 0 || !covers (k.capmask ||| ~~~0x0FFFF80000000000#64) k.img.needs))

/-- SLICE_END (R400, R401, R434): a cluster at the end of its slice is saved for a waiting context of no lower priority (log
76), or begins its slice anew; one whose matrix class has been fenced, or that its image no longer fits, is saved, and the image
goes elsewhere. -/
def execSliceEnd (die cluster : Nat) (s : State) : Out :=
  match Tab.get? (s.die die).clusters cluster with
  | none => .next s
  | some cl =>
    if s.misfits die cluster then
      .next (if s.canSave die cluster then (s.saveCluster die cluster).post (.contextRunnable cl.tag die) else s.finishCluster die cluster)
    else if cl.slice < s.sliceCc cl.tag then .next s
    else
      match s.successor die cluster cl with
      | some (t, g) => .next (s.replaceImage die cluster t g)
      | none =>
        .next (s.onDie die (fun d => { d with clusters := Tab.set d.clusters cluster { cl with slice := 0 } }))

/-- R400: whether a cluster may not be freed though idle: it is its context's last on the die, which has engine work
there. -/
def State.keepsIdle (s : State) (die : Nat) (cl : Cluster) : Bool :=
  s.engineWork cl.tag die && ((s.die die).clusters.filter (fun e => e.2.tag == cl.tag)).length == 1

/-- CLUSTER_IDLE (R400): a cluster idle for 4,096 cc is saved and freed when a runnable context of the die waits, its own among
them, for another of its images. -/
def execClusterIdle (die cluster : Nat) (s : State) : Out :=
  match Tab.get? (s.die die).clusters cluster with
  | none => .next s
  | some cl =>
    if cl.idle < 4096 ∨ s.keepsIdle die cl then .next s
    else
      match (s.waitingContexts die).find? (fun e =>
          ((s.ctx e.1).map (fun c => s.clusterFits c e.2 die cluster)).getD false) with
      | none => .next s
      | some (t, g) => .next (s.replaceImage die cluster t g)

/-! The end of a kernel. -/

/-- A tile ends with its kernel (R7): free from now on, and +0 once the commands queued for it, which still run (R270),
have acted. -/
def Img.endTile (m : Img) (t : TileNo) : Img :=
  let m1 : Img := { m.use t false with tileOf := Tab.erase m.tileOf t.val }
  if m.queuedFor t.val then { m1 with mq := m1.mq ++ [{ instr := .mrelease 0 t, h := 0, xa := 0, xb := 0, cfg := m1.mcfg }] }
  else m1.clearTile t.val

/-- R7: the kernel state of a launch that has no helper left ends on a core: the rings that its helpers initialised, and the
tiles in use that they brought into use. -/
def Img.endKernel (m : Img) (launch : Nat) : Img :=
  let m1 : Img := { m with rings := m.rings.filter (fun e => e.2.launch != launch) }
  ((List.finRange 4).filter (fun t => m.inUse.getLsbD t.val && Tab.get? m.tileOf t.val == some launch)).foldl Img.endTile m1

/-- R7: the kernel state of a launch ends, in the resident and the saved images of its context. -/
def State.endKernel (s : State) (tag launch : Nat) : State :=
  let s1 := (s.cores.filter (fun e => (e.2.serving.map Prod.fst) == some tag)).foldl
    (fun s e => s.onImg e.1 (fun m => m.endKernel launch)) s
  s1.onCtx tag (fun c => { c with
    images := Tab.mapVal c.images (fun _ i => { i with cores := Tab.mapVal i.cores (fun _ e => (e.1.endKernel launch, e.2)) }) })

/-! Context faults. -/

/-- R440: the detail of a context fault. -/
def faultDetail (kind die lcore : Nat) : Word :=
  BitVec.ofNat 64 (kind % 256 + die % 64 * 256 + lcore % 2 ^ 20 * 2 ^ 14)

/-- R451: a fault kept among the last 16. -/
def Mgmt.keepFault (m : Mgmt) (f : FaultRec) : Mgmt :=
  let l := m.faults ++ [f]
  { m with faults := l.drop (l.length - 16) }

/-- R440: every cluster that serves a context is saved. -/
def State.saveAll (s : State) (tag : Nat) : State :=
  s.dies.foldl (fun s d => d.2.clusters.foldl (fun s e =>
    if e.2.tag = tag then s.saveCluster d.1 e.1 else s) s) s

/-- CONTEXT_FAULT (R440): the context's images are saved, it is never runnable again, and the host is told. The record's
status, and the cause that the inventory keeps, are free values (log 14). A fault of a context already faulted adds
nothing. -/
def execContextFault (tag kind die lcore : Nat) (value : Word) (s : State) : Out :=
  match s.ctx tag with
  | none => .next s
  | some c =>
    if c.fault.isSome then .next s
    else
      let d := faultDetail kind die lcore
      let r := (s.saveAll tag).draw
      let q := r.2.draw
      let s1 := q.2.onCtx tag (fun c => { c with fault := some d })
      let f : FaultRec := { value := value, detail := d, tag := tag, cause := q.1.toNat % 2 ^ 16, secs := s1.mgmt.secs }
      let s2 : State := { s1 with mgmt := s1.mgmt.keepFault f }
      .next (s2.postEvent { seq := 0, cmd := 0x82, tag := tag, status := r.1.toNat % 2 ^ 32, value := value, detail := d })

end Sys2Proof.Machine
end

