-- ==== Sys2Proof/Machine/Contexts.lean ====
section
/-! DEFINITION. Context commands (R374, R377 to R382, R395, R396, R398): what every command passes, templates, creation
and destruction, scheduling, passes (R353), domains (R308), groups and NOTIFY; and the end of a launch (R409). Page
tables and launches have files of their own. -/

namespace Sys2Proof.Machine

/-! Every command. -/

/-- R377: a command that a path may not carry, or of a part out of service, is refused. -/
def State.permit (s : State) (c : Cmd) (code : Nat) (host window : Bool) (k : Out) : Out :=
  let may := match c.path with
    | .host => host
    | .window => window
  if may && s.inService then k else .next (s.answer c code stNOTPERM 0 0)

/-- A command of a context, which must exist (R377). -/
def State.command (s : State) (c : Cmd) (code : Nat) (host window : Bool) (k : Ctx → Out) : Out :=
  s.permit c code host window
    (match s.ctx c.tag with
     | some x => k x
     | none => .next (s.answer c code stNOCTX 0 0))

/-- A command refused for a field of a block. -/
def State.refuse (s : State) (c : Cmd) (code block off : Nat) : Out := .next (s.badField c code block off)

/-- A command performed, with its value. -/
def State.okay (s : State) (c : Cmd) (code : Nat) (value : Word) : Out := .next (s.answer c code stOK value 0)

/-- R374: the privilege of a window command's reads. -/
def cmdPriv (c : Cmd) : Priv := { mode := .s, sum := c.sstatus.getLsbD stSUM, mxr := c.sstatus.getLsbD stMXR }

/-- R374: the physical place that an address of a window command's block has. -/
def State.cmdPlace (s : State) (c : Cmd) (va : Nat) : Option (Nat × Bool) :=
  if 2 ^ 56 ≤ va ∨ inWindows va then none
  else
    match (s.ctx c.tag).bind (fun x => x.leafOf va) with
    | some l =>
      if leafRefuses l.pte l.size .load (cmdPriv c) then none
      else
        let pa := leafPlace l.pte l.size va
        if paOk pa then some (pa, l.pte.getLsbD 5) else none
    | none => none

/-- R374: a read of a window command's block, for the core that submitted it. -/
def State.windowRead (s : State) (c : Cmd) (va n : Nat) : Option (List Byte × State) :=
  (pieces va n).foldl (fun a e =>
    match a with
    | none => none
    | some (bs, s) =>
      match s.cmdPlace c e.1 with
      | some (pa, g) =>
        let q := c.src.core
        let r := s.readPhys (dieOf q) (s.core q).ptick .once (if g then 0 else c.tag) pa e.2
        some (bs ++ r.1, r.2.2)
      | none => none) (some ([], s))

/-- R374: a block that a command points to. -/
def State.cmdRead (s : State) (c : Cmd) (va n : Nat) : Option (List Byte × State) :=
  match c.path with
  | .host => s.physRead 0 va n
  | .window => s.windowRead c va n

/-- A range check of a field. -/
def outside (v lo hi : Nat) : Bool := decide (v < lo) || decide (hi < v)

/-! Frames (R314, R379, R381, R382; log 13). -/

/-- The 2 MiB frame of a number on a die; the first sixteen are the firmware's, and so are the last eight, which hold the
page tables (log 10). -/
def frameAt (die n : Nat) : Nat := die * 2 ^ 36 + (16 + n) * 2 ^ 21

/-- The number of frames of a die that contexts and templates can claim. -/
def framesOfDie : Nat := Config.framesPerDie - 24

/-- The next frames of a die never claimed before, at most k, and how far they reach. -/
def Die.freshFrames (d : Die) (die k : Nat) : List Nat :=
  ((List.range (min (k + d.withdrawn.length) (framesOfDie - d.nextFrame))).filterMap (fun j =>
    let f := frameAt die (d.nextFrame + j)
    if d.withdrawn.contains f then none else some f)).take k

/-- R381, step 4: pre-wiped frames claimed of a die's free list, or none where it has too few. -/
def State.claim (s : State) (die n : Nat) : Option (List Nat × State) :=
  let d := s.die die
  let a := d.freed.take n
  let b := d.freshFrames die (n - a.length)
  if (a ++ b).length = n then
    let next := match b.getLast? with
      | some f => (f - frameAt die 0) / 2 ^ 21 + 1
      | none => d.nextFrame
    some (a ++ b, s.onDie die (fun k => { k with freed := k.freed.drop n, nextFrame := next }))
  else none

/-- Frames claimed on each of some dies, all or none. -/
def State.claimAll (s : State) (n : Nat) : List Nat → Option (Tab (List Nat) × State)
  | [] => some ([], s)
  | d :: l =>
    match s.claim d n with
    | none => none
    | some (f, s1) => (s1.claimAll n l).map (fun r => (Tab.set r.1 d f, r.2))

/-- Frames of a die wiped and returned to its free list (R382, R389). -/
def State.freeFrames (s : State) (die : Nat) (l : List Nat) : State :=
  let s1 := l.foldl (fun s f => s.wipe f (2 ^ 21)) s
  s1.onDie die (fun d => { d with freed := d.freed ++ l.filter (fun f => !d.withdrawn.contains f) })

/-- The dies of a core table, ascending. -/
def diesOf (ctab : Tab Nat) : List Nat := sortBy (fun a b => decide (a ≤ b)) ((ctab.map (fun e => dieOf e.2)).dedup)

/-! The end of a launch (R409). -/

/-- A tick no agent of the module is beyond: at it a release of every access made so far is performed (R331). -/
def State.latestTick (s : State) : Tick :=
  let t := s.cores.foldl (fun t e => tickMax t e.2.ptick) (tickMax (tickMax s.horizon s.hostTick) s.podTick)
  s.ctxs.foldl (fun t e => e.2.jobDone.foldl (fun t j => tickMax t j.2) t) t

/-- R331: a release at .sys of what a context's tasks did: their pending stores are performed, and every line that a die
owns for it goes home (log 21). -/
def State.releaseCtx (s : State) (tag : Nat) : State :=
  let s1 := (Tab.keys s.cores).foldl (fun s c => if s.tagOf c = some tag then (s.flush c).state else s) s
  s1.dies.foldl (fun s d => d.2.owned.foldl (fun s e => if e.2.dirty && e.2.tag == tag then s.giveBack d.1 e.1 else s) s) s1

/-- R409: the done record of a launch. -/
def Launch.record (l : Launch) (n code : Nat) : List Byte :=
  bytesLE 8 n ++ bytesLE 4 code ++ bytesLE 4 l.perr ++ bytesLE 8 l.tasks ++ bytesLE 8 (2 ^ 63)

/-- R298, R409: a launch completes with a code: its done record, then LAUNCH_DONE. The kernel state that its helpers made
ends with it (R7; log 70). -/
def State.finishLaunch (s : State) (tag n code : Nat) : State :=
  match (s.ctx tag).bind (fun c => Tab.get? c.launches n) with
  | none => s
  | some l =>
    let s1 := s.releaseCtx tag
    let a := l.done.toNat
    let s2 := if a = 0 then s1
      else (List.range 4).foldl (fun s j =>
        s.physWriteAt 0 s1.latestTick (a + 8 * j) (((l.record n code).drop (8 * j)).take 8)) s1
    let s3 := ((s2.onLaunch tag n (fun l => { l with completed := true, undelivered := [] })).onCtx tag (fun c =>
      { c with lastDone := n })).endKernel tag n
    s3.postEvent { seq := 0, cmd := 0x80, tag := tag, status := code, value := BitVec.ofNat 64 n,
                   detail := BitVec.ofNat 64 l.perr }

/-- LAUNCH_COMPLETE (R298, R409): it waits for the stores that its context has issued (R328, R331). -/
def execLaunchComplete (tag launch : Nat) (s : State) : Out :=
  match (s.ctx tag).bind (fun c => Tab.get? c.launches launch) with
  | none => .next s
  | some l =>
    if launch ≠ 0 ∧ l.closed ∧ l.outstanding = 0 ∧ !l.completed then
      match s.performAll tag (Tab.keys s.cores) with
      | .ok _ s1 => .next (s1.finishLaunch tag launch ((l.fail.map Prod.snd).getD 0))
      | _ => .next s
    else .next s

/-! Destruction (R382). -/

/-- R317, R382: the lines of a context are discarded on every die, without write-back. -/
def State.discardLines (s : State) (tag : Nat) : State :=
  let s1 := s.dies.foldl (fun s d => d.2.owned.foldl (fun s e =>
    if e.2.tag = tag then s.setHome e.1 { s.homeLine e.1 with owner := none } else s) s) s
  { s1 with dies := Tab.mapVal s1.dies (fun _ d =>
      { d with owned := d.owned.filter (fun e => e.2.tag != tag), loans := d.loans.filter (fun e => e.2.tag != tag) }) }

/-- A context's work on every die is gone: its clusters, patterns, job cards and parked faults, and its entries of the
translation caches. -/
def Die.without (d : Die) (tag : Nat) : Die :=
  { d with
    clusters := d.clusters.filter (fun e => e.2.tag != tag)
    patterns := d.patterns.filter (fun p => p.tag != tag)
    jobs := d.jobs.filter (fun j => j.tag != tag)
    parked := d.parked.filter (fun p => p.tag != tag)
    lastTlb := d.lastTlb.filter (fun e => e.tag != tag)
    quadTlb := Tab.mapVal d.quadTlb (fun _ q => q.filter (fun e => e.tag != tag)) }

/-- A core without anything of a context. -/
def Core.without (k : Core) (tag : Nat) : Core :=
  let k1 : Core :=
    { k with microTlb := k.microTlb.filter (fun e => e.tag != tag)
             laneTlb := k.laneTlb.map (fun l => l.filter (fun e => e.tag != tag)) }
  if (k.serving.map Prod.fst) = some tag then k1.idle else k1

/-- Every open launch of a context completes (R382). -/
def State.endLaunches (s : State) (tag : Nat) : State :=
  match s.ctx tag with
  | none => s
  | some c => c.launches.foldl (fun s e =>
      if e.1 ≠ 0 ∧ !e.2.completed then s.finishLaunch tag e.1 0xFFFFFFFF else s) s

/-- The commands that wait behind a launch of a context that is gone, and the LAUNCH itself, are answered NO_CONTEXT
(log 35). -/
def State.dropDeferred (s : State) (c : Ctx) : State :=
  let s1 := c.launches.foldl (fun s l => match l.2.pendingCmd with
    | some q => s.answer q 0x03 stNOCTX 0 0
    | none => s) s
  c.deferred.foldl (fun s e => s.post e) s1

/-- Whether a place is the storage of a queued task of a context. -/
def CoreCell.queuedFor (tag : Nat) : CoreCell → Bool
  | .queued t _ => t == tag
  | _ => false

/-- R382: a context is destroyed; the frames of `keep` and the page-table pages of `pages` pass to a template (R379). -/
def State.destroyCtx (s : State) (tag : Nat) (keep pages : List Nat) : State :=
  match s.ctx tag with
  | none => s
  | some c =>
    let s1 := (s.endLaunches tag).discardLines tag
    let gone := (Tab.keys s1.cores).filter (fun k => s1.tagOf k == some tag)
    let s2 : State :=
      { s1 with
        dies := Tab.mapVal s1.dies (fun _ d => d.without tag)
        cores := Tab.mapVal s1.cores (fun _ k => k.without tag)
        badCore := s1.badCore.filter (fun e => !e.queuedFor tag)
        soft := s1.soft.filter (fun e => !e.queuedFor tag)
        ctxs := Tab.erase s1.ctxs tag }
    let s3 := c.held.foldl (fun s e => s.freeFrames e.1 (e.2.filter (fun f => !keep.contains f))) (s2.leaveRunning gone)
    (s3.dropTables (c.tables.filter (fun p => !pages.contains p))).dropDeferred c

/-- DESTROY (R382). -/
def execDestroy (c : Cmd) (s : State) : Out :=
  s.command c 0x02 true false (fun _ => (s.destroyCtx c.tag [] []).okay c 0x02 0)

/-! Core and route tables (R395, R396). -/

/-- R395: the fields of a core-table entry that are in error, given the entries before it. -/
def coreEntryBad (w l : Nat) (before : Tab Nat) : Bool :=
  decide (w / 2 ^ 20 % 2 ^ 11 ≠ 0) ||
    (decide (w / 2 ^ 31 = 1) &&
      (let p := w / 2 ^ 14 % 64 * 16384 + w % 2 ^ 14
       decide (p % 8 ≠ l % 8) || isManager p
         || before.any (fun e => e.2 == p || (e.1 / 8 == l / 8 && e.2 / 8 != p / 8))))

/-- R395: a core table read from its bytes, entry by entry; the offset of the first entry that breaks its rules. -/
def coreTable (l : Nat) (acc : Tab Nat) : List (List Byte) → Except Nat (Tab Nat)
  | [] => .ok acc
  | e :: t =>
    let w := natLE e
    if coreEntryBad w l acc then .error (4 * l)
    else coreTable (l + 1) (if w / 2 ^ 31 = 1 then Tab.set acc l (w / 2 ^ 14 % 64 * 16384 + w % 2 ^ 14) else acc) t

/-- Pieces of n bytes. -/
def chunksOf (n : Nat) (bs : List Byte) : Nat → List (List Byte)
  | 0 => []
  | k + 1 => bs.take n :: chunksOf n (bs.drop n) k

/-- R396: the first byte of a route table that is in error. -/
def routeError (bs : List Byte) : Option Nat :=
  firstBad ([(0, decide (63 < at_ bs 0 1)), (1, decide (63 < at_ bs 1 1)), (2, decide (191 < at_ bs 2 1))]
    ++ mustBeZero bs 3 13
    ++ (List.range 16).flatMap (fun p =>
      let o := 16 + 16 * p
      [(o, decide ((at_ bs o 1 / 2 % 2 = 1) ≠ (8 ≤ p)))] ++ mustBeZero bs (o + 6) 2 ++ mustBeZero bs (o + 12) 4))

/-- R396: a route table's ports. -/
def routesOf (bs : List Byte) : List Route :=
  (List.range 16).map (fun p =>
    let o := 16 + 16 * p
    { granted := at_ bs o 1 % 2 == 1, remote := at_ bs o 1 / 2 % 2 == 1, x := at_ bs (o + 1) 1, y := at_ bs (o + 2) 1,
      z := at_ bs (o + 3) 1, tag := at_ bs (o + 4) 2, links := BitVec.ofNat 32 (at_ bs (o + 8) 4) })

/-- The module's coordinate of a route table (R396). -/
def selfOf (bs : List Byte) : Nat × Nat × Nat := (at_ bs 0 1, at_ bs 1 1, at_ bs 2 1)

/-- A read of firmware through a template's leaves (R414). -/
def State.templateRead (s : State) (t : Template) (va n : Nat) : Option (List Byte × State) :=
  (pieces va n).foldl (fun a e =>
    match a with
    | none => none
    | some (bs, s) =>
      match t.leaves.find? (fun l => decide (l.va ≤ e.1) && decide (e.1 < l.va + l.size)) with
      | some l =>
        if l.pte.getLsbD 0 then
          (s.physRead 0 (leafPlace l.pte l.size e.1) e.2).map (fun r => (bs ++ r.1, r.2))
        else none
      | none => none) (some ([], s))

/-- R395, R414: the union of the opcode-use masks of a template's kernel table. A table whose header, or an entry which, holds a
reserved byte that is not zero is refused, and adds nothing (R15; log 36). -/
def State.tableMask (s : State) (t : Template) : Word × State :=
  match s.templateRead t kernelTable 64 with
  | none => (0, s)
  | some (h, s1) =>
    if (kernelHeaderError h).isSome then (0, s1)
    else
      (List.range (at_ h 0 4)).foldl (fun r k =>
        match r.2.templateRead t (kernelEntry k) 64 with
        | some (e, s2) => (if (kernelEntryError e).isSome then r.1 else r.1 ||| BitVec.ofNat 64 (at_ e 8 8), s2)
        | none => r) (0, s1)

/-- R395: whether a core may stand in a table that firmware makes: it has not failed, runs every class of a mask, and is no
die manager core. -/
def State.mayServe (s : State) (mask : Word) (core : Nat) : Bool :=
  !isManager core && (s.core core).crec.state == 0 && covers (s.core core).crec.caps mask

/-- R395: the table that firmware builds by default, die by die and cluster by cluster from cluster `n` of the module on,
up to a number of images; a cluster with no core left is left out. `fuel` is the clusters left. -/
def State.buildTable (s : State) (mask : Word) (images : Nat) : Nat → Nat → Nat → Tab Nat → Tab Nat
  | 0, _, _, t => t
  | fuel + 1, n, g, t =>
    if images ≤ g then t
    else
      match (List.range 8).filter (fun k => s.mayServe mask (8 * n + k)) with
      | [] => s.buildTable mask images fuel (n + 1) g t
      | ks => s.buildTable mask images fuel (n + 1) (g + 1) (ks.foldl (fun t k => Tab.set t (8 * g + k) (8 * n + k)) t)

/-- R380, R395: the core table of a context whose CREATE names none: the template's, without the cores that may not serve
its kernels; for a template that holds none, the one that firmware builds (log 36). -/
def State.defaultTable (s : State) (t : Template) : Tab Nat × State :=
  let m := s.tableMask t
  (if t.ctab.isEmpty then m.2.buildTable m.1 (t.ncores / 8) (64 * 2048) 0 0 []
   else t.ctab.filter (fun e => m.2.mayServe m.1 e.2), m.2)

/-! Creation (R380, R381). -/

/-- R380: the first byte of a parameter block that is in error. -/
def createError (bs : List Byte) (known : Bool) : Option Nat :=
  let slice := at_ bs 4 4
  firstBad ([(0, !known), (1, decide (3 < at_ bs 1 1)), (2, decide (7 < at_ bs 2 1)), (3, decide (at_ bs 3 1 ≠ 0)),
    (4, decide (slice ≠ 0) && outside slice 100 100000), (8, outside (at_ bs 8 4) 1024 262144),
    (12, outside (at_ bs 12 4) 1 2048), (16, decide (at_ bs 16 8 % 4096 ≠ 0)), (40, decide (at_ bs 40 8 % 2 ≠ 0))]
    ++ mustBeZero bs 56 8)

/-- What creation takes its tables from: a field that is in error, or the tables. -/
structure Tables where
  ctab : Tab Nat
  self : Nat × Nat × Nat
  routes : List Route

/-- R380, R395: the core table of a new context, or the block and offset in error: block 2 is the core table (log 33). -/
def State.createCores (s : State) (bs : List Byte) (t : Template) : Except (Nat × Nat) (Tab Nat × State) :=
  let a := at_ bs 24 8
  if a = 0 then .ok (s.defaultTable t)
  else
    match s.physRead 0 a (4 * t.ncores) with
    | none => .error (1, 24)
    | some (tb, s1) =>
      match coreTable 0 [] (chunksOf 4 tb t.ncores) with
      | .ok c => .ok (c, s1)
      | .error o => .error (2, o)

/-- R380, R396, R449: the route table of a new context, or the block and offset in error: block 3 is the route table (log
33). -/
def State.createRoutes (s : State) (bs : List Byte) (t : Template) :
    Except (Nat × Nat) (((Nat × Nat × Nat) × List Route) × State) :=
  let a := at_ bs 32 8
  let here (x : Nat × Nat × Nat) : Bool := (s.podmap.map (fun p => p.self == x)).getD true
  if a = 0 then (if here t.self then .ok ((t.self, t.routes), s) else .error (3, 0))
  else
    match s.physRead 0 a 272 with
    | none => .error (1, 32)
    | some (tb, s1) =>
      match routeError tb with
      | some o => .error (3, o)
      | none => if here (selfOf tb) then .ok ((selfOf tb, routesOf tb), s1) else .error (3, 0)

/-- R300: the partitions of the contexts of a die. -/
def State.partSum (s : State) (die : Nat) : Nat :=
  s.ctxs.foldl (fun n e => if (diesOf e.2.ctab).contains die then n + e.2.qpart else n) 0

/-- R381, R404: the frames that the save area's core records take of a die's pool: 128 KiB for each logical core there. -/
def saveFrames (ctab : Tab Nat) (die : Nat) : Nat := ((ctab.filter (fun e => dieOf e.2 == die)).length + 15) / 16

/-- The launch 0 of a context, and a launch as it is opened (R297, R298). -/
def Launch.init (done : Word) : Launch where
  outstanding := 0
  closed := false
  completed := false
  fail := none
  perr := 0
  tasks := 0
  done := done
  undelivered := []
  pendingCmd := none
  closing := false

/-- R381: a context as creation leaves it, but for its page tables. -/
def createdCtx (bs : List Byte) (t : Template) (tb : Tables) (pool : Tab (List Nat)) (cc : Nat) : Ctx where
  prio := at_ bs 2 1
  slice := if at_ bs 4 4 = 0 then 2000 else at_ bs 4 4
  qpart := at_ bs 8 4
  scratch := at_ bs 1 1 * 8192
  hb := BitVec.ofNat 64 (at_ bs 16 8)
  rt := BitVec.ofNat 64 (at_ bs 40 8)
  rtarg := BitVec.ofNat 64 (at_ bs 48 8)
  template := at_ bs 0 1
  ncores := t.ncores
  ctab := tb.ctab
  self := tb.self
  routes := tb.routes
  leaves := t.leaves
  root := 0
  tables := []
  pool := Tab.mapVal pool (fun d l => l.drop (saveFrames tb.ctab d))
  carve := []
  tasks := []
  nextSeq := 1
  nextLaunch := 1
  nextJob := 1
  nextToken := 1
  launches := [(0, Launch.init 0)]
  domains := []
  groups := []
  passes := []
  images := []
  placed := []
  fault := none
  residentCc := []
  unserved := (diesOf tb.ctab).map (fun d => (d, cc))
  lastDone := 0
  shadows := []
  jobDone := []
  deferred := []
  held := pool

/-- The lowest context tag that is free (R381). -/
def State.freeTag (s : State) : Option Nat :=
  ((List.range 4095).map (fun j => j + 1)).find? (fun t => (s.ctx t).isNone)

/-- R381: a context is created of a checked parameter block and its tables. Partitions that would sum above the 262,144 records
of a die (R300) are answered BUSY, and so is a module without a page-table page for the root (log 78). -/
def State.createWith (s : State) (c : Cmd) (bs : List Byte) (t : Template) (tb : Tables) : Out :=
  match s.freeTag with
  | none => .next (s.answer c 0x01 stNOTAG 0 0)
  | some tag =>
    let dies := diesOf tb.ctab
    if dies.any (fun d => decide (262144 < s.partSum d + at_ bs 8 4)) then .next (s.answer c 0x01 stBUSY 0 0)
    else if dies.any (fun d => decide (at_ bs 12 4 < saveFrames tb.ctab d)) then .next (s.answer c 0x01 stNOMEM 0 0)
    else
      match s.claimAll (at_ bs 12 4) dies with
      | none => .next (s.answer c 0x01 stBUSY 0 0)
      | some (pool, s1) =>
        match (s1.setCtx tag (createdCtx bs t tb pool s1.cc)).plantTables tag t.root with
        | some s2 => s2.okay c 0x01 (BitVec.ofNat 64 tag)
        | none => .next (s.answer c 0x01 stBUSY 0 0)

/-- CREATE (R380, R381). -/
def execCreate (c : Cmd) (s : State) : Out :=
  s.permit c 0x01 true false
    (match s.cmdRead c (c.arg 16 8) 64 with
     | none => s.refuse c 0x01 0 16
     | some (bs, s1) =>
       let t := Tab.get? s1.templates (at_ bs 0 1)
       match createError bs t.isSome, t with
       | some o, _ => s.refuse c 0x01 1 o
       | none, none => s.refuse c 0x01 1 0
       | none, some t =>
         match s1.createCores bs t with
         | .error e => s.refuse c 0x01 e.1 e.2
         | .ok (ctab, s2) =>
           match s2.createRoutes bs t with
           | .error e => s.refuse c 0x01 e.1 e.2
           | .ok (r, s3) => s3.createWith c bs t { ctab := ctab, self := r.1, routes := r.2 })

/-- SETSCHED (R377). -/
def execSetsched (c : Cmd) (s : State) : Out :=
  s.command c 0x05 true false (fun x =>
    let p := c.arg 16 4
    let sl := c.arg 20 4
    if 7 < p then s.refuse c 0x05 0 16
    else if sl ≠ 0 ∧ outside sl 100 100000 then s.refuse c 0x05 0 20
    else (s.setCtx c.tag { x with prio := p, slice := if sl = 0 then x.slice else sl }).okay c 0x05 0)

/-! Templates (R379). -/

/-- R379: whether a context has a live helper. -/
def State.hasHelper (s : State) (tag : Nat) (c : Ctx) : Bool :=
  c.ctab.any (fun e => match s.logicalImg tag e.1 with
    | some m => m.harts.any (fun h => h.1 != 0 && h.2.live)
    | none => false)

/-- R379: whether a context still has work: a live helper, a queued or taken task, or an open launch. -/
def State.ctxBusy (s : State) (tag : Nat) (c : Ctx) : Bool :=
  s.hasHelper tag c || !c.tasks.isEmpty || c.launches.any (fun l => l.1 != 0 && !l.2.completed)
    || c.ctab.any (fun e => match s.logicalImg tag e.1 with
      | some m => !m.taken.isEmpty
      | none => false)

/-- R379, R390: a shared leaf as a template keeps it: G = 1, W = 0, and C where its MAP set it. -/
def Leaf.shared (l : Leaf) : Leaf :=
  { l with pte := setBit (setBit (setBit (setBit l.pte 5 true) 2 false) 7 false) 8 l.cow }

/-- The 2 MiB frames that leaves lie in. -/
def leafFrames (l : List Leaf) : List Nat :=
  (l.flatMap (fun l =>
    if l.pte.getLsbD 0 then
      let pa := field l.pte 10 44 * 4096
      (List.range ((l.size + 2 ^ 21 - 1) / 2 ^ 21)).map (fun k => (pa / 2 ^ 21 + k) * 2 ^ 21)
    else [])).dedup

/-- Lines of leaves that dies own go home (R317). -/
def State.bringHome (s : State) (ls : List Leaf) : State :=
  ls.foldl (fun s l =>
    if l.pte.getLsbD 0 then (s.ownedIn (field l.pte 10 44 * 4096) l.size).foldl (fun s ln => s.recall ln) s else s) s

/-- R379: the tables of a source as its template keeps them: the shared leaves alone, as shared content, in pages of its own;
with the pages above those leaves, the root first. None where no page-table page is left. -/
def State.shareTables (s : State) (tag : Nat) (ls : List Leaf) : Option (List Nat × State) :=
  ((s.setLeaves tag (ls.map Leaf.shared)).bind (fun s =>
    s.writeEntries tag ((ls.map Leaf.shared).map (fun l => (l, l.pte))))).bind (fun s =>
      (s.ctx tag).map (fun c =>
        ((c.root :: ls.flatMap (fun l => s.tablesOver l.va (levelOf l.size) c.root (4 - levelOf l.size))).dedup, s)))

/-- R379: a template made of a source context with work done: its shared pages, the tables above them, and what it claims. -/
def State.makeTemplate (s : State) (tag n : Nat) (x : Ctx) (pool : Tab (List Nat)) : Option State :=
  let ls := x.leaves.filter (fun l => l.share)
  let keep := leafFrames ls
  ((s.bringHome ls).shareTables tag ls).map (fun r =>
    let s1 := r.2.destroyCtx tag keep r.1
    let t : Template :=
      { leaves := ls.map Leaf.shared, root := r.1.headD 0, tables := r.1, ncores := x.ncores, ctab := x.ctab, self := x.self,
        routes := x.routes, frames := Tab.mapVal x.held (fun _ l => l.filter (fun f => keep.contains f)), pool := pool }
    { s1 with templates := Tab.set s1.templates n t })

/-- TEMPLATE_MAKE (R379, R390). With no template number free it answers NO_TAG, and where a die has too few frames for the
claim, or the module too few page-table pages, BUSY (log 64). -/
def execTemplateMake (c : Cmd) (s : State) : Out :=
  s.permit c 0x20 true false
    (let tag := c.arg 16 4
     match s.ctx tag with
     | none => .next (s.answer c 0x20 stNOCTX 0 0)
     | some x =>
       if outside (c.arg 20 4) 1 2048 then s.refuse c 0x20 0 20
       else if s.ctxBusy tag x then .next (s.answer c 0x20 stINUSE 0 0)
       else
         match ((List.range 255).map (fun j => j + 1)).find? (fun n => (Tab.get? s.templates n).isNone) with
         | none => .next (s.answer c 0x20 stNOTAG 0 0)
         | some n =>
           match (s.claimAll (c.arg 20 4) (diesOf x.ctab)).bind (fun r => r.2.makeTemplate tag n x r.1) with
           | none => .next (s.answer c 0x20 stBUSY 0 0)
           | some s1 => s1.okay c 0x20 (BitVec.ofNat 64 n))

/-- TEMPLATE_DROP (R379). -/
def execTemplateDrop (c : Cmd) (s : State) : Out :=
  s.permit c 0x21 true false
    (let n := c.arg 16 8
     match Tab.get? s.templates n with
     | none => s.refuse c 0x21 0 16
     | some t =>
       if s.ctxs.any (fun e => e.2.template == n) then .next (s.answer c 0x21 stINUSE 0 0)
       else
         let s1 := ((t.frames ++ t.pool).foldl (fun s e => s.freeFrames e.1 e.2) s).dropTables t.tables
         ({ s1 with templates := Tab.erase s1.templates n } : State).okay c 0x21 0)

/-! Passes (R353). -/

/-- R353: the bytes of a pass's colour area. -/
def colourBytes (bs : List Byte) : Nat := 4 * (8 * 2 ^ at_ bs 8 1) ^ 2 * 2 ^ at_ bs 9 1

/-- R353, R359: the bytes of a pass's commit log. -/
def logBytes (bs : List Byte) : Nat := 128 + 16 * at_ bs 20 2

/-- R353: the first byte of a pass descriptor that is in error, for a scratchpad partition. -/
def passError (bs : List Byte) (part : Nat) : Option Nat :=
  let coff := at_ bs 12 4
  let loff := at_ bs 16 4
  let bad8 := decide (2 < at_ bs 8 1)
  let bad9 := decide (2 < at_ bs 9 1)
  let cEnd := coff + (if bad8 || bad9 then 0 else colourBytes bs)
  let lEnd := loff + logBytes bs
  firstBad ([(0, decide (at_ bs 0 4 = 0)), (4, outside (at_ bs 4 2) 1 16384), (6, outside (at_ bs 6 2) 1 16384), (8, bad8),
    (9, bad9), (10, decide (2 < at_ bs 10 1)), (11, decide (15 < at_ bs 11 1)),
    (12, decide (coff % 128 ≠ 0) || decide (part < cEnd)),
    (16, decide (loff % 128 ≠ 0) || decide (part < lEnd) || (decide (coff < lEnd) && decide (loff < cEnd))),
    (20, outside (at_ bs 20 2) 8 1024 || decide (at_ bs 20 2 % 8 ≠ 0))] ++ mustBeZero bs 22 2 ++ mustBeZero bs 32 32)

/-- The regions of a pass descriptor (R354). -/
def passRegions (bs : List Byte) : Nat :=
  let side := 8 * 2 ^ at_ bs 8 1
  ((at_ bs 4 2 + side - 1) / side) * ((at_ bs 6 2 + side - 1) / side)

/-- R353: whether the owners of a pass may own its regions. -/
def Ctx.ownersOk (c : Ctx) (l : List Nat) : Bool :=
  l.all (fun o => (c.coreOf o).isSome && !c.passes.any (fun p => p.2.owners.any (fun u => u.lcore == o)))
    && decide (l.dedup.length = l.length)

/-- R353: a pass as its open leaves it. -/
def openedPass (bs : List Byte) (owners : List Nat) (tick : Tick) : Pass where
  tickets := at_ bs 0 4
  width := at_ bs 4 2
  height := at_ bs 6 2
  region := at_ bs 8 1
  samples := at_ bs 9 1
  blend := at_ bs 10 1
  ring := at_ bs 11 1
  coff := at_ bs 12 4
  loff := at_ bs 16 4
  logn := at_ bs 20 2
  closure := 0
  accepted := []
  discards := 0
  owners := owners.mapIdx (fun k o =>
    { lcore := o, region := k, inbox := [], pos := 0, live := [], blended := [], retired := [], store := [], voids := [] })
  tick := tick
  spoiled := false
  filled := false

/-- OPEN_PASS (R353, R359, R377). -/
def execOpenPass (c : Cmd) (s : State) : Out :=
  s.command c 0x08 true true (fun x =>
    let n := c.arg 16 8
    let a := c.arg 24 8
    if 15 < n then s.refuse c 0x08 0 16
    else if (Tab.get? x.passes n).isSome then .next (s.answer c 0x08 stINUSE 0 0)
    else if a % 64 ≠ 0 then s.refuse c 0x08 0 24
    else
      match s.cmdRead c a 64 with
      | none => s.refuse c 0x08 0 24
      | some (bs, s1) =>
        match passError bs x.scratch with
        | some o => s.refuse c 0x08 1 o
        | none =>
          match s1.cmdRead c (at_ bs 24 8) (4 * passRegions bs) with
          | none => s.refuse c 0x08 1 24
          | some (ob, s2) =>
            let owners := (chunksOf 4 ob (passRegions bs)).map natLE
            if !x.ownersOk owners then s.refuse c 0x08 1 24
            else
              let s3 := s2.onCtx c.tag (fun x => { x with passes := Tab.set x.passes n (openedPass bs owners s2.horizon) })
              let s4 := owners.foldl (fun s o => s.ownerWrite c.tag o (at_ bs 16 4) (List.replicate 12 0)) s3
              s4.okay c 0x08 0)

/-- CLOSE_PASS (R356, R358, R377). A pass whose log has been broken closes with undefined colour (R359). -/
def execClosePass (c : Cmd) (s : State) : Out :=
  s.command c 0x09 true true (fun x =>
    let n := c.arg 16 8
    match Tab.get? x.passes n with
    | none => s.refuse c 0x09 0 16
    | some p =>
      if p.owners.any (fun u => !u.live.isEmpty || !u.inbox.isEmpty) then .next (s.answer c 0x09 stINUSE 0 0)
      else
        let s1 := if p.spoiled && !p.filled then s.colourUndefined c.tag n p else s
        (s1.onCtx c.tag (fun x => { x with passes := Tab.erase x.passes n })).okay c 0x09 (BitVec.ofNat 64 p.discards))

/-! Domains (R276, R308). -/

/-- R276: the number of domains of a scope; 0 for a scope that has none. -/
def domainCount (scope : Nat) : Nat :=
  match scope with
  | 2 => 1
  | 3 => 1
  | 4 => 64
  | 5 => 16
  | 6 => 4
  | _ => 0

/-- R308, R377: the scope instance by which a context knows a quad, cluster or die of the module: for a quad or cluster one
that serves the context (log 20). -/
def State.instanceOf (s : State) (c : Ctx) (tag scope n : Nat) : Option Nat :=
  match scope with
  | 4 => if n < 64 then some n else none
  | 5 => if n = 0 then some 0 else none
  | 6 => if n = 0 then some 0 else none
  | _ =>
    let w := if scope = 2 then 4 else 8
    (c.ctab.find? (fun e => e.2 / w == n && s.residentCore tag e.1 == some e.2)).map (fun e => e.1 / w)

/-- What a domain command names: scope, instance and domain, or the offset in error. -/
def State.domainArgs (s : State) (c : Cmd) (x : Ctx) : Except Nat (BitVec 3 × Nat × Nat) :=
  let sc := c.arg 16 1
  let d := c.arg 17 1
  if domainCount sc = 0 then .error 16
  else if domainCount sc ≤ d then .error 17
  else
    match s.instanceOf x c.tag sc (c.arg 24 8) with
    | some i => .ok (BitVec.ofNat 3 sc, i, d)
    | none => .error 24

/-- Whether a context holds a domain. -/
def Ctx.holdsDomain (x : Ctx) (scope : BitVec 3) (i d : Nat) : Bool :=
  x.domains.any (fun e => e.scope == scope && e.inst == i && e.dom == d)

/-- R377: whether a domain may not be allocated: a die, module or pod domain that a context has, or a quad's or cluster's
with arrivals. -/
def State.domainTaken (s : State) (x : Ctx) (scope : BitVec 3) (i d : Nat) : Bool :=
  if 4 ≤ scope.toNat then s.ctxs.any (fun e => e.2.holdsDomain scope i d)
  else ((x.domainAt scope i d).map (fun e => e.count != 0)).getD false

/-- ALLOC_DOMAIN (R308, R377). -/
def execAllocDomain (c : Cmd) (s : State) : Out :=
  s.command c 0x0A true true (fun x =>
    match s.domainArgs c x with
    | .error o => s.refuse c 0x0A 0 o
    | .ok (scope, i, d) =>
      let n := c.arg 20 4
      if outside n 1 (2 ^ 24) then s.refuse c 0x0A 0 20
      else if s.domainTaken x scope i d then .next (s.answer c 0x0A stINUSE 0 0)
      else
        (s.setCtx c.tag (x.setDomain
          { scope := scope, inst := i, dom := d, n := n, count := 0, phase := 0, tick := 0, doneTick := s.horizon })).okay c 0x0A 0)

/-- FREE_DOMAIN (R308, R377): one that the context does not hold is refused (log 34). -/
def execFreeDomain (c : Cmd) (s : State) : Out :=
  s.command c 0x0B true true (fun x =>
    match s.domainArgs c x with
    | .error o => s.refuse c 0x0B 0 o
    | .ok (scope, i, d) =>
      match x.domainAt scope i d with
      | none => s.refuse c 0x0B 0 17
      | some e =>
        if e.count ≠ 0 then .next (s.answer c 0x0B stINUSE 0 0)
        else
          (s.setCtx c.tag { x with domains := x.domains.filter (fun f =>
            !(f.scope == scope && f.inst == i && f.dom == d)) }).okay c 0x0B 0)

/-! Groups (R398) and NOTIFY (R377). -/

/-- R398: the first byte of a member list that is in error. -/
def memberError (bs : List Byte) (g : Nat) : Option Nat :=
  firstBad ((List.range g).flatMap (fun k =>
    let o := 8 * k
    [(o, decide (63 < at_ bs o 1) || decide (63 < at_ bs (o + 1) 1) || decide (191 < at_ bs (o + 2) 1)),
     (o + 3, decide (at_ bs (o + 3) 1 ≠ 0))]))

/-- R398: whether the members of a group that are the module's own are in the context's core table. -/
def Ctx.ownMembersExist (x : Ctx) (ms : List (Nat × Nat × Nat × Nat)) : Bool :=
  ms.all (fun m => (m.1, m.2.1, m.2.2.1) != x.self || (x.coreOf m.2.2.2).isSome)

/-- ALLOC_GROUP (R398): a group that is allocated is in use (log 34). A list that names an own member that does not exist
breaks an obligation for which no result is stated, and its context is contained (R14, R440), after the answer (log 34). -/
def execAllocGroup (c : Cmd) (s : State) : Out :=
  s.command c 0x0C true false (fun x =>
    let g := c.arg 16 4
    let n := c.arg 20 4
    if 255 < g then s.refuse c 0x0C 0 16
    else if outside n 2 65536 then s.refuse c 0x0C 0 20
    else if (Tab.get? x.groups g).isSome then .next (s.answer c 0x0C stINUSE 0 0)
    else
      match s.cmdRead c (c.arg 24 8) (8 * n) with
      | none => s.refuse c 0x0C 0 24
      | some (bs, s1) =>
        match memberError bs n with
        | some o => s.refuse c 0x0C 1 o
        | none =>
          let ms := (List.range n).map (fun k =>
            (at_ bs (8 * k) 1, at_ bs (8 * k + 1) 1, at_ bs (8 * k + 2) 1, at_ bs (8 * k + 4) 4))
          let s2 := s1.onCtx c.tag (fun x => { x with groups := Tab.set x.groups g { members := ms, submitted := [], rounds := 0 } })
          (if x.ownMembersExist ms then s2 else s2.post (.contextFault c.tag 6 0 0xFFFFF 0)).okay c 0x0C 0)

/-- FREE_GROUP (R377): one on which a collective has not completed is in use (log 34). -/
def execFreeGroup (c : Cmd) (s : State) : Out :=
  s.command c 0x0D true false (fun x =>
    let g := c.arg 16 8
    if (Tab.get? x.groups g).isNone then s.refuse c 0x0D 0 16
    else if s.dies.any (fun d => d.2.jobs.any (fun j => j.tag == c.tag && j.op == 3 && j.collective.group == g)) then
      .next (s.answer c 0x0D stINUSE 0 0)
    else (s.setCtx c.tag { x with groups := Tab.erase x.groups g }).okay c 0x0D 0)

/-- NOTIFY (R290, R377). -/
def execNotify (c : Cmd) (s : State) : Out :=
  s.command c 0x14 false true (fun x =>
    let l := c.arg 16 4
    if (x.coreOf l).isNone then s.refuse c 0x14 0 16
    else (s.onLogical c.tag l (fun m => { m with mip := setBit m.mip 1 true })).okay c 0x14 0)

end Sys2Proof.Machine
end

