-- ==== Sys2Proof/Machine/Pages.lean ====
section
/-! DEFINITION. The commands that change a context's page tables (R385, R388 to R393): MAP, UNMAP, PROTECT and PAGE. -/

namespace Sys2Proof.Machine

/-! MAP. -/

/-- R388: the size of the pages that MAP names. -/
def mapSize (c : Cmd) : Nat := levelSize (c.arg 42 1)

/-- Bit j of MAP's attr (R388). -/
def mapAttr (c : Cmd) (j : Nat) : Bool := c.arg 40 2 / 2 ^ j % 2 == 1

/-- Whether a range meets the ranges that a context may not map (R383). -/
def meetsReserved (va n : Nat) : Bool := decide (2 ^ 56 < va + n) || (decide (va < winBase + 2 ^ 32) && decide (winBase < va + n))

/-- Whether a leaf meets a range. -/
def Leaf.meets (l : Leaf) (va n : Nat) : Bool := decide (va < l.va + l.size) && decide (l.va < va + n)

/-- Whether a range of physical addresses leaves R314's ranges. -/
def leavesMemory (pa n : Nat) : Bool := !((paOk pa && decide (pa + n ≤ 2 ^ 42)) || (isHost pa && decide (pa + n ≤ 2 ^ 56)))

/-- R388: the offset of MAP's first argument in error. -/
def mapError (c : Cmd) (x : Ctx) : Option Nat :=
  let sz := mapSize c
  let va := c.arg 16 8
  let n := c.arg 24 8
  let pa := c.arg 32 8
  let die := c.arg 43 1
  let win := decide (c.path = .window)
  firstBad ([(16, decide (va % sz ≠ 0) || meetsReserved va n || x.leaves.any (fun l => l.meets va n)),
    (24, decide (n = 0) || decide (n % sz ≠ 0)),
    (32, decide (pa ≠ 0) && (win || decide (pa % sz ≠ 0) || leavesMemory pa n)),
    (40, (mapAttr c 6 && (mapAttr c 1 || !mapAttr c 5 || decide (1 < c.arg 42 1))) || (win && mapAttr c 5)
      || decide (c.arg 41 1 ≠ 0)),
    (42, decide (3 < c.arg 42 1)),
    (43, (decide (63 < die) && decide (die ≠ 0xFF)) || (!win && mapAttr c 7 && decide (die = 0xFF)))]
    ++ (match c.nonzero 44 20 with
        | some o => [(o, true)]
        | none => []))

/-- R385, R388: the entry of a leaf made by MAP: A = 1, D = W, G = 0; V = 0 while it waits to be backed. -/
def mapPte (c : Cmd) (pa : Nat) : Word :=
  let b (j : Nat) : Nat := if mapAttr c j then 1 else 0
  BitVec.ofNat 64 ((if pa = 0 then 0 else 1 + pa / 4096 * 2 ^ 10) + b 0 * 2 + b 1 * 4 + b 2 * 8 + b 3 * 16 + 64 + b 1 * 128
    + b 6 * 256 + b 4 * 512)

/-- R388: the leaves that MAP makes. -/
def mapLeaves (c : Cmd) : List Leaf :=
  let sz := mapSize c
  let pa := c.arg 32 8
  (List.range (c.arg 24 8 / sz)).map (fun k =>
    { va := c.arg 16 8 + k * sz, size := sz, pte := mapPte c (if pa = 0 then 0 else pa + k * sz), share := mapAttr c 5,
      cow := mapAttr c 6, alloc := decide (pa = 0), die := c.arg 43 1 })

/-- R388: the leaves of a context changed by a command, which answers NO_MEMORY, with nothing changed, where no page-table page is
left for them (log 10). -/
def State.withLeaves (s : State) (c : Cmd) (code : Nat) (new : List Leaf) (k : State → Out) : Out :=
  match s.setLeaves c.tag new with
  | some s1 => k s1
  | none => .next (s.answer c code stNOMEM 0 0)

/-- R389: leaves backed one after another, all or none. -/
def State.backAll (s : State) (tag die : Nat) : List Leaf → Option State
  | [] => some s
  | l :: t => (s.back tag l die).bind (fun s => s.backAll tag die t)

/-- MAP (R388, R389, R393). -/
def execMap (c : Cmd) (s : State) : Out :=
  s.command c 0x10 true true (fun x =>
    match mapError c x with
    | some o => s.refuse c 0x10 0 o
    | none =>
      let ls := mapLeaves c
      s.withLeaves c 0x10 (x.leaves ++ ls) (fun s1 =>
        let r := if mapAttr c 7 ∧ c.arg 32 8 = 0 then s1.backAll c.tag (dieOf c.src.core) ls else some s1
        match r with
        | none => .next (s.answer c 0x10 stNOMEM 0 0)
        | some s2 => (s2.shootdown c.tag (c.arg 16 8) (c.arg 24 8)).okay c 0x10 0))

/-! UNMAP and PROTECT. -/

/-- R185, R393: what a command that changes translations of a range does once no access under them is left; until then it
waits. -/
def State.whenQuiet (s : State) (tag va n : Nat) (e : Event) (k : State → Out) : Out :=
  match s.rangeQuiet tag va n with
  | .ok _ s1 => k s1
  | r => .next (r.state.defer tag e)

/-- Whether a leaf lies wholly in a range. -/
def Leaf.within (l : Leaf) (va n : Nat) : Bool := decide (va ≤ l.va) && decide (l.va + l.size ≤ va + n)

/-- R388: the offset in error of a range that is to apply to whole leaves. -/
def rangeError (c : Cmd) (x : Ctx) : Option Nat :=
  let va := c.arg 16 8
  let n := c.arg 24 8
  let cut := x.leaves.filter (fun l => l.meets va n && !l.within va n)
  if va % 4096 ≠ 0 then some 16
  else if n % 4096 ≠ 0 then some 24
  else if cut.any (fun l => decide (l.va ≤ va) && decide (va < l.va + l.size)) then some 16
  else if !cut.isEmpty || !x.leaves.any (fun l => l.within va n) then some 24
  else none

/-- Whether a physical address lies in a frame that a context claimed. -/
def Ctx.owns (x : Ctx) (pa : Nat) : Bool := x.held.any (fun e => e.2.contains (pa / 2 ^ 21 * 2 ^ 21))

/-- R389: memory of a leaf's size returned to a context's pool. -/
def Ctx.giveSize (x : Ctx) (pa size : Nat) : Ctx :=
  let die := homeDie pa
  if size = 4096 then { x with carve := Tab.set x.carve die (x.freePages die ++ [pa]) }
  else { x with pool := Tab.set x.pool die (x.frames die ++ runFrames pa size) }

/-- R389: the frame of a leaf that is gone is wiped before any reuse, and returns to its context's pool (log 37). A frame
of shared content, or one that the host gave, is not the context's. -/
def State.freeLeaf (s : State) (tag : Nat) (l : Leaf) : State :=
  let pa := field l.pte 10 44 * 4096
  match s.ctx tag with
  | some x =>
    if l.pte.getLsbD 0 && !pteG l.pte && isDevice pa && x.owns pa then
      (s.wipe pa l.size).onCtx tag (fun x => x.giveSize pa l.size)
    else s
  | none => s

/-- UNMAP (R388, R389, R393). -/
def execUnmap (c : Cmd) (s : State) : Out :=
  s.command c 0x11 true true (fun x =>
    match rangeError c x with
    | some o => s.refuse c 0x11 0 o
    | none =>
      let va := c.arg 16 8
      let n := c.arg 24 8
      s.whenQuiet c.tag va n (.unmap c) (fun s =>
        s.withLeaves c 0x11 (x.leaves.filter (fun l => !l.within va n)) (fun s =>
          let s1 := s.shootdown c.tag va n
          ((x.leaves.filter (fun l => l.within va n)).foldl (fun s l => s.freeLeaf c.tag l) s1).okay c 0x11 0)))

/-- R388: an entry with the permissions of PROTECT: R, W, X and U, D equal to W. -/
def protectPte (c : Cmd) (pte : Word) : Word :=
  let a := c.arg 32 1
  let b (j : Nat) : Bool := a / 2 ^ j % 2 == 1
  setBit (setBit (setBit (setBit (setBit pte 1 (b 0)) 2 (b 1)) 3 (b 2)) 4 (b 3)) 7 (b 1)

/-- PROTECT (R388, R393). -/
def execProtect (c : Cmd) (s : State) : Out :=
  s.command c 0x12 true true (fun x =>
    match rangeError c x with
    | some o => s.refuse c 0x12 0 o
    | none =>
      let va := c.arg 16 8
      let n := c.arg 24 8
      if c.arg 32 1 / 2 % 2 = 1 ∧ x.leaves.any (fun l => l.within va n && (pteC l.pte || pteG l.pte)) then
        s.refuse c 0x12 0 32
      else
        s.whenQuiet c.tag va n (.protect c) (fun s =>
          let ls := x.leaves.map (fun l => if l.within va n then { l with pte := protectPte c l.pte } else l)
          s.withLeaves c 0x12 ls (fun s => (s.shootdown c.tag va n).okay c 0x12 0)))

/-! PAGE. -/

/-- The kind of access that PAGE names (R377). -/
def pageKind (k : Nat) : Option AccKind :=
  match k with
  | 0 => some .load
  | 1 => some .store
  | 2 => some .fetch
  | _ => none

/-- R391: the privilege of the faulting access: SPP, SUM and MXR at submission. -/
def faultPriv (c : Cmd) : Priv := { (cmdPriv c) with mode := if c.sstatus.getLsbD stSPP then .s else .u }

/-- R391: the status of a reply. -/
def PageReply.status : PageReply → Nat
  | .ok => stOK
  | .fatal => stFATAL
  | .noMemory => stNOMEM

/-- R391: a hardware context, not a control context, whose PAGE has failed must end its task (R14). -/
def State.noteFailure (s : State) (c : Cmd) (r : PageReply) : State :=
  if r ≠ .ok ∧ c.src.h ≠ 0 ∧ s.tagOf c.src.core = some c.tag then s.onHart c.src (fun t => { t with endTask := true }) else s

/-- PAGE (R389 to R391, R393). -/
def execPage (c : Cmd) (s : State) : Out :=
  s.command c 0x13 false true (fun _ =>
    match pageKind (c.arg 24 8) with
    | none => s.refuse c 0x13 0 24
    | some k =>
      match s.quietAt c.tag (c.arg 16 8) with
      | .ok _ s1 =>
        let r := s1.service c.tag k (c.arg 16 8) (faultPriv c) (dieOf c.src.core)
        .next ((r.2.answer c 0x13 r.1.status 0 0).noteFailure c r.1)
      | q => .next (q.state.defer c.tag (.page c)))

end Sys2Proof.Machine
end

