-- ==== Sys2Proof/Machine/Launches.lean ====
section
/-! DEFINITION. LAUNCH and the delivery of its roots (R298, R300, R407, R408). -/

namespace Sys2Proof.Machine

/-- R407: the first byte of a launch descriptor that is in error; `open'` says that its launch field is 0 or names a launch
once opened. -/
def launchError (bs : List Byte) (open' : Bool) : Option Nat :=
  firstBad ([(0, decide (at_ bs 0 8 % 64 ≠ 0)), (8, decide (2 ^ 24 < at_ bs 8 4)), (12, decide (1 < at_ bs 12 4)), (16, !open'),
    (32, decide (at_ bs 32 8 % 32 ≠ 0))] ++ mustBeZero bs 40 24)

/-- R408: where root i goes: its die, and one more than the quad of its local queue. -/
def Ctx.rootQueue (x : Ctx) (i : Nat) (place : Option Nat) : Nat × Nat :=
  match place.bind (fun l => (x.coreOf l).map (fun p => (dieOf p, l / 4 + 1))) with
  | some r => r
  | none =>
    let d := diesOf x.ctab
    (d.getD (i % d.length) 0, 0)

/-- R407: the root records read and checked, each with the facts of its kernel; or the offset in error. `i` is the number
of the first. -/
def State.readRoots (s : State) (tag i : Nat) : List (List Byte) → Except Nat (List (TaskRec × KernelFacts) × State)
  | [] => .ok ([], s)
  | bs :: l =>
    match taskError (2 ^ 32) bs with
    | some o => .error (64 * i + o)
    | none =>
      match s.engineKernel 0 tag s.horizon (at_ bs 16 4) with
      | .ok e s1 =>
        match s1.readRoots tag (i + 1) l with
        | .error o => .error o
        | .ok (t, s2) => .ok ((taskRecOf bs, kernelFactsOf e) :: t, s2)
      | _ => .error (64 * i + 16)

/-- R407: the place entry of a root: none where it is 0xFFFFFFFF. -/
def placeOf (w : Nat) : Option Nat := if w = 0xFFFFFFFF then none else some w

/-- R407: the first place entry that is in error. -/
def Ctx.placeError (x : Ctx) (ps : List Nat) : Option Nat :=
  (List.range ps.length).findSome? (fun i =>
    match placeOf (ps.getD i 0) with
    | some l => if (x.coreOf l).isNone then some (4 * i) else none
    | none => none)

/-- R407, R408: the roots of a LAUNCH join its launch, and their delivery moves next. The done address counts when the
launch opens (log 57). -/
def State.openLaunch (s : State) (c : Cmd) (bs : List Byte) (roots : List (TaskRec × KernelFacts)) (ps : List Nat) : State :=
  match s.ctx c.tag with
  | none => s
  | some x =>
    let old := at_ bs 16 8
    let n := if old = 0 then x.nextLaunch else old
    let done := BitVec.ofNat 64 (at_ bs 32 8)
    let l := (Tab.get? x.launches n).getD (Launch.init done)
    let ud := roots.mapIdx (fun i r =>
      let q := x.rootQueue i ((ps[i]?).bind placeOf)
      (r.1, r.2, q.1, q.2))
    let l1 : Launch :=
      { l with undelivered := l.undelivered ++ ud, pendingCmd := some c, closing := at_ bs 12 4 % 2 == 1 }
    (s.setCtx c.tag { x with launches := Tab.set x.launches n l1, nextLaunch := if old = 0 then x.nextLaunch + 1 else x.nextLaunch }).post
      (.launchDelivery c.tag n)

/-- R407: a LAUNCH whose descriptor is in order: its roots and places are read and checked. -/
def State.launchWith (s : State) (c : Cmd) (x : Ctx) (bs : List Byte) (s1 : State) : Out :=
  let k := at_ bs 8 4
  match s1.cmdRead c (at_ bs 0 8) (64 * k) with
  | none => s.refuse c 0x03 1 0
  | some (rb, s2) =>
    match s2.readRoots c.tag 0 (chunksOf 64 rb k) with
    | .error o => s.refuse c 0x03 2 o
    | .ok (roots, s3) =>
      if at_ bs 24 8 = 0 then .next (s3.openLaunch c bs roots [])
      else
        match s3.cmdRead c (at_ bs 24 8) (4 * k) with
        | none => s.refuse c 0x03 1 24
        | some (pb, s4) =>
          let ps := (chunksOf 4 pb k).map natLE
          match x.placeError ps with
          | some o => s.refuse c 0x03 3 o
          | none => .next (s4.openLaunch c bs roots ps)

/-- LAUNCH (R407, R408): it completes when its roots have been delivered. -/
def execLaunch (c : Cmd) (s : State) : Out :=
  s.command c 0x03 true false (fun x =>
    match s.cmdRead c (c.arg 16 8) 64 with
    | none => s.refuse c 0x03 0 16
    | some (bs, s1) =>
      let old := at_ bs 16 8
      match launchError bs (old == 0 || (Tab.get? x.launches old).isSome) with
      | some o => s.refuse c 0x03 1 o
      | none =>
        if ((Tab.get? x.launches old).map (fun l => decide (old ≠ 0) && (l.closed || l.completed))).getD false then
          .next (s.answer c 0x03 stINUSE 0 0)
        else s.launchWith c x bs s1)

/-- R414, R15: the facts of a root's kernel, read at its delivery on its die: none where the entry read then is not in the
table or holds a reserved value. An entry that meets a page fault leaves the facts that LAUNCH read (log 49). -/
def State.deliveryFacts (s : State) (die tag : Nat) (r : TaskRec) (f : KernelFacts) : Option (KernelFacts × State) :=
  match s.engineKernel die tag s.horizon r.kernel.toNat with
  | .ok e s1 => some (kernelFactsOf e, s1)
  | .page _ => some (f, s)
  | .absent => none

/-- R408, R414, R15: a root of a launch is delivered: it is queued at its die or quad, or refused as a placement error where
its kernel's entry cannot be taken (log 49). -/
def State.deliverRoot (s : State) (tag launch : Nat) (r : TaskRec) (f : KernelFacts) (die q : Nat) : State :=
  match s.deliveryFacts die tag r f with
  | some (g, s1) => (s1.submit tag die (if q = 0 then none else some (q - 1)) (newTask r g launch die)).2
  | none => s.placementError tag (newTask r f launch die) false

/-- LAUNCH_DELIVERY (R300, R298, R408, R414): the next root of a launch is queued, or delivery waits for its die's
partition; when none is left, the LAUNCH completes, and may close the launch. -/
def execLaunchDelivery (tag launch : Nat) (s : State) : Out :=
  match s.ctx tag with
  | none => .next s
  | some x =>
    match Tab.get? x.launches launch with
    | none => .next s
    | some l =>
      match l.undelivered with
      | (r, f, die, q) :: rest =>
        if x.partFull die false then .next s
        else
          let s1 := s.onLaunch tag launch (fun l => { l with undelivered := rest })
          let s2 := s1.deliverRoot tag launch r f die q
          .next ((s2.post (.launchDelivery tag launch)).post (.contextRunnable tag die))
      | [] =>
        match l.pendingCmd with
        | none => .next s
        | some c =>
          let s1 := s.answer c 0x03 stOK (BitVec.ofNat 64 launch) 0
          let s2 := s1.onLaunch tag launch (fun l => { l with pendingCmd := none, closed := l.closed || l.closing })
          .next (s2.checkLaunch tag launch)

end Sys2Proof.Machine
end

