-- ==== Sys2Proof/Machine/Repair.lean ====
section
/-! DEFINITION. Fencing, sentinels, shadow copies, scrubs and links (R432 to R441): the steps that firmware takes with no
instruction. What a sentinel finds, and what a scrub has corrected, come with the step. -/

namespace Sys2Proof.Machine

/-! Cores. -/

/-- The tag of the context that a cluster serves. -/
def State.clusterTag (s : State) (die k : Nat) : Option Nat := (Tab.get? (s.die die).clusters k).map Cluster.tag

/-- R434: the image of a core's cluster is saved, and its context asks its die for a cluster. A save that must wait (R328)
is left to the cluster's SLICE_END. -/
def State.moveImage (s : State) (core : Nat) : State :=
  let die := dieOf core
  match s.clusterTag die (clusterOf core) with
  | some t =>
    if s.canSave die (clusterOf core) then (s.saveCluster die (clusterOf core)).post (.contextRunnable t die)
    else s.finishCluster die (clusterOf core)
  | none => s

/-- CORE_FAILED (R434): a serving core is marked failed, and its image moves. -/
def execCoreFailed (core : Nat) (s : State) : Out :=
  if (s.core core).crec.state = 0 then
    .next ((s.onCore core (fun k => { k with crec := { k.crec with state := 1 } })).moveImage core)
  else .next s

/-- The mask of one class. -/
def classMask (cls : Nat) : Word := BitVec.ofNat 64 (2 ^ (cls % 64))

/-- R434: a pass of the sentinel of a class that is fenced, and not for good, is counted, up to three. -/
def CoreRec.sentinelPass (r : CoreRec) (cls : Nat) : CoreRec :=
  if r.caps.getLsbD cls || r.perm.getLsbD cls then r
  else { r with streak := Tab.set r.streak cls (min 3 (Tab.getD r.streak cls 0 + 1)) }

/-- R434: a failure fences the classes, and ends a run of passes. -/
def CoreRec.sentinelFail (mask : Word) (r : CoreRec) : CoreRec :=
  { (CoreRec.fence mask r) with streak := r.streak.filter (fun e => !mask.getLsbD e.1) }

/-- R434: whether the record of a core lets a class come back: its sentinel has passed three times since it was fenced, or
the class still runs. -/
def CoreRec.mayRestore (r : CoreRec) (cls : Nat) : Bool :=
  r.caps.getLsbD cls || (!r.perm.getLsbD cls && Tab.getD r.streak cls 0 == 3)

/-- R433, R434: whether a class may come back to a core: after its own three passes; a matrix class, which changes for the
eight cores of the cluster at once, after those of each of them that serves (log 68). -/
def State.mayRestore (s : State) (core cls : Nat) : Bool :=
  (s.core core).crec.mayRestore cls &&
    (!matrixClasses.getLsbD cls || (List.range 8).all (fun k =>
      let r := (s.core (core / 8 * 8 + k)).crec
      r.state != 0 || r.mayRestore cls))

/-- SENTINEL_RUN (R434, R435): the scheduled test of a class of a core; its visit pre-empts the cluster. -/
def execSentinelRun (core cls : Nat) (passed : Bool) (s : State) : Out :=
  let c := cls % 64
  let s1 := s.moveImage core
  if passed then
    let s2 := s1.putRec core ((s1.core core).crec.sentinelPass c)
    .next (if !(s2.core core).crec.caps.getLsbD c && s2.mayRestore core c then s2.setCaps core (classMask c) CoreRec.restore else s2)
  else .next (s1.setCaps core (classMask c) CoreRec.sentinelFail)

/-- QUARANTINE_SENTINEL (R435): a quarantined class passes, and the quarantine is lifted, or fails, and is fenced. -/
def execQuarantineSentinel (core cls : Nat) (passed : Bool) (s : State) : Out :=
  let c := cls % 64
  if (s.core core).crec.quar.getLsbD c then
    let s1 := s.moveImage core
    .next (s1.setCaps core (classMask c) (fun mask r =>
      CoreRec.lift mask (if passed then r else CoreRec.sentinelFail mask r)))
  else .next s

/-- CORR_HOUR_END (R432, R438): a core that has reached 16 corrected errors has failed; each core's count starts anew. -/
def execCorrHourEnd (s : State) : Out :=
  let worn := (s.cores.filter (fun e => decide (16 ≤ e.2.crec.corr))).map Prod.fst
  let s1 : State := { s with cores := Tab.mapVal s.cores (fun _ k => { k with crec := { k.crec with corr := 0 } }) }
  .next (worn.foldl (fun s c => s.post (.coreFailed c)) s1)

/-! Shadow copies. -/

/-- R437: a shadow copy of a die that has waited for more than 2^20 resident cc. -/
def Ctx.staleShadow (c : Ctx) (die : Nat) (r : Shadow) : Bool :=
  r.die == die && r.copy.isNone && decide (2 ^ 20 < c.residentAt die - r.since)

/-- R437: the stale shadow copies of a die dropped. -/
def Ctx.dropShadows (c : Ctx) (die : Nat) : Ctx :=
  let stale := (c.shadows.filter (fun r => c.staleShadow die r)).map Shadow.seq
  { c with shadows := c.shadows.filter (fun r => !c.staleShadow die r)
           tasks := c.tasks.filter (fun t => !t.shadow || !stale.contains t.seq) }

/-- SHADOW_DROP (R437). -/
def execShadowDrop (die : Nat) (s : State) : Out :=
  .next { s with ctxs := Tab.mapVal s.ctxs (fun _ c => c.dropShadows die) }

/-- SHADOW_SEED_CHANGE (R437). -/
def execShadowSeedChange (die seed : Nat) (s : State) : Out :=
  .next (s.onDie die (fun d => { d with seed := seed % 2 ^ 20 }))

/-! Scrubs. -/

/-- R440: a frame withdrawn from its die's free list and from the pools of templates. -/
def State.withdraw (s : State) (die f : Nat) : State :=
  { (s.onDie die (fun d =>
      { d with freed := d.freed.filter (fun g => g != f), withdrawn := if d.withdrawn.contains f then d.withdrawn else f :: d.withdrawn })) with
    templates := Tab.mapVal s.templates (fun _ t => { t with pool := Tab.mapVal t.pool (fun _ l => l.filter (fun g => g != f)) }) }

/-- R440: uncorrectable data that a scrub meets in a line of a die: the context that claimed its frame takes a context
fault of kind 5; a free or shared frame is withdrawn (log 38). -/
def State.scrubBad (s : State) (die ln : Nat) : State :=
  let f := ln * 128 / 2 ^ 21 * 2 ^ 21
  match s.ctxs.find? (fun e => e.2.held.any (fun h => h.2.contains f)) with
  | some e => s.post (.contextFault e.1 5 die 0xFFFFF (BitVec.ofNat 64 (ln * 128)))
  | none => s.withdraw die f

/-- HBM_SCRUB (R438, R440). -/
def execHbmScrub (die corrected : Nat) (s : State) : Out :=
  let s1 := s.onDie die (fun d => { d with corrected := d.corrected + corrected })
  .next ((s.bad.filter (fun ln => isDevice (ln * 128) && homeDie (ln * 128) == die)).foldl (fun s ln => s.scrubBad die ln) s1)

/-- L2_SCRUB (R438): corrected errors are counted; a loaned or clean copy that cannot be corrected is discarded. -/
def execL2Scrub (die corrected : Nat) (s : State) : Out :=
  .next (s.onDie die (fun d =>
    { d with corrected := d.corrected + corrected, loans := d.loans.filter (fun e => !s.bad.contains e.1) }))

/-! Links. -/

/-- LINK_RETRY (R438): a flit is sent again; timing only, but for the count. After the sixteenth retry of one flit the link
is taken down; a link carries one flit at a time, and the retries that come with no other step of the link between them are
one flit's (log 69). -/
def execLinkRetry (link : Nat) (s : State) : Out :=
  let n := Tab.getD s.tries link 0 + 1
  let s1 : State := { s with retries := s.retries + 1, tries := Tab.set s.tries link n }
  .next (if 16 ≤ n then s1.post (.linkDown link) else s1)

/-- LINK_DOWN (R438, R441): a link is taken down. Links 0 to 31 are the pod-link ports; any other number is a die-to-die
link, around which traffic is routed. -/
def execLinkDown (link : Nat) (s : State) : Out :=
  let s1 : State := { s with tries := Tab.erase s.tries link }
  if s1.linksDown.contains link then .next s1 else .next { s1 with linksDown := link :: s1.linksDown }

/-- CXL_LINK_DOWN (R438): the link is reported down to the host. -/
def execCxlLinkDown (s : State) : Out := .next { s with cxlDown := true }

end Sys2Proof.Machine
end

