-- ==== Sys2Proof/Machine/Device.lean ====
section
/-! DEFINITION. Device life (R443 to R457): the management registers, reset and start, re-synchronisation and the
inventory, attestation, firmware and the life cycle, power and heat. -/

namespace Sys2Proof.Machine

/-! Reset (R7, R446). -/

/-- A core after a reset: its record is kept in the device store (R7, R432), and its capmask is 0 until the record is loaded
(R431). -/
def Core.afterReset (k : Core) (c : Nat) : Core := { Core.init c with crec := k.crec }

/-- A die after a reset: the silicon keeps its temperature, and the count of its errors outlives the reset (R7). -/
def Die.afterReset (d : Die) : Die := { Die.init with temp := d.temp, throttled := d.throttled, corrected := d.corrected }

/-- R454: the device store after a reset: a staged image runs, and with it its errata mask (R442). -/
def Store.afterReset (k : Store) : Store :=
  match k.staged with
  | some (i, v, sv) => { k with running := i, version := v, svn := sv, staged := none, errata := Config.imageErrata i }
  | none => k

/-- R446: the module after a reset with a cause, in a life-cycle state; a reset that ends a thermal stop reports 5
(R457). The module's own memory is wiped, and the host's is not. The counts of errors and the device store outlive the reset
(R7, R453), and so does what the silicon and its cells are (log 67). -/
def State.resetWith (s : State) (rcause lcs : Nat) : State :=
  { State.reset with
    mem := s.mem.filter (fun e => !isDevice e.1)
    cores := Tab.mapVal s.cores (fun c k => k.afterReset c)
    dies := Tab.mapVal s.dies (fun _ d => d.afterReset)
    mgmt := Mgmt.init (if s.mgmt.therm then 5 else rcause) lcs
    devStore := s.devStore.afterReset
    retries := s.retries
    uncorrected := s.uncorrected
    bad := s.bad
    badCore := s.badCore
    soft := s.soft
    faulty := s.faulty
    defects := s.defects
    fresh := s.fresh
    hold := s.hold
    agenda := [.resetComplete] }

/-- R457: whether a reset is let through: under a thermal stop only once every die is below 70 °C. -/
def State.resetAllowed (s : State) : Bool := !s.mgmt.therm || s.dies.all (fun d => decide (d.2.temp < 70 * 16))

/-- RESET (R445, R446, R457). -/
def execReset (s : State) : Out := if s.resetAllowed then .next (s.resetWith 2 s.mgmt.lcs) else .next s

/-- CXL_RESET (R446, R457). -/
def execCxlReset (s : State) : Out := if s.resetAllowed then .next (s.resetWith 3 s.mgmt.lcs) else .next s

/-- POWER_ON (R446). -/
def execPowerOn (s : State) : Out := .next (s.resetWith 1 s.mgmt.lcs)

/-- R434, R435, R446: self test, on every class of every core: what it finds failing is fenced, and a core whose scalar
pipeline fails is marked failed. What a core's silicon fails is State.defects (log 39). -/
def State.selfTest (s : State) : State :=
  s.defects.foldl (fun s d =>
    if d.2 < 64 then s.setCaps d.1 (classMask d.2) CoreRec.sentinelFail
    else s.onCore d.1 (fun k => { k with crec := { k.crec with state := if k.crec.state = 0 then 1 else k.crec.state } })) s

/-- RESET_COMPLETE (R446): self test has run, every capmask is written from its record, and READY is set. -/
def execResetComplete (s : State) : Out :=
  if s.mgmt.ready then .next s
  else
    let s1 := s.selfTest
    .next { s1 with
      cores := Tab.mapVal s1.cores (fun _ k => { k with capmask := k.crec.running })
      mgmt := { s1.mgmt with ready := true } }

/-! Negotiation (R427, R447, R449). -/

/-- FEAT_OFFER (R443, R447). -/
def State.featOffer (s : State) : Word := if s.inService then 0x1FF#64 else 0

/-- Whether a coordinate lies in the torus (R449). -/
def inTorus (x : Nat × Nat × Nat) : Bool := decide (x.1 < 64) && decide (x.2.1 < 64) && decide (x.2.2 < 192)

/-- A coordinate of three bytes. -/
def coordAt (bs : List Byte) (o : Nat) : Nat × Nat × Nat := (at_ bs o 1, at_ bs (o + 1) 1, at_ bs (o + 2) 1)

/-- R449: a pod map read from its bytes; none where it is refused. -/
def podMapOf (bs : List Byte) : Option PodMap :=
  let ports := List.range 32
  let present (p : Nat) : Bool := at_ bs (19 + 8 * p) 1 % 2 == 1
  if (nonzeroIn bs 3 13).isNone && inTorus (coordAt bs 0)
      && ports.all (fun p => decide (at_ bs (19 + 8 * p) 1 < 2) && (nonzeroIn bs (20 + 8 * p) 4).isNone && inTorus (coordAt bs (16 + 8 * p)))
  then some { self := coordAt bs 0, links := (ports.filter present).map (fun p => (p, coordAt bs (16 + 8 * p))) }
  else none

/-- START (R445, R447). -/
def State.start (s : State) : State :=
  if s.mgmt.ready ∧ !s.mgmt.started then
    let f := s.mgmt.featReq &&& s.featOffer
    let r : Option PodMap × State :=
      if s.mgmt.podmap = 0 then (none, s)
      else
        match s.physRead 0 (hostPa s.mgmt.podmap.toNat) 272 with
        | some (bs, s1) => (podMapOf bs, s1)
        | none => (none, s)
    let f1 := if r.1.isSome then f else setBit f 7 false
    { r.2 with podmap := r.1, mgmt := { s.mgmt with featSet := f1, started := true } }
  else s

/-- START (R445, R447). -/
def execStart (s : State) : Out := .next s.start

/-! Registers (R443). -/

/-- POWERCAP (R443). -/
def State.setPowercap (s : State) (v : Word) : State :=
  if s.mgmt.started then { s with mgmt := { s.mgmt with powercap := max 50 (min 300 (field v 0 16)) } } else s

/-- POWERCAP (R443). -/
def execPowercap (v : Word) (s : State) : Out := .next (s.setPowercap v)

/-- QEN (R445, R446, R448). -/
def State.setQen (s : State) (on : Bool) : State :=
  if s.mgmt.started then { s with mgmt := { s.mgmt with qen := on } } else s

/-- QEN (R445, R446, R448). -/
def execQen (on : Bool) (s : State) : Out := .next (s.setQen on)

/-- STATUS (R444). -/
def Mgmt.statusWord (m : Mgmt) : Word :=
  BitVec.ofNat 64 (m.lcs % 8 + m.ready.toNat * 2 ^ 4 + m.started.toNat * 2 ^ 5 + m.rsb.toNat * 2 ^ 6 + m.therm.toNat * 2 ^ 7
    + m.rcause % 256 * 2 ^ 8)

/-- What CONTROL reads (R445): RESET reads 0. -/
def Mgmt.controlWord (m : Mgmt) : Word := BitVec.ofNat 64 (m.started.toNat + m.qen.toNat * 2 + m.rsb.toNat * 4)

/-- FWVER (R443). -/
def Store.fwver (k : Store) : Nat := k.version.toNat + k.svn.toNat * 2 ^ 32

/-- TEMP (R443): the hottest die's temperature and its number, the lowest of several. -/
def State.tempWord (s : State) : Word :=
  let h := (List.range 64).foldl (fun (a : Nat × Nat) d => if a.1 < (s.die d).temp then ((s.die d).temp, d) else a) ((s.die 0).temp, 0)
  BitVec.ofNat 64 (h.1 % 2 ^ 16 + h.2 * 2 ^ 16)

/-- A dword of SHADOW (R443): the bits of 64 tags from a first one. -/
def shadowWord (t : Tab Bool) (first : Nat) : Word :=
  BitVec.ofNat 64 ((List.range 64).foldl (fun n j => n + (if Tab.getD t (first + j) false then 2 ^ j else 0)) 0)

/-- IDENT (R443). -/
def identWord : Word := 0x0001

/-- What the register at an offset of the management block reads (R443, R446): before START only some are there, and what
is not listed reads zero. -/
def State.readRegister (s : State) (off : Nat) : Word :=
  let m := s.mgmt
  match off with
  | 0x000 => identWord
  | 0x008 => m.statusWord
  | 0x018 => s.featOffer
  | 0x020 => m.featReq
  | 0x080 => m.podmap
  | _ =>
    if !m.started then 0
    else
      match off with
      | 0x010 => m.controlWord
      | 0x028 => m.featSet
      | 0x030 => m.cmdqBase
      | 0x038 => m.cmdqSize
      | 0x040 => m.cmdqTail.setWidth 64
      | 0x048 => m.cmdqHead.setWidth 64
      | 0x050 => m.cplqBase
      | 0x058 => m.cplqSize
      | 0x060 => m.cplqHead.setWidth 64
      | 0x068 => m.cplqTail.setWidth 64
      | 0x070 => m.invAddr
      | 0x078 => m.invSize
      | 0x088 => BitVec.ofNat 64 m.powercap
      | 0x090 => BitVec.ofNat 64 m.power
      | 0x098 => BitVec.ofNat 64 m.oppoint
      | 0x0A0 => s.tempWord
      | 0x0A8 => s.devStore.errata
      | 0x0B0 => BitVec.ofNat 64 s.devStore.fwver
      | _ => if 0x200 ≤ off ∧ off < 0x400 ∧ off % 8 = 0 then shadowWord m.shadow (8 * (off - 0x200)) else 0

/-- A ring size that R443 allows. -/
def ringSizeOk (v : Word) : Bool := (List.range 11).any (fun k => v == BitVec.ofNat 64 (2 ^ (k + 6)))

/-- R443, R437: a dword of SHADOW written: 64 tags from a first one; tag 0 stays clear. -/
def shadowWrite (t : Tab Bool) (first : Nat) (v : Word) : Tab Bool :=
  (List.range 64).foldl (fun t j =>
    if first + j = 0 then t else Tab.put t (first + j) (if v.getLsbD j then some true else none)) t

/-- R443: a write of a management register other than CONTROL and POWERCAP. A base keeps its low bits zero, and a ring
size that is not allowed is ignored (log 40). -/
def Mgmt.write (m : Mgmt) (off : Nat) (v : Word) : Mgmt :=
  match off with
  | 0x030 => if m.qen then m else { m with cmdqBase := v &&& ~~~0xFFF#64 }
  | 0x038 => if m.qen || !ringSizeOk v then m else { m with cmdqSize := v }
  | 0x040 => { m with cmdqTail := v.setWidth 32 }
  | 0x050 => if m.qen then m else { m with cplqBase := v &&& ~~~0xFFF#64 }
  | 0x058 => if m.qen || !ringSizeOk v then m else { m with cplqSize := v }
  | 0x060 => { m with cplqHead := v.setWidth 32 }
  | 0x070 => { m with invAddr := v &&& ~~~0x3F#64 }
  | 0x078 => { m with invSize := v }
  | _ => if 0x200 ≤ off ∧ off < 0x400 ∧ off % 8 = 0 then { m with shadow := shadowWrite m.shadow (8 * (off - 0x200)) v } else m

/-! Re-synchronisation (R450, R451). -/

/-- Whether a command of the host that has been read is still to be performed. -/
def State.commandsOpen (s : State) : Bool :=
  s.agenda.any hostStep || s.ctxs.any (fun e => e.2.deferred.any hostStep || e.2.launches.any (fun l => l.2.pendingCmd.isSome))

/-- The tasks taken by the cores of a context, resident or saved. -/
def State.takenCount (s : State) (tag : Nat) (c : Ctx) : Nat :=
  c.ctab.foldl (fun n e => n + ((s.logicalImg tag e.1).map (fun m => m.taken.length)).getD 0) 0

/-- R451: the entry of a context. -/
def State.inventoryEntry (s : State) (tag : Nat) (c : Ctx) : List Byte :=
  let images := s.dies.foldl (fun n d => n + (d.2.clusters.filter (fun e => e.2.tag == tag)).length) 0
  let opened := (c.launches.filter (fun l => l.1 != 0 && !l.2.completed)).length
  let queued := (c.tasks.filter (fun t => t.heldBy.isNone)).length
  let held := (c.tasks.filter (fun t => t.heldBy.isSome)).length
  let jobs := s.dies.foldl (fun n d => n + (d.2.jobs.filter (fun j => j.tag == tag)).length) 0
  let pats := s.dies.foldl (fun n d => n + (d.2.patterns.filter (fun p => p.tag == tag)).length) 0
  let passes := c.passes.foldl (fun n p => n + 2 ^ p.1) 0
  bytesLE 2 tag ++ bytesLE 1 (if c.fault.isSome then 2 else if images = 0 then 1 else 0) ++ bytesLE 1 c.prio ++ bytesLE 4 images
    ++ bytesLE 4 opened ++ bytesLE 4 queued ++ bytesLE 4 (s.takenCount tag c) ++ bytesLE 4 held ++ bytesLE 4 jobs
    ++ bytesLE 4 pats ++ bytesLE 2 passes ++ bytesLE 2 0 ++ bytesLE 4 c.slice ++ bytesLE 8 c.lastDone ++ List.replicate 16 0

/-- R451: the bytes of one of the last faults. -/
def FaultRec.bytes (f : FaultRec) : List Byte :=
  bytesLE 8 f.value.toNat ++ bytesLE 8 f.detail.toNat ++ bytesLE 2 f.tag ++ bytesLE 2 f.cause ++ bytesLE 4 0 ++ bytesLE 8 f.secs

/-- The cores of the module that are no die manager core (R1, R2). -/
def programCores : Nat := 64 * (16384 - 16)

/-- R451: the counts of cores, and of cores with each class fenced. -/
def State.coreCounts (s : State) : List Byte :=
  let n (p : CoreRec → Bool) : Nat := (s.cores.filter (fun e => p e.2.crec)).length
  let failed := n (fun r => r.state == 1)
  bytesLE 4 (programCores - failed) ++ bytesLE 4 failed ++ bytesLE 4 (n (fun r => r.caps != BitVec.allOnes 64))
    ++ bytesLE 4 (n (fun r => r.quar != 0))
    ++ (List.range 64).flatMap (fun c => bytesLE 4 (n (fun r => !r.caps.getLsbD c)))

/-- R451: the error counts. -/
def State.errorCounts (s : State) : List Byte :=
  let corrected := s.dies.foldl (fun n d => n + d.2.corrected) 0
  let uncorrectable := s.cores.foldl (fun n c => n + c.2.crec.uncorr) s.uncorrected
  let down := (s.linksDown.filter (fun p => decide (p < 32))).foldl (fun n p => n + 2 ^ p) 0
  bytesLE 8 corrected ++ bytesLE 8 uncorrectable ++ bytesLE 8 s.retries ++ bytesLE 8 down

/-- R450, R451: the inventory, cut at a whole context entry. -/
def State.inventory (s : State) : List Byte :=
  let m := s.mgmt
  let all := s.ctxs.length
  let n := min all ((m.invSize.toNat - 864) / 64)
  let flags := (if n < all then 1 else 0) + (if m.therm then 2 else 0)
  bytesLE 4 1 ++ bytesLE 4 (864 + 64 * n) ++ bytesLE 8 m.featSet.toNat ++ bytesLE 8 s.devStore.errata.toNat
    ++ bytesLE 4 s.devStore.version.toNat ++ bytesLE 2 s.devStore.svn.toNat ++ bytesLE 1 m.lcs ++ bytesLE 1 flags
    ++ bytesLE 8 m.lastSeq.toNat ++ bytesLE 4 m.lost ++ bytesLE 2 s.horizon.toNat ++ bytesLE 2 n
    ++ s.coreCounts ++ s.errorCounts
    ++ (((m.faults.flatMap FaultRec.bytes) ++ List.replicate 512 0).take 512)
    ++ (s.ctxs.take n).flatMap (fun e => s.inventoryEntry e.1 e.2)

/-- R450, step 3: the inventory written in ascending order, its first dword last; a release at .sys. A buffer that does not
hold its fixed part takes nothing (log 40). -/
def State.writeInventory (s : State) : State :=
  if s.mgmt.invAddr = 0 ∨ s.mgmt.invSize.toNat < 864 then s
  else
    let bs := s.inventory
    let a := hostPa s.mgmt.invAddr.toNat
    let s1 := s.physWriteAt 0 s.latestTick (a + 8) (bs.drop 8)
    s1.physWriteAt 0 s1.latestTick a (bs.take 8)

/-- R450, steps 3 to 5. -/
def State.finishResync (s : State) : State :=
  let s1 := s.writeInventory
  { s1 with mgmt := { s1.mgmt with
      waiting := [], events := [], lost := 0, cmdqHead := 0, cmdqTail := 0, cplqHead := 0, cplqTail := 0, rsb := false } }

/-- R450: RESYNC goes on once every command already read has been performed. -/
def State.pumpResync (s : State) : State := if s.mgmt.rsb && !s.commandsOpen then s.finishResync else s

/-- RESYNC (R446, R450). -/
def State.resync (s : State) : State :=
  if s.mgmt.rsb ∨ !s.mgmt.started then s
  else ({ s with mgmt := { s.mgmt with rsb := true, qen := false } } : State).pumpResync

/-- RESYNC (R446, R450). -/
def execResync (s : State) : Out := .next s.resync

/-! Writes of registers (R443, R445). -/

/-- R445, R446, R457: a write of CONTROL, by its bits: a RESET that is let through leaves nothing for the others, and QEN and
RESYNC are ignored before START has been done. START comes before QEN, and QEN before RESYNC (log 40). -/
def State.writeControl (s : State) (v : Word) : State :=
  if v.getLsbD 3 && s.resetAllowed then s.resetWith 2 s.mgmt.lcs
  else
    let s1 := if v.getLsbD 0 then s.start else s
    if s.mgmt.started then
      let s2 := s1.setQen (v.getLsbD 1)
      if v.getLsbD 2 then s2.resync else s2
    else s1

/-- REGISTER_WRITE (R443, R446): before START only CONTROL, FEAT_REQ and PODMAP_ADDR take a write. -/
def execRegisterWrite (off : Nat) (v : Word) (s : State) : Out :=
  match off with
  | 0x010 => .next (s.writeControl v)
  | 0x020 => .next { s with mgmt := { s.mgmt with featReq := v } }
  | 0x080 => .next { s with mgmt := { s.mgmt with podmap := v } }
  | 0x088 => .next (s.setPowercap v)
  | _ => if s.mgmt.started then .next { s with mgmt := s.mgmt.write off v } else .next s

/-! Custody (R452, R454, R455). Keys, signatures and challenges are free values (log 14). -/

/-- A command of the module, by the host alone, with tag 0 (R377). -/
def State.moduleCommand (s : State) (c : Cmd) (code : Nat) (k : Out) : Out :=
  match c.path with
  | .window => .next (s.answer c code stNOTPERM 0 0)
  | .host => if c.tag ≠ 0 then s.refuse c code 0 2 else k

/-- Bytes of a key or a challenge, by its number. -/
def freeBytes (k n : Nat) : List Byte := (List.range n).map (Config.freeByte k)

/-- The identity public key, uncompressed: its form byte and the 96 bytes of its point, which are free values (R455). -/
def identityKey (n : Nat) : List Byte := 0x04 :: freeBytes (2 * n + 1) 96

/-- The bytes of a challenge. -/
def challengeBytes (n : Nat) : List Byte := freeBytes (2 * n) 32

/-- R455: the report up to its signature, with a challenge. -/
def State.reportBody (s : State) (nonce : List Byte) (ch : Nat) : List Byte :=
  let k := s.devStore
  let zeros (n : Nat) : List Byte := List.replicate n 0
  bytesLE 4 1 ++ bytesLE 4 s.mgmt.lcs ++ bytesLE 8 k.fwver ++ bytesLE 8 k.errata.toNat ++ bytesLE 8 s.mgmt.featSet.toNat
    ++ sha384 k.running ++ (match k.staged with
      | some (i, _, _) => sha384 i
      | none => zeros 48)
    ++ (match k.key with
      | some n => identityKey n ++ zeros 7
      | none => zeros 104)
    ++ nonce ++ challengeBytes ch

/-- R455: the report, signed by the identity key over the SHA-384 of what stands before the signature. -/
def State.report (s : State) (nonce : List Byte) (ch : Nat) : List Byte :=
  let body := s.reportBody nonce ch
  body ++ (match s.devStore.key with
    | some n => (List.range 96).map (Config.signature n (sha384 body))
    | none => List.replicate 96 0)

/-- ATTEST (R455). -/
def execAttest (c : Cmd) (s : State) : Out :=
  s.moduleCommand c 0x30
    (let a := c.arg 16 8
     if a % 8 ≠ 0 ∨ leavesMemory a 392 then s.refuse c 0x30 0 16
     else
       let ch := s.fresh
       let s1 : State := { s with fresh := s.fresh + 1, challenge := some ch }
       (s1.physWrite 0 a (s1.report ((List.range 32).map (fun j => BitVec.ofNat 8 (c.arg (24 + j) 1))) ch)).okay c 0x30 0)

/-- R454: whether an image is whole and signed: its signature, in its last 96 bytes, is the release key's over the header and
the body, and the digest that the header gives is that of the body. The header's layout is not stated (log 14). -/
def imageOk (bs : List Byte) : Bool :=
  let n := bs.length - 96
  decide (96 ≤ bs.length) && Config.signatureOk 0 (bs.take n) (bs.drop n) && Config.imageWhole bs

/-- FW_STAGE (R447, R454). -/
def execFwStage (c : Cmd) (s : State) : Out :=
  s.moduleCommand c 0x31
    (if !s.inService then .next (s.answer c 0x31 stNOTPERM 0 0)
     else
       match s.cmdRead c (c.arg 16 8) (c.arg 24 8) with
       | none => s.refuse c 0x31 0 16
       | some (bs, s1) =>
         if !imageOk bs then s.refuse c 0x31 0 16
         else if (Config.imageSvn bs).toNat < s.devStore.svn.toNat then .next (s.answer c 0x31 stNOTPERM 0 0)
         else
           ({ s1 with devStore := { s1.devStore with staged := some (bs, Config.imageVersion bs, Config.imageSvn bs) } } : State).okay
             c 0x31 0)

/-- R452: the transitions, and whether one needs an authorisation. -/
def transition (src dst : Nat) : Option Bool :=
  match src, dst with
  | 0, 1 => some true
  | 1, 2 => some false
  | 2, 1 => some false
  | 1, 3 => some false
  | 2, 3 => some false
  | 3, 0 => some true
  | _, _ => none

/-- R452: the offset in error of an authorisation block for a target: its challenge, or its signature over the challenge, the
target and IDENT. -/
def authError (challenge target : Nat) (bs : List Byte) : Option Nat :=
  if bs.take 32 ≠ challengeBytes challenge then some 0
  else if Config.signatureOk 1 (bs.take 32 ++ bytesLE 1 target ++ bytesLE 8 identWord.toNat) ((bs.drop 32).take 96) then none
  else some 32

/-- The core records after a change of each. -/
def State.onRecs (s : State) (f : CoreRec → CoreRec) : State :=
  { s with cores := Tab.mapVal s.cores (fun _ k => { k with crec := f k.crec }) }

/-- R452: what a transition does besides: the identity key, and the counters of the core records. What R432 counts since
provisioning starts anew where the module is provisioned. -/
def State.crossTo (s : State) (target : Nat) : State :=
  let s1 : State := match s.mgmt.lcs, target with
    | 0, _ =>
      ({ s with devStore := { s.devStore with key := some s.fresh, life := 0 }, fresh := s.fresh + 1 } : State).onRecs
        (fun r => { r with uncorr := 0, fences := 0, when_ := 0 })
    | _, 3 => { s with devStore := { s.devStore with key := none } }
    | 3, _ => s.onRecs (fun r => { r with corr := 0, uncorr := 0, fences := 0, streak := [] })
    | _, _ => s
  s1.resetWith 4 target

/-- LIFECYCLE (R452): every one clears the challenge, and one that comes without a challenge is refused, with the
authorisation's field as the one in error (log 35); an accepted transition is a reset, and no completion is posted. -/
def execLifecycle (c : Cmd) (s0 : State) : Out :=
  let s : State := { s0 with challenge := none }
  s.moduleCommand c 0x32
    (let target := c.arg 16 1
     match transition s.mgmt.lcs target with
     | none => .next (s.answer c 0x32 stNOTPERM 0 0)
     | some auth =>
       if !s.ctxs.isEmpty ∨ !s.templates.isEmpty ∨ s.mgmt.rsb then .next (s.answer c 0x32 stNOTPERM 0 0)
       else
         match s0.challenge with
         | none => s.refuse c 0x32 0 24
         | some ch =>
           if auth then
             match s.cmdRead c (c.arg 24 8) 128 with
             | none => s.refuse c 0x32 0 24
             | some (bs, s1) =>
               match authError ch target bs with
               | some o => s.refuse c 0x32 1 o
               | none => .next (s1.crossTo target)
           else .next (s.crossTo target))

/-! Power and heat (R456, R457). -/

/-- R456: the operating point after firmware has acted on a draw in units of 10 W. -/
def Mgmt.nextPoint (m : Mgmt) (draw : Nat) : Nat :=
  if m.powercap * 100 < draw * 10 then m.point - 1
  else if draw * 10 + 500 ≤ m.powercap * 100 ∧ m.point < 17 then m.point + 1
  else m.point

/-- A die as firmware leaves it at the end of a period of 1 ms (R456, R458): its draw over the period, and its supply chosen
again where the point has changed. -/
def Die.period (d : Die) (die n : Nat) (changed : Bool) : Die :=
  { d with draw := Config.dieDraw die n, mopp := if changed then none else d.mopp }

/-- POWER_CONTROL (R443, R456): the module's draw over the last 1 ms comes with the step; each die's draw and supply are
free values (log 14). -/
def execPowerControl (draw : Nat) (s : State) : Out :=
  let n := s.mgmt.nextPoint draw
  let changed := n != s.mgmt.point
  let s1 := (List.range 64).foldl (fun s d => s.onDie d (fun k => k.period d s.fresh changed)) s
  .next ({ s1 with fresh := s.fresh + 1, mgmt := { s1.mgmt with power := draw % 2 ^ 16, point := n } } : State).showPoint

/-- R457: a die's temperature, in 1/16 °C, as it is measured: above 95 °C the die runs at 425 MHz until it falls below 90 °C,
which is timing only. -/
def State.heat (s : State) (die temp : Nat) : State :=
  s.onDie die (fun d => { d with
    temp := temp
    throttled := decide (95 * 16 < temp) || (d.throttled && decide (90 * 16 ≤ temp)) })

/-- R457: a die's temperature, and the thermal stop where it exceeds 105 °C: the module stops, and every context takes a
context fault. -/
def State.measure (s : State) (die temp : Nat) : State :=
  let s1 := s.heat die temp
  if 105 * 16 < temp ∧ !s.mgmt.therm then
    s1.ctxs.foldl (fun s e => s.post (.contextFault e.1 7 die 0xFFFFF 0)) { s1 with mgmt := { s1.mgmt with therm := true } }
  else s1

/-- THERMAL_THROTTLE (R457): a die's temperature, after it has risen. -/
def execThermalThrottle (die temp : Nat) (s : State) : Out := .next (s.measure die temp)

/-- THERMAL_STOP (R457): a die's temperature, above 105 °C. -/
def execThermalStop (die temp : Nat) (s : State) : Out := .next (s.measure die temp)

/-- DIE_TEMPERATURE_FALL (R457): a die's temperature, after it has fallen. -/
def execDieTemperatureFall (die temp : Nat) (s : State) : Out := .next (s.measure die temp)

end Sys2Proof.Machine
end

