-- ==== Sys2Proof/Machine/Coherence.lean ====
section
/-! DEFINITION. The steps of memory itself (R318, R322, R327 to R329, R332, R335, R338, R339, R397): stores performed,
lines written back, ticks, and what the host and other modules do to this module's memory. -/

namespace Sys2Proof.Machine

/-! Stores and write-backs. -/

/-- STORE_PERFORMED (R318, R320): the oldest pending store of a core is performed, or waits (R328). -/
def execStorePerformed (core : Nat) (s : State) : Out := .next (s.performStore core).state

/-- OWNED_LINE_DRAIN (R332): a die writes back its owned dirty lines up to a tick. -/
def execOwnedLineDrain (die : Nat) (tick : Tick) (s : State) : Out :=
  .next ((s.die die).owned.foldl (fun s e => if e.2.dirty && tickLe e.2.wts tick then s.giveBack die e.1 else s) s)

/-- LINE_WRITEBACK (R327): an owned line leaves its L2. -/
def execLineWriteback (line : Nat) (s : State) : Out :=
  match (s.homeLine line).owner with
  | some d => .next (s.giveBack d line)
  | none => .next s

/-- Whether a line has been dirty in a die for 16,384 cc (R327). -/
def Owned.late (o : Owned) (cc : Nat) : Bool := o.dirty && decide (o.since + 16384 ≤ cc)

/-- DIRTY_LINE_TIMEOUT (R327). -/
def execDirtyLineTimeout (line : Nat) (s : State) : Out :=
  match (s.homeLine line).owner with
  | some d =>
    match Tab.get? (s.die d).owned line with
    | some o => .next (if o.late s.cc then s.giveBack d line else s)
    | none => .next s
  | none => .next s

/-! Ticks. -/

/-- TICK_ADVANCE (R322). -/
def execTickAdvance (s : State) : Out :=
  .next { s with cores := Tab.mapVal s.cores (fun _ k => { k with ptick := k.ptick + 1 }) }

/-- R328: the ticks that the dies and the I/O die report; a core that has never run follows the clock. -/
def State.reports (s : State) : List Tick :=
  s.freshTick :: s.hostTick :: s.podTick :: s.cores.map (fun e => e.2.ptick)
    ++ s.dies.flatMap (fun d => d.2.patterns.map Pattern.tick ++ d.2.jobs.map Job.tick)

/-- R328: the latest of the old horizon and the reports that count as later. -/
def newHorizon (h0 : Tick) (l : List Tick) : Tick :=
  l.foldl (fun h t => if (h - h0).toNat < (t - h0).toNat ∧ (t - h0).toNat ≤ 8192 then t else h) h0

/-- R328: the ticks of what a core holds for its context. -/
def Img.clamp (m : Img) (h : Tick) : Img :=
  { m with rings := Tab.mapVal m.rings (fun _ g => { g with ticks := Tab.mapVal g.ticks (fun _ t => clampTick h t) }) }

/-- R328: the ticks of a context. -/
def Ctx.clamp (c : Ctx) (h : Tick) : Ctx :=
  let f := clampTick h
  { c with
    jobDone := Tab.mapVal c.jobDone (fun _ t => f t)
    domains := c.domains.map (fun d => { d with tick := f d.tick, doneTick := f d.doneTick })
    passes := Tab.mapVal c.passes (fun _ p => { p with tick := f p.tick })
    images := Tab.mapVal c.images (fun _ i => { i with cores := Tab.mapVal i.cores (fun _ e => (e.1.clamp h, f e.2)) }) }

/-- R328: the ticks of a die's engines. -/
def Die.clamp (d : Die) (h : Tick) : Die :=
  { d with
    patterns := d.patterns.map (fun p => { p with tick := clampTick h p.tick })
    jobs := d.jobs.map (fun j => { j with tick := clampTick h j.tick, pat := j.pat.map (fun p => { p with tick := clampTick h p.tick }) }) }

/-- R328: every tick of the module held to the horizon. -/
def State.clampAll (s : State) (h : Tick) : State :=
  { s with
    hostTick := clampTick h s.hostTick
    podTick := clampTick h s.podTick
    cores := Tab.mapVal s.cores (fun _ k => { k with ptick := clampTick h k.ptick, img := k.img.clamp h })
    dies := Tab.mapVal s.dies (fun _ d => d.clamp h)
    ctxs := Tab.mapVal s.ctxs (fun _ c => c.clamp h) }

/-- R329: a line at its home, scrubbed to a floor. -/
def HomeLine.scrub (l : HomeLine) (floor : Tick) : HomeLine :=
  let l1 : HomeLine := if tickLt l.due floor then { l with wts := floor, due := floor } else l
  match l1.rel with
  | some (_, t, _) => if tickLt t floor then { l1 with rel := none } else l1
  | none => l1

/-- R329: the undrained release records older than a floor, drained. -/
def State.drainOld (s : State) (floor : Tick) : State :=
  s.home.foldl (fun s e =>
    match e.2.rel with
    | some (o, t, false) => if tickLt t floor then s.drain o t else s
    | _ => s) s

/-- R329: the scrub of old ticks, records and loans; the ticks 0 that a wipe has left are scrubbed with the others (R324). -/
def State.scrub (s : State) (floor : Tick) : State :=
  let s1 := s.drainOld floor
  { s1 with
    floor := if tickLt s1.floor floor then floor else s1.floor
    wiped := if tickLt 0 floor then [] else s1.wiped
    home := Tab.mapVal s1.home (fun _ l => l.scrub floor)
    dies := Tab.mapVal s1.dies (fun _ d => { d with loans := d.loans.filter (fun e => !tickLt e.2.due floor) }) }

/-- HORIZON_BROADCAST (R328, R329). -/
def execHorizonBroadcast (s : State) : Out :=
  let h := newHorizon s.horizon s.reports
  let s1 : State := ({ s with horizon := h } : State).clampAll h
  .next (if h.toNat / 2 ^ 14 = s.horizon.toNat / 2 ^ 14 then s1 else s1.scrub (h - 0x4000#16))

/-! The host and other modules. -/

/-- CXLMEM_READ (R339, R446): each line is read at its home, after a recall; poison before START, outside device memory,
and for uncorrectable data (log 42). -/
def execCxlmemRead (pa bytes : Nat) (s : State) : Out :=
  if !s.mgmt.started then .next { s with hostReply := none }
  else
    let r := (pieces pa bytes).foldl (fun (a : Option (List Byte) × State) e =>
      let s1 := a.2.recall (e.1 / 128)
      let h := s1.homeLine (e.1 / 128)
      let v := if isDevice e.1 && !s1.isBad e.1 then a.1.map (fun b => b ++ Memory.read s1.mem e.1 e.2) else none
      (v, { s1 with hostTick := tickMax s1.hostTick h.wts })) (some [], s)
    .next { r.2 with hostReply := r.1 }

/-- CXLMEM_WRITE (R339, R446): each line is written at its home, after a recall; dropped before START. -/
def execCxlmemWrite (pa : Nat) (data : List Byte) (s : State) : Out :=
  if !s.mgmt.started then .next s
  else
    .next ((pieces pa data.length).foldl (fun s e =>
      if isDevice e.1 then
        let r := (s.recall (e.1 / 128)).writeHome s.hostTick e.1 ((data.drop (e.1 - pa)).take e.2)
        ({ r.2 with hostTick := r.1 } : State).clearResv none (.phys (e.1 / 128 * 128))
      else s) s)

/-- R335, R346: a write that has been accepted, by the pod-port agent: a page fault is serviced first, and a fault that
cannot be serviced drops the write; a write waits, as `e`, for what stands in its way (R328, R393). Touched pages that have no
die of their own are backed on die 0 (log 56). -/
def State.podWrite (s : State) (tag : Nat) (va : Word) (data : List Byte) (e : Event) : State :=
  match s.engineStop tag .store va.toNat data.length with
  | some (.page a) =>
    match s.quietAt tag a with
    | .ok _ s1 =>
      let r := s1.service tag .store a enginePriv 0
      if r.1 = .ok then r.2.defer tag e else r.2
    | q => q.state.defer tag e
  | some _ => s
  | none =>
    match s.engineHome 0 tag s.podTick va.toNat data with
    | some (p, s1) => if s.mayJump s.podTick p then { s1 with podTick := p } else s.defer tag e
    | none => s

/-- R449: a write bound for another module leaves again, by the port that this module's own map gives; with no port left it is
dropped (log 56). -/
def State.forward (s : State) (w : PodWrite) : State :=
  match s.portToward (fun _ => true) (w.x, w.y, w.z) with
  | some p => { s with podOut := s.podOut ++ [{ w with port := p }] }
  | none => s

/-- POD_WRITE_ARRIVAL (R335, R397, R449): a write of another module is accepted where a granted remote port of the context
leads back to its sender, and performed at the home by the pod-port agent; any other is dropped. One that is bound for
another module is forwarded. -/
def execPodWriteArrival (x y z srcTag : Nat) (dest : PodDest) (va : Word) (data : List Byte) (s : State) : Out :=
  if s.podmap.isSome ∧ (dest.x, dest.y, dest.z) ≠ s.selfCoord then
    .next (s.forward { port := 0, src := (x, y, z), srcTag := srcTag, x := dest.x, y := dest.y, z := dest.z, tag := dest.tag,
                       va := va, data := data })
  else
    match s.ctx dest.tag with
    | none => .next s
    | some c =>
      if c.routes.any (fun r => r.granted && r.remote && r.x == x && r.y == y && r.z == z && r.tag == srcTag) then
        .next (s.podWrite dest.tag va data (.podWriteArrival x y z srcTag dest va data))
      else .next s

/-- CXL_CACHE_SNOOP (R338): a host access to a host-memory line that the I/O die holds is served: the line leaves the
host-line cache, and a host's store is performed in the line's order. With no bytes it is a read. -/
def execCxlCacheSnoop (pa : Nat) (data : List Byte) (s : State) : Out :=
  if isHost pa then
    let s1 : State := { s with hostCache := s.hostCache.filter (fun ln => ln != pa / 128) }
    .next ((pieces pa data.length).foldl (fun s e =>
      if isHost e.1 then
        ({ s with mem := Memory.write s.mem e.1 ((data.drop (e.1 - pa)).take e.2) } : State).clearResv none (.phys (e.1 / 128 * 128))
      else s) s1)
  else .next s

end Sys2Proof.Machine
end

