-- ==== Sys2Proof/Machine/Units.lean ====
section
/-! DEFINITION. The steps of a core's units on work in flight: the sequencer (R39), the condenser (R237), the quad units
(R241), the commit units (R256), the matrix unit (R196), the annex (R30), and an interrupt that comes between
instructions (R290). -/

namespace Sys2Proof.Machine

/-- The move of a flight that the vector sequencer executes. -/
def seqMove : Instr → Option (Flight → State → Move)
  | .vadd o => some (goVadd o)
  | .vsub o => some (goVsub o)
  | .vrsub o => some (goVrsub o)
  | .vmul o => some (goVmul o)
  | .vmulh o => some (goVmulh o)
  | .vdiv o => some (goVdiv o)
  | .vrem o => some (goVrem o)
  | .vmin o => some (goVmin o)
  | .vmax o => some (goVmax o)
  | .vsadd o => some (goVsadd o)
  | .vssub o => some (goVssub o)
  | .vand o => some (goVand o)
  | .vor o => some (goVor o)
  | .vxor o => some (goVxor o)
  | .vsll o => some (goVsll o)
  | .vsrl o => some (goVsrl o)
  | .vsra o => some (goVsra o)
  | .vfma o => some (goVfma o)
  | .vfms o => some (goVfms o)
  | .vfnma o => some (goVfnma o)
  | .vsgnj o => some (goVsgnj o)
  | .vsgnjn o => some (goVsgnjn o)
  | .vsgnjx o => some (goVsgnjx o)
  | .vceq o => some (goVceq o)
  | .vcne o => some (goVcne o)
  | .vclt o => some (goVclt o)
  | .vcle o => some (goVcle o)
  | .vcgt o => some (goVcgt o)
  | .vcge o => some (goVcge o)
  | .vmerge o => some (goVmerge o)
  | .vmv o => some (goVmv o)
  | .vslideup o => some (goVslideup o)
  | .vslidedown o => some (goVslidedown o)
  | .vgather o => some (goVgather o)
  | .vcompress o => some (goVcompress o)
  | .vmand o => some (goVmand o)
  | .vmor o => some (goVmor o)
  | .vmxor o => some (goVmxor o)
  | .vmandn o => some (goVmandn o)
  | .vsqrt o => some (goVsqrt o)
  | .vrcp o => some (goVrcp o)
  | .vrsqrt o => some (goVrsqrt o)
  | .vexp2 o => some (goVexp2 o)
  | .vlog2 o => some (goVlog2 o)
  | .vsin o => some (goVsin o)
  | .vcos o => some (goVcos o)
  | .vtanh o => some (goVtanh o)
  | .vclass o => some (goVclass o)
  | .vabs o => some (goVabs o)
  | .vneg o => some (goVneg o)
  | .vid o => some (goVid o)
  | .vmpop o => some (goVmpop o)
  | .vmfirst o => some (goVmfirst o)
  | .vmvxs o => some (goVmvxs o)
  | .vmvsx o => some (goVmvsx o)
  | .vcvt o => some (goVcvt o)
  | .vbdot o => some (goVbdot o)
  | .vbexp o => some (goVbexp o)
  | .vbpack o => some (goVbpack o)
  | .vredsum o => some (goVredsum o)
  | .vredmin o => some (goVredmin o)
  | .vredmax o => some (goVredmax o)
  | .vscan o => some (goVscan o)
  | .vld o => some (goVld o)
  | .vldSt o => some (goVldSt o)
  | .vldIx o => some (goVldIx o)
  | .vamoadd o => some (goVamoadd o)
  | .vamomin o => some (goVamomin o)
  | .vamomax o => some (goVamomax o)
  | .vamoswap o => some (goVamoswap o)
  | .vst o => some (goVst o)
  | .vstSt o => some (goVstSt o)
  | .vstIx o => some (goVstIx o)
  | _ => none

/-- The move of a flight that the condenser executes. -/
def distUnitMove : Instr → Option (Flight → State → Move)
  | .dadd _ d a b => some (goDadd d a b)
  | .dsub _ d a b => some (goDsub d a b)
  | .dmul _ d a b => some (goDmul d a b)
  | .dmax _ d a b => some (goDmax d a b)
  | .dmin _ d a b => some (goDmin d a b)
  | .dmix _ d a _ => some (goDmix d a)
  | .dscale _ d a b => some (goDscale d a b)
  | .dcond _ d a b => some (goDcond d a b)
  | .dtag _ _ _ => some (goDtag)
  | .dpoint _ d a => some (goDpoint d a)
  | .dgauss _ d a b => some (goDgauss d a b)
  | .dmom _ d a k => some (goDmom d a k)
  | .dqnt _ d a _ => some (goDqnt d a)
  | .dcdf _ d a b => some (goDcdf d a b)
  | .dld _ d _ => some (goDld d)
  | .dst _ d _ => some (goDst d)
  | _ => none

/-- The move of a flight that the quad's graphics units or a commit unit execute. -/
def graphicsMove : Instr → Option (Flight → State → Move)
  | .xbox _ d a b => some (goXbox d a b)
  | .xtri _ d a b => some (goXtri d a b)
  | .tfetch _ d a _ => some (goTfetch d a)
  | .tgrad _ d a b => some (goTgrad d a b)
  | .gfeat _ _ a _ => some (goGfeat a)
  | .zcommit _ a _ => some (goZcommit a)
  | _ => none

/-- The registers that an instruction reads, its mask among them. -/
def Uses.allReads (u : Uses) : List RegName := if u.masked then .v 0 :: u.reads else u.reads

/-- R39, R181: whether a flight may go before an older one ends: neither writes a register that the other names, and they do
not both access memory (log 7). -/
def Flight.apart (f older : Flight) : Bool :=
  let u := f.uses
  let w := older.uses
  !(u.allReads.any (fun r => w.writes.contains r)) && !(u.writes.any (fun r => w.writes.contains r || w.allReads.contains r))
    && !(f.isMemory && older.isMemory)

/-- What a unit does with the flights of a hardware context, those of `older` passed over: it moves the oldest of its own
that stands apart from all older ones and need not wait; a unit that keeps the order asks its oldest alone. It answers
whether one has moved. A flight whose restart index has been set to its end or beyond is over (R25). A trap is taken when
every older flight has completed (R49) and no younger one stands inside a group (R45); until then its flight waits before
the element that faults. -/
def State.unitGo (s : State) (mv : Instr → Option (Flight → State → Move)) (inOrder : Bool) (older : List Flight) :
    List Flight → Bool × State
  | [] => (false, s)
  | f :: rest =>
    match mv f.instr with
    | none => s.unitGo mv inOrder (older ++ [f]) rest
    | some g =>
      let next (w : State) : Bool × State :=
        if inOrder then (false, w)
        else
          let r := s.unitGo mv inOrder (older ++ [f]) rest
          if r.1 then r else (false, w)
      if older.all f.apart then
        match (if f.idx ≠ 0 ∧ f.vl ≤ f.idx then .over s else g f s) with
        | .wait w => next w
        | .trap t k w =>
          if older.isEmpty && !rest.any Flight.inside then (true, s.moved f.id (.trap t k w))
          else next (w.onMe (fun h => h.setFlight (f.keep k)))
        | m => (true, s.moved f.id m)
      else next s

/-- A unit's turn with a hardware context. -/
def State.unitTurn (s : State) (h : HartId) (mv : Instr → Option (Flight → State → Move)) (inOrder : Bool) : Bool × State :=
  let s1 : State := { s with cur := h }
  s1.unitGo mv inOrder [] s1.me.chain

/-- ELEMENT_GROUP_EXECUTE (R39): the next element group of the oldest chain member that has one. -/
def execElementGroupExecute (h : HartId) (s : State) : Out := .next (s.unitTurn h seqMove false).2

/-- R237: the hardware contexts of a core in the order in which the condenser asks them: by hidx, after the one it took
last. -/
def condenserOrder (last : Nat) : List Nat := (List.range 11).map (fun k => (last + 1 + k) % 11)

/-- R237: the condenser takes an element of the first hardware context that has one ready. -/
def State.condense (s : State) (core : Nat) : List Nat → State
  | [] => s
  | h :: l =>
    let r := s.unitTurn { core := core, h := h } distUnitMove true
    if r.1 then r.2.onImg core (fun m => { m with lastDist := h }) else ({ r.2 with cur := s.cur } : State).condense core l

/-- DISTRIBUTION_ELEMENT (R237): the next element of a distribution instruction, in the round robin of the core's hardware
contexts; the one named has an element in flight. -/
def execDistributionElement (h : HartId) (s : State) : Out :=
  .next (s.condense h.core (condenserOrder (s.img h.core).lastDist))

/-- GRAPHICS_RECORD_EXECUTE (R241): the next records of a graphics instruction. -/
def execGraphicsRecordExecute (h : HartId) (s : State) : Out := .next (s.unitTurn h graphicsMove true).2

/-- COMMIT_REOFFER (R256): a commit that was refused is offered again. -/
def execCommitReoffer (h : HartId) (s : State) : Out := .next (s.unitTurn h graphicsMove true).2

/-- MATRIX_COMMAND_EXECUTE (R196): the oldest command of a core's matrix queue. -/
def execMatrixCommandExecute (core : Nat) (s : State) : Out := .next (s.matStep core)

/-- ANNEX_SWAP (R30, R31): registers come into a hardware context's pool, and others leave it for the annex. Their values
do not change (R32). An annex that cannot be read is left to the instruction that needs it. -/
def execAnnexSwap (h : HartId) (names : List RegName) (s : State) : Out :=
  let t := s.hart h
  let l := (names.filter RegName.isVd).dedup
  if cfgAnx t.vcfgst && t.chain.isEmpty && decide (slotsOf l ≤ cfgSlots t.vcfgst) && (s.annexBad t).isNone then
    .next (s.setHart h ((t.swap l).touch l))
  else .next s

/-- INTERRUPT (R45, R290): the control context of a core takes the interrupt that is due, at the next stopping point of what
it has in flight. -/
def execInterrupt (core : Nat) (s : State) : Out :=
  let s1 : State := { s with cur := { core := core, h := 0 } }
  match s.tagOf core, s.dueInterrupt core with
  | some tag, some code => .next (if s1.me.inside then s.finishGroups s1.cur else s1.takeInterrupt tag code)
  | _, _ => .next s

end Sys2Proof.Machine
end

