-- ==== Sys2Proof/Machine/Dispatch.lean ====
section
/-! DEFINITION. What each instruction, and each step of another agent, does: one meaning per constructor. -/

namespace Sys2Proof.Machine

def exec (i : Instr) (s : State) : Host.Outcome State Fault Refusal :=
  match i with
  | .lui d imm => Sys2Proof.Machine.execLui d imm s
  | .auipc d imm => Sys2Proof.Machine.execAuipc d imm s
  | .jal d off => Sys2Proof.Machine.execJal d off s
  | .jalr d a imm => Sys2Proof.Machine.execJalr d a imm s
  | .beq a b off => Sys2Proof.Machine.execBeq a b off s
  | .bne a b off => Sys2Proof.Machine.execBne a b off s
  | .blt a b off => Sys2Proof.Machine.execBlt a b off s
  | .bge a b off => Sys2Proof.Machine.execBge a b off s
  | .bltu a b off => Sys2Proof.Machine.execBltu a b off s
  | .bgeu a b off => Sys2Proof.Machine.execBgeu a b off s
  | .lb d a imm => Sys2Proof.Machine.execLb d a imm s
  | .lh d a imm => Sys2Proof.Machine.execLh d a imm s
  | .lw d a imm => Sys2Proof.Machine.execLw d a imm s
  | .ld d a imm => Sys2Proof.Machine.execLd d a imm s
  | .lbu d a imm => Sys2Proof.Machine.execLbu d a imm s
  | .lhu d a imm => Sys2Proof.Machine.execLhu d a imm s
  | .lwu d a imm => Sys2Proof.Machine.execLwu d a imm s
  | .sb a b imm => Sys2Proof.Machine.execSb a b imm s
  | .sh a b imm => Sys2Proof.Machine.execSh a b imm s
  | .sw a b imm => Sys2Proof.Machine.execSw a b imm s
  | .sd a b imm => Sys2Proof.Machine.execSd a b imm s
  | .addi d a imm => Sys2Proof.Machine.execAddi d a imm s
  | .slti d a imm => Sys2Proof.Machine.execSlti d a imm s
  | .sltiu d a imm => Sys2Proof.Machine.execSltiu d a imm s
  | .xori d a imm => Sys2Proof.Machine.execXori d a imm s
  | .ori d a imm => Sys2Proof.Machine.execOri d a imm s
  | .andi d a imm => Sys2Proof.Machine.execAndi d a imm s
  | .slli d a h => Sys2Proof.Machine.execSlli d a h s
  | .srli d a h => Sys2Proof.Machine.execSrli d a h s
  | .srai d a h => Sys2Proof.Machine.execSrai d a h s
  | .addiw d a imm => Sys2Proof.Machine.execAddiw d a imm s
  | .slliw d a h => Sys2Proof.Machine.execSlliw d a h s
  | .srliw d a h => Sys2Proof.Machine.execSrliw d a h s
  | .sraiw d a h => Sys2Proof.Machine.execSraiw d a h s
  | .add d a b => Sys2Proof.Machine.execAdd d a b s
  | .sll d a b => Sys2Proof.Machine.execSll d a b s
  | .slt d a b => Sys2Proof.Machine.execSlt d a b s
  | .sltu d a b => Sys2Proof.Machine.execSltu d a b s
  | .xor d a b => Sys2Proof.Machine.execXor d a b s
  | .srl d a b => Sys2Proof.Machine.execSrl d a b s
  | .or d a b => Sys2Proof.Machine.execOr d a b s
  | .and d a b => Sys2Proof.Machine.execAnd d a b s
  | .sub d a b => Sys2Proof.Machine.execSub d a b s
  | .sra d a b => Sys2Proof.Machine.execSra d a b s
  | .mul d a b => Sys2Proof.Machine.execMul d a b s
  | .mulh d a b => Sys2Proof.Machine.execMulh d a b s
  | .mulhsu d a b => Sys2Proof.Machine.execMulhsu d a b s
  | .mulhu d a b => Sys2Proof.Machine.execMulhu d a b s
  | .div d a b => Sys2Proof.Machine.execDiv d a b s
  | .divu d a b => Sys2Proof.Machine.execDivu d a b s
  | .rem d a b => Sys2Proof.Machine.execRem d a b s
  | .remu d a b => Sys2Proof.Machine.execRemu d a b s
  | .addw d a b => Sys2Proof.Machine.execAddw d a b s
  | .sllw d a b => Sys2Proof.Machine.execSllw d a b s
  | .srlw d a b => Sys2Proof.Machine.execSrlw d a b s
  | .subw d a b => Sys2Proof.Machine.execSubw d a b s
  | .sraw d a b => Sys2Proof.Machine.execSraw d a b s
  | .mulw d a b => Sys2Proof.Machine.execMulw d a b s
  | .divw d a b => Sys2Proof.Machine.execDivw d a b s
  | .divuw d a b => Sys2Proof.Machine.execDivuw d a b s
  | .remw d a b => Sys2Proof.Machine.execRemw d a b s
  | .remuw d a b => Sys2Proof.Machine.execRemuw d a b s
  | .fence d a imm => Sys2Proof.Machine.execFence d a imm s
  | .fenceI d a imm => Sys2Proof.Machine.execFenceI d a imm s
  | .ecall => Sys2Proof.Machine.execEcall s
  | .ebreak => Sys2Proof.Machine.execEbreak s
  | .sret => Sys2Proof.Machine.execSret s
  | .mret => Sys2Proof.Machine.execMret s
  | .wfi => Sys2Proof.Machine.execWfi s
  | .sfenceVma a b => Sys2Proof.Machine.execSfenceVma a b s
  | .csrrw d a c => Sys2Proof.Machine.execCsrrw d a c s
  | .csrrs d a c => Sys2Proof.Machine.execCsrrs d a c s
  | .csrrc d a c => Sys2Proof.Machine.execCsrrc d a c s
  | .csrrwi d u c => Sys2Proof.Machine.execCsrrwi d u c s
  | .csrrsi d u c => Sys2Proof.Machine.execCsrrsi d u c s
  | .csrrci d u c => Sys2Proof.Machine.execCsrrci d u c s
  | .lrW d a aq rl => Sys2Proof.Machine.execLrW d a aq rl s
  | .lrD d a aq rl => Sys2Proof.Machine.execLrD d a aq rl s
  | .scW d a b aq rl => Sys2Proof.Machine.execScW d a b aq rl s
  | .scD d a b aq rl => Sys2Proof.Machine.execScD d a b aq rl s
  | .amoswapW d a b aq rl => Sys2Proof.Machine.execAmoswapW d a b aq rl s
  | .amoswapD d a b aq rl => Sys2Proof.Machine.execAmoswapD d a b aq rl s
  | .amoaddW d a b aq rl => Sys2Proof.Machine.execAmoaddW d a b aq rl s
  | .amoaddD d a b aq rl => Sys2Proof.Machine.execAmoaddD d a b aq rl s
  | .amoxorW d a b aq rl => Sys2Proof.Machine.execAmoxorW d a b aq rl s
  | .amoxorD d a b aq rl => Sys2Proof.Machine.execAmoxorD d a b aq rl s
  | .amocasW d a b aq rl => Sys2Proof.Machine.execAmocasW d a b aq rl s
  | .amocasD d a b aq rl => Sys2Proof.Machine.execAmocasD d a b aq rl s
  | .amoandW d a b aq rl => Sys2Proof.Machine.execAmoandW d a b aq rl s
  | .amoandD d a b aq rl => Sys2Proof.Machine.execAmoandD d a b aq rl s
  | .amoorW d a b aq rl => Sys2Proof.Machine.execAmoorW d a b aq rl s
  | .amoorD d a b aq rl => Sys2Proof.Machine.execAmoorD d a b aq rl s
  | .amominW d a b aq rl => Sys2Proof.Machine.execAmominW d a b aq rl s
  | .amominD d a b aq rl => Sys2Proof.Machine.execAmominD d a b aq rl s
  | .amomaxW d a b aq rl => Sys2Proof.Machine.execAmomaxW d a b aq rl s
  | .amomaxD d a b aq rl => Sys2Proof.Machine.execAmomaxD d a b aq rl s
  | .amominuW d a b aq rl => Sys2Proof.Machine.execAmominuW d a b aq rl s
  | .amominuD d a b aq rl => Sys2Proof.Machine.execAmominuD d a b aq rl s
  | .amomaxuW d a b aq rl => Sys2Proof.Machine.execAmomaxuW d a b aq rl s
  | .amomaxuD d a b aq rl => Sys2Proof.Machine.execAmomaxuD d a b aq rl s
  | .bsubnz a b off => Sys2Proof.Machine.execBsubnz a b off s
  | .vsetl d a fmt blk hint => Sys2Proof.Machine.execVsetl d a fmt blk hint s
  | .vcfg d a nv nd w => Sys2Proof.Machine.execVcfg d a nv nd w s
  | .vadd o => Sys2Proof.Machine.execVadd o s
  | .vsub o => Sys2Proof.Machine.execVsub o s
  | .vrsub o => Sys2Proof.Machine.execVrsub o s
  | .vmul o => Sys2Proof.Machine.execVmul o s
  | .vmulh o => Sys2Proof.Machine.execVmulh o s
  | .vdiv o => Sys2Proof.Machine.execVdiv o s
  | .vrem o => Sys2Proof.Machine.execVrem o s
  | .vmin o => Sys2Proof.Machine.execVmin o s
  | .vmax o => Sys2Proof.Machine.execVmax o s
  | .vsadd o => Sys2Proof.Machine.execVsadd o s
  | .vssub o => Sys2Proof.Machine.execVssub o s
  | .vand o => Sys2Proof.Machine.execVand o s
  | .vor o => Sys2Proof.Machine.execVor o s
  | .vxor o => Sys2Proof.Machine.execVxor o s
  | .vsll o => Sys2Proof.Machine.execVsll o s
  | .vsrl o => Sys2Proof.Machine.execVsrl o s
  | .vsra o => Sys2Proof.Machine.execVsra o s
  | .vfma o => Sys2Proof.Machine.execVfma o s
  | .vfms o => Sys2Proof.Machine.execVfms o s
  | .vfnma o => Sys2Proof.Machine.execVfnma o s
  | .vsgnj o => Sys2Proof.Machine.execVsgnj o s
  | .vsgnjn o => Sys2Proof.Machine.execVsgnjn o s
  | .vsgnjx o => Sys2Proof.Machine.execVsgnjx o s
  | .vceq o => Sys2Proof.Machine.execVceq o s
  | .vcne o => Sys2Proof.Machine.execVcne o s
  | .vclt o => Sys2Proof.Machine.execVclt o s
  | .vcle o => Sys2Proof.Machine.execVcle o s
  | .vcgt o => Sys2Proof.Machine.execVcgt o s
  | .vcge o => Sys2Proof.Machine.execVcge o s
  | .vmerge o => Sys2Proof.Machine.execVmerge o s
  | .vmv o => Sys2Proof.Machine.execVmv o s
  | .vslideup o => Sys2Proof.Machine.execVslideup o s
  | .vslidedown o => Sys2Proof.Machine.execVslidedown o s
  | .vgather o => Sys2Proof.Machine.execVgather o s
  | .vcompress o => Sys2Proof.Machine.execVcompress o s
  | .vmand o => Sys2Proof.Machine.execVmand o s
  | .vmor o => Sys2Proof.Machine.execVmor o s
  | .vmxor o => Sys2Proof.Machine.execVmxor o s
  | .vmandn o => Sys2Proof.Machine.execVmandn o s
  | .vsqrt o => Sys2Proof.Machine.execVsqrt o s
  | .vrcp o => Sys2Proof.Machine.execVrcp o s
  | .vrsqrt o => Sys2Proof.Machine.execVrsqrt o s
  | .vexp2 o => Sys2Proof.Machine.execVexp2 o s
  | .vlog2 o => Sys2Proof.Machine.execVlog2 o s
  | .vsin o => Sys2Proof.Machine.execVsin o s
  | .vcos o => Sys2Proof.Machine.execVcos o s
  | .vtanh o => Sys2Proof.Machine.execVtanh o s
  | .vclass o => Sys2Proof.Machine.execVclass o s
  | .vabs o => Sys2Proof.Machine.execVabs o s
  | .vneg o => Sys2Proof.Machine.execVneg o s
  | .vid o => Sys2Proof.Machine.execVid o s
  | .vmpop o => Sys2Proof.Machine.execVmpop o s
  | .vmfirst o => Sys2Proof.Machine.execVmfirst o s
  | .vmvxs o => Sys2Proof.Machine.execVmvxs o s
  | .vmvsx o => Sys2Proof.Machine.execVmvsx o s
  | .vcvt o => Sys2Proof.Machine.execVcvt o s
  | .vbdot o => Sys2Proof.Machine.execVbdot o s
  | .vbexp o => Sys2Proof.Machine.execVbexp o s
  | .vbpack o => Sys2Proof.Machine.execVbpack o s
  | .vredsum o => Sys2Proof.Machine.execVredsum o s
  | .vredmin o => Sys2Proof.Machine.execVredmin o s
  | .vredmax o => Sys2Proof.Machine.execVredmax o s
  | .vscan o => Sys2Proof.Machine.execVscan o s
  | .vld o => Sys2Proof.Machine.execVld o s
  | .vldSt o => Sys2Proof.Machine.execVldSt o s
  | .vldIx o => Sys2Proof.Machine.execVldIx o s
  | .vamoadd o => Sys2Proof.Machine.execVamoadd o s
  | .vamomin o => Sys2Proof.Machine.execVamomin o s
  | .vamomax o => Sys2Proof.Machine.execVamomax o s
  | .vamoswap o => Sys2Proof.Machine.execVamoswap o s
  | .vst o => Sys2Proof.Machine.execVst o s
  | .vstSt o => Sys2Proof.Machine.execVstSt o s
  | .vstIx o => Sys2Proof.Machine.execVstIx o s
  | .mcfg l a => Sys2Proof.Machine.execMcfg l a s
  | .mopa l t a b => Sys2Proof.Machine.execMopa l t a b s
  | .mzero l t => Sys2Proof.Machine.execMzero l t s
  | .mld l t a b => Sys2Proof.Machine.execMld l t a b s
  | .mst l t a b => Sys2Proof.Machine.execMst l t a b s
  | .mstRel l t a b => Sys2Proof.Machine.execMstRel l t a b s
  | .mrelease l t => Sys2Proof.Machine.execMrelease l t s
  | .mwait l t => Sys2Proof.Machine.execMwait l t s
  | .mwexp l a b => Sys2Proof.Machine.execMwexp l a b s
  | .dadd l d a b => Sys2Proof.Machine.execDadd l d a b s
  | .dsub l d a b => Sys2Proof.Machine.execDsub l d a b s
  | .dmul l d a b => Sys2Proof.Machine.execDmul l d a b s
  | .dmax l d a b => Sys2Proof.Machine.execDmax l d a b s
  | .dmin l d a b => Sys2Proof.Machine.execDmin l d a b s
  | .dmix l d a b => Sys2Proof.Machine.execDmix l d a b s
  | .dscale l d a b => Sys2Proof.Machine.execDscale l d a b s
  | .dcond l d a b => Sys2Proof.Machine.execDcond l d a b s
  | .dtag l d a => Sys2Proof.Machine.execDtag l d a s
  | .dpoint l d a => Sys2Proof.Machine.execDpoint l d a s
  | .dgauss l d a b => Sys2Proof.Machine.execDgauss l d a b s
  | .dmom l d a k => Sys2Proof.Machine.execDmom l d a k s
  | .dqnt l d a b => Sys2Proof.Machine.execDqnt l d a b s
  | .dcdf l d a b => Sys2Proof.Machine.execDcdf l d a b s
  | .dld l d a => Sys2Proof.Machine.execDld l d a s
  | .dst l d a => Sys2Proof.Machine.execDst l d a s
  | .xbox l d a b => Sys2Proof.Machine.execXbox l d a b s
  | .xtri l d a b => Sys2Proof.Machine.execXtri l d a b s
  | .xedge l d a b => Sys2Proof.Machine.execXedge l d a b s
  | .vdedup l d a b => Sys2Proof.Machine.execVdedup l d a b s
  | .tfetch l d a b => Sys2Proof.Machine.execTfetch l d a b s
  | .tgrad l d a b => Sys2Proof.Machine.execTgrad l d a b s
  | .gfeat l d a b => Sys2Proof.Machine.execGfeat l d a b s
  | .zcommit l a b => Sys2Proof.Machine.execZcommit l a b s
  | .trace l d a b => Sys2Proof.Machine.execTrace l d a b s
  | .rwait l d => Sys2Proof.Machine.execRwait l d s
  | .rget l d a => Sys2Proof.Machine.execRget l d a s
  | .rhit l a b => Sys2Proof.Machine.execRhit l a b s
  | .rcancel l a => Sys2Proof.Machine.execRcancel l a s
  | .hstart l d a b => Sys2Proof.Machine.execHstart l d a b s
  | .hjoin l a => Sys2Proof.Machine.execHjoin l a s
  | .hexit l => Sys2Proof.Machine.execHexit l s
  | .hyield l => Sys2Proof.Machine.execHyield l s
  | .qput l d a => Sys2Proof.Machine.execQput l d a s
  | .qtake l d a => Sys2Proof.Machine.execQtake l d a s
  | .qsteal l d a => Sys2Proof.Machine.execQsteal l d a s
  | .qdone l a => Sys2Proof.Machine.execQdone l a s
  | .bar l a scope => Sys2Proof.Machine.execBar l a scope s
  | .barr l a scope => Sys2Proof.Machine.execBarr l a scope s
  | .barw l a scope => Sys2Proof.Machine.execBarw l a scope s
  | .rinit l a b => Sys2Proof.Machine.execRinit l a b s
  | .rawait l d a => Sys2Proof.Machine.execRawait l d a s
  | .rrel l a => Sys2Proof.Machine.execRrel l a s
  | .sbind l a b => Sys2Proof.Machine.execSbind l a b s
  | .sjob l d a => Sys2Proof.Machine.execSjob l d a s
  | .swait l a => Sys2Proof.Machine.execSwait l a s
  | .scoll l d a => Sys2Proof.Machine.execScoll l d a s
  | .ldacq l d a w scope => Sys2Proof.Machine.execLdacq l d a w scope s
  | .strel l d a w scope => Sys2Proof.Machine.execStrel l d a w scope s
  | .ofence l pred succ scope => Sys2Proof.Machine.execOfence l pred succ scope s
  | .cAddi4spn => Sys2Proof.Machine.execCAddi4spn s
  | .cLw => Sys2Proof.Machine.execCLw s
  | .cLd => Sys2Proof.Machine.execCLd s
  | .cSw => Sys2Proof.Machine.execCSw s
  | .cSd => Sys2Proof.Machine.execCSd s
  | .cAddi => Sys2Proof.Machine.execCAddi s
  | .cNop => Sys2Proof.Machine.execCNop s
  | .cAddiw => Sys2Proof.Machine.execCAddiw s
  | .cLi => Sys2Proof.Machine.execCLi s
  | .cAddi16sp => Sys2Proof.Machine.execCAddi16sp s
  | .cLui => Sys2Proof.Machine.execCLui s
  | .cSrli => Sys2Proof.Machine.execCSrli s
  | .cSrai => Sys2Proof.Machine.execCSrai s
  | .cAndi => Sys2Proof.Machine.execCAndi s
  | .cSub => Sys2Proof.Machine.execCSub s
  | .cXor => Sys2Proof.Machine.execCXor s
  | .cOr => Sys2Proof.Machine.execCOr s
  | .cAnd => Sys2Proof.Machine.execCAnd s
  | .cSubw => Sys2Proof.Machine.execCSubw s
  | .cAddw => Sys2Proof.Machine.execCAddw s
  | .cJ => Sys2Proof.Machine.execCJ s
  | .cBeqz => Sys2Proof.Machine.execCBeqz s
  | .cBnez => Sys2Proof.Machine.execCBnez s
  | .cSlli => Sys2Proof.Machine.execCSlli s
  | .cLwsp => Sys2Proof.Machine.execCLwsp s
  | .cLdsp => Sys2Proof.Machine.execCLdsp s
  | .cJr => Sys2Proof.Machine.execCJr s
  | .cMv => Sys2Proof.Machine.execCMv s
  | .cEbreak => Sys2Proof.Machine.execCEbreak s
  | .cJalr => Sys2Proof.Machine.execCJalr s
  | .cAdd => Sys2Proof.Machine.execCAdd s
  | .cSwsp => Sys2Proof.Machine.execCSwsp s
  | .cSdsp => Sys2Proof.Machine.execCSdsp s
  | .hint => Sys2Proof.Machine.execHint s
  | .illegalInstruction => Sys2Proof.Machine.execIllegalInstruction s
  | .annexSwap h names => Sys2Proof.Machine.execAnnexSwap h names s
  | .elementGroupExecute h => Sys2Proof.Machine.execElementGroupExecute h s
  | .matrixCommandExecute core => Sys2Proof.Machine.execMatrixCommandExecute core s
  | .distributionElement h => Sys2Proof.Machine.execDistributionElement h s
  | .commitReoffer h => Sys2Proof.Machine.execCommitReoffer h s
  | .rayTraversal h slot => Sys2Proof.Machine.execRayTraversal h slot s
  | .qtakeWake h => Sys2Proof.Machine.execQtakeWake h s
  | .ownedLineDrain die tick => Sys2Proof.Machine.execOwnedLineDrain die tick s
  | .interrupt core => Sys2Proof.Machine.execInterrupt core s
  | .storePerformed core => Sys2Proof.Machine.execStorePerformed core s
  | .lineWriteback line => Sys2Proof.Machine.execLineWriteback line s
  | .dirtyLineTimeout line => Sys2Proof.Machine.execDirtyLineTimeout line s
  | .tickAdvance => Sys2Proof.Machine.execTickAdvance s
  | .horizonBroadcast => Sys2Proof.Machine.execHorizonBroadcast s
  | .cxlmemRead pa bytes => Sys2Proof.Machine.execCxlmemRead pa bytes s
  | .cxlmemWrite pa data => Sys2Proof.Machine.execCxlmemWrite pa data s
  | .podWriteArrival x y z srcTag dest va data => Sys2Proof.Machine.execPodWriteArrival x y z srcTag dest va data s
  | .patternStart core port => Sys2Proof.Machine.execPatternStart core port s
  | .tileDeliver core port => Sys2Proof.Machine.execTileDeliver core port s
  | .jobStart die quad => Sys2Proof.Machine.execJobStart die quad s
  | .jobComplete die tag job => Sys2Proof.Machine.execJobComplete die tag job s
  | .collectiveRound tag group => Sys2Proof.Machine.execCollectiveRound tag group s
  | .engineFaultService die => Sys2Proof.Machine.execEngineFaultService die s
  | .primitiveAccept h => Sys2Proof.Machine.execPrimitiveAccept h s
  | .inboxRelease tag pass owner => Sys2Proof.Machine.execInboxRelease tag pass owner s
  | .commitLogPoll tag pass owner => Sys2Proof.Machine.execCommitLogPoll tag pass owner s
  | .launchDelivery tag launch => Sys2Proof.Machine.execLaunchDelivery tag launch s
  | .launchComplete tag launch => Sys2Proof.Machine.execLaunchComplete tag launch s
  | .sliceEnd die cluster => Sys2Proof.Machine.execSliceEnd die cluster s
  | .clusterIdle die cluster => Sys2Proof.Machine.execClusterIdle die cluster s
  | .contextRunnable tag die => Sys2Proof.Machine.execContextRunnable tag die s
  | .imageRestore tag image die cluster => Sys2Proof.Machine.execImageRestore tag image die cluster s
  | .contextFault tag kind die lcore value => Sys2Proof.Machine.execContextFault tag kind die lcore value s
  | .coreFailed core => Sys2Proof.Machine.execCoreFailed core s
  | .sentinelRun core cls passed => Sys2Proof.Machine.execSentinelRun core cls passed s
  | .quarantineSentinel core cls passed => Sys2Proof.Machine.execQuarantineSentinel core cls passed s
  | .shadowDrop die => Sys2Proof.Machine.execShadowDrop die s
  | .shadowSeedChange die seed => Sys2Proof.Machine.execShadowSeedChange die seed s
  | .hbmScrub die corrected => Sys2Proof.Machine.execHbmScrub die corrected s
  | .l2Scrub die corrected => Sys2Proof.Machine.execL2Scrub die corrected s
  | .linkRetry link => Sys2Proof.Machine.execLinkRetry link s
  | .linkDown link => Sys2Proof.Machine.execLinkDown link s
  | .cxlLinkDown => Sys2Proof.Machine.execCxlLinkDown s
  | .create c => Sys2Proof.Machine.execCreate c s
  | .destroy c => Sys2Proof.Machine.execDestroy c s
  | .launch c => Sys2Proof.Machine.execLaunch c s
  | .setsched c => Sys2Proof.Machine.execSetsched c s
  | .openPass c => Sys2Proof.Machine.execOpenPass c s
  | .closePass c => Sys2Proof.Machine.execClosePass c s
  | .allocDomain c => Sys2Proof.Machine.execAllocDomain c s
  | .freeDomain c => Sys2Proof.Machine.execFreeDomain c s
  | .allocGroup c => Sys2Proof.Machine.execAllocGroup c s
  | .freeGroup c => Sys2Proof.Machine.execFreeGroup c s
  | .map c => Sys2Proof.Machine.execMap c s
  | .unmap c => Sys2Proof.Machine.execUnmap c s
  | .protect c => Sys2Proof.Machine.execProtect c s
  | .page c => Sys2Proof.Machine.execPage c s
  | .notify c => Sys2Proof.Machine.execNotify c s
  | .templateMake c => Sys2Proof.Machine.execTemplateMake c s
  | .templateDrop c => Sys2Proof.Machine.execTemplateDrop c s
  | .attest c => Sys2Proof.Machine.execAttest c s
  | .fwStage c => Sys2Proof.Machine.execFwStage c s
  | .lifecycle c => Sys2Proof.Machine.execLifecycle c s
  | .reset => Sys2Proof.Machine.execReset s
  | .resync => Sys2Proof.Machine.execResync s
  | .qen on => Sys2Proof.Machine.execQen on s
  | .start => Sys2Proof.Machine.execStart s
  | .powercap v => Sys2Proof.Machine.execPowercap v s
  | .registerWrite off v => Sys2Proof.Machine.execRegisterWrite off v s
  | .powerOn => Sys2Proof.Machine.execPowerOn s
  | .cxlReset => Sys2Proof.Machine.execCxlReset s
  | .resetComplete => Sys2Proof.Machine.execResetComplete s
  | .powerControl draw => Sys2Proof.Machine.execPowerControl draw s
  | .thermalThrottle die temp => Sys2Proof.Machine.execThermalThrottle die temp s
  | .thermalStop die temp => Sys2Proof.Machine.execThermalStop die temp s
  | .graphicsRecordExecute h => Sys2Proof.Machine.execGraphicsRecordExecute h s
  | .cxlCacheSnoop pa data => Sys2Proof.Machine.execCxlCacheSnoop pa data s
  | .dieTemperatureFall die temp => Sys2Proof.Machine.execDieTemperatureFall die temp s
  | .corrHourEnd => Sys2Proof.Machine.execCorrHourEnd s

end Sys2Proof.Machine
end

