-- ==== Sys2Proof/Machine/Events.lean ====
section
/-! DEFINITION. The steps of other agents as the agenda holds them: each is the meaning of its row. -/

namespace Sys2Proof.Machine

/-- One step of another agent. -/
def runEvent (e : Event) (s : State) : Host.Outcome State Fault Refusal :=
  match e with
  | .annexSwap h names => Sys2Proof.Machine.execAnnexSwap h names s
  | .elementGroupExecute h => Sys2Proof.Machine.execElementGroupExecute h s
  | .matrixCommandExecute core => Sys2Proof.Machine.execMatrixCommandExecute core s
  | .distributionElement h => Sys2Proof.Machine.execDistributionElement h s
  | .commitReoffer h => Sys2Proof.Machine.execCommitReoffer h s
  | .rayTraversal h slot => Sys2Proof.Machine.execRayTraversal h slot s
  | .qtakeWake h => Sys2Proof.Machine.execQtakeWake h s
  | .ownedLineDrain die tick => Sys2Proof.Machine.execOwnedLineDrain die tick s
  | .interrupt core => Sys2Proof.Machine.execInterrupt core s
  | .storePerformed core => Sys2Proof.Machine.execStorePerformed core s
  | .lineWriteback line => Sys2Proof.Machine.execLineWriteback line s
  | .dirtyLineTimeout line => Sys2Proof.Machine.execDirtyLineTimeout line s
  | .tickAdvance => Sys2Proof.Machine.execTickAdvance s
  | .horizonBroadcast => Sys2Proof.Machine.execHorizonBroadcast s
  | .cxlmemRead pa bytes => Sys2Proof.Machine.execCxlmemRead pa bytes s
  | .cxlmemWrite pa data => Sys2Proof.Machine.execCxlmemWrite pa data s
  | .podWriteArrival x y z srcTag dest va data => Sys2Proof.Machine.execPodWriteArrival x y z srcTag dest va data s
  | .patternStart core port => Sys2Proof.Machine.execPatternStart core port s
  | .tileDeliver core port => Sys2Proof.Machine.execTileDeliver core port s
  | .jobStart die quad => Sys2Proof.Machine.execJobStart die quad s
  | .jobComplete die tag job => Sys2Proof.Machine.execJobComplete die tag job s
  | .collectiveRound tag group => Sys2Proof.Machine.execCollectiveRound tag group s
  | .engineFaultService die => Sys2Proof.Machine.execEngineFaultService die s
  | .primitiveAccept h => Sys2Proof.Machine.execPrimitiveAccept h s
  | .inboxRelease tag pass owner => Sys2Proof.Machine.execInboxRelease tag pass owner s
  | .commitLogPoll tag pass owner => Sys2Proof.Machine.execCommitLogPoll tag pass owner s
  | .launchDelivery tag launch => Sys2Proof.Machine.execLaunchDelivery tag launch s
  | .launchComplete tag launch => Sys2Proof.Machine.execLaunchComplete tag launch s
  | .sliceEnd die cluster => Sys2Proof.Machine.execSliceEnd die cluster s
  | .clusterIdle die cluster => Sys2Proof.Machine.execClusterIdle die cluster s
  | .contextRunnable tag die => Sys2Proof.Machine.execContextRunnable tag die s
  | .imageRestore tag image die cluster => Sys2Proof.Machine.execImageRestore tag image die cluster s
  | .contextFault tag kind die lcore value => Sys2Proof.Machine.execContextFault tag kind die lcore value s
  | .coreFailed core => Sys2Proof.Machine.execCoreFailed core s
  | .sentinelRun core cls passed => Sys2Proof.Machine.execSentinelRun core cls passed s
  | .quarantineSentinel core cls passed => Sys2Proof.Machine.execQuarantineSentinel core cls passed s
  | .shadowDrop die => Sys2Proof.Machine.execShadowDrop die s
  | .shadowSeedChange die seed => Sys2Proof.Machine.execShadowSeedChange die seed s
  | .hbmScrub die corrected => Sys2Proof.Machine.execHbmScrub die corrected s
  | .l2Scrub die corrected => Sys2Proof.Machine.execL2Scrub die corrected s
  | .linkRetry link => Sys2Proof.Machine.execLinkRetry link s
  | .linkDown link => Sys2Proof.Machine.execLinkDown link s
  | .cxlLinkDown => Sys2Proof.Machine.execCxlLinkDown s
  | .create c => Sys2Proof.Machine.execCreate c s
  | .destroy c => Sys2Proof.Machine.execDestroy c s
  | .launch c => Sys2Proof.Machine.execLaunch c s
  | .setsched c => Sys2Proof.Machine.execSetsched c s
  | .openPass c => Sys2Proof.Machine.execOpenPass c s
  | .closePass c => Sys2Proof.Machine.execClosePass c s
  | .allocDomain c => Sys2Proof.Machine.execAllocDomain c s
  | .freeDomain c => Sys2Proof.Machine.execFreeDomain c s
  | .allocGroup c => Sys2Proof.Machine.execAllocGroup c s
  | .freeGroup c => Sys2Proof.Machine.execFreeGroup c s
  | .map c => Sys2Proof.Machine.execMap c s
  | .unmap c => Sys2Proof.Machine.execUnmap c s
  | .protect c => Sys2Proof.Machine.execProtect c s
  | .page c => Sys2Proof.Machine.execPage c s
  | .notify c => Sys2Proof.Machine.execNotify c s
  | .templateMake c => Sys2Proof.Machine.execTemplateMake c s
  | .templateDrop c => Sys2Proof.Machine.execTemplateDrop c s
  | .attest c => Sys2Proof.Machine.execAttest c s
  | .fwStage c => Sys2Proof.Machine.execFwStage c s
  | .lifecycle c => Sys2Proof.Machine.execLifecycle c s
  | .reset => Sys2Proof.Machine.execReset s
  | .resync => Sys2Proof.Machine.execResync s
  | .qen on => Sys2Proof.Machine.execQen on s
  | .start => Sys2Proof.Machine.execStart s
  | .powercap v => Sys2Proof.Machine.execPowercap v s
  | .registerWrite off v => Sys2Proof.Machine.execRegisterWrite off v s
  | .powerOn => Sys2Proof.Machine.execPowerOn s
  | .cxlReset => Sys2Proof.Machine.execCxlReset s
  | .resetComplete => Sys2Proof.Machine.execResetComplete s
  | .powerControl draw => Sys2Proof.Machine.execPowerControl draw s
  | .thermalThrottle die temp => Sys2Proof.Machine.execThermalThrottle die temp s
  | .thermalStop die temp => Sys2Proof.Machine.execThermalStop die temp s
  | .graphicsRecordExecute h => Sys2Proof.Machine.execGraphicsRecordExecute h s
  | .cxlCacheSnoop pa data => Sys2Proof.Machine.execCxlCacheSnoop pa data s
  | .dieTemperatureFall die temp => Sys2Proof.Machine.execDieTemperatureFall die temp s
  | .corrHourEnd => Sys2Proof.Machine.execCorrHourEnd s

end Sys2Proof.Machine
end

