-- ==== Sys2Proof/Machine/Clock.lean ====
section
/-! DEFINITION. One cycle passes (log 6, log 9): what counts cc counts it, and the units that move next are asked: some at
every cycle, those that wait for something again every 64. -/

namespace Sys2Proof.Machine

/-! Counting. -/

/-- The contexts resident on a die (R399). -/
def Die.tags (d : Die) : List Nat := (d.clusters.map (fun e => e.2.tag)).dedup

/-- R302, R303: the resident cc of every resident context. -/
def State.countResident (s : State) : State :=
  s.dies.foldl (fun s d => d.2.tags.foldl (fun s t =>
    s.onCtx t (fun c => { c with residentCc := Tab.set c.residentCc d.1 (c.residentAt d.1 + 1) })) s) s

/-- R400: whether a cluster is idle: no live helper, no taken task, and no task eligible for its cores. -/
def State.clusterIdle (s : State) (die k : Nat) : Bool :=
  (clusterCores die k).all (fun c =>
    let m := s.img c
    m.taken.isEmpty && m.harts.all (fun h => h.1 == 0 || !h.2.live) && !s.taskReady c)

/-- R400: a cluster's slice and idle cc. -/
def State.countCluster (s : State) (die k : Nat) (cl : Cluster) : Cluster :=
  { cl with slice := cl.slice + 1, idle := if s.clusterIdle die k then cl.idle + 1 else 0 }

/-- R400: the slices and idle cc of every cluster. -/
def State.countClusters (s : State) : State :=
  { s with dies := Tab.mapVal s.dies (fun n d => { d with clusters := Tab.mapVal d.clusters (fun k cl => s.countCluster n k cl) }) }

/-- R271: the bound of hyield. -/
def Hart.countYield (t : Hart) : Hart :=
  match t.yield with
  | some (l, n) => { t with yield := if n ≤ 1 then none else some (l, n - 1) }
  | none => t

/-- R271: the hyields of the running cores. -/
def State.countYields (s : State) : State :=
  s.running.foldl (fun s c =>
    if (s.img c).harts.any (fun h => h.2.yield.isSome) then
      s.onImg c (fun m => { m with harts := Tab.mapVal m.harts (fun _ t => t.countYield) })
    else s) s

/-- Seconds since the reset, and since provisioning (R432), at 850 MHz (log 9). -/
def State.countSeconds (s : State) : State :=
  if s.cc % 850000000 = 0 then
    { s with mgmt := { s.mgmt with secs := s.mgmt.secs + 1 }, devStore := { s.devStore with life := s.devStore.life + 1 } }
  else s

/-- The counters of cc. -/
def State.count (s : State) : State :=
  ({ s with cc := s.cc + 1 } : State).countResident.countClusters.countYields.countSeconds

/-! What moves next. -/

/-- Steps that come when a count is reached: ticks, dirty lines, slices and idle clusters (R322, R327, R328, R400). -/
def State.dueSteps (s : State) : List Event :=
  (if s.cc % Config.tickPeriod = 0 then [.tickAdvance, .horizonBroadcast] else [])
    ++ s.dies.flatMap (fun d => (d.2.owned.filter (fun e => e.2.late s.cc)).map (fun e => Event.dirtyLineTimeout e.1))
    ++ s.dies.flatMap (fun d => d.2.clusters.flatMap (fun e =>
      (if s.sliceCc e.2.tag ≤ e.2.slice then [Event.sliceEnd d.1 e.1] else [])
        ++ (if 4096 ≤ e.2.idle ∧ e.2.idle % 64 = 0 then [Event.clusterIdle d.1 e.1] else [])))

/-- The clusters of a die whose image no longer fits them (R434). -/
def State.misfitSteps (s : State) (n : Nat) (d : Die) : List Event :=
  (d.clusters.filter (fun e => s.misfits n e.1)).map (fun e => Event.sliceEnd n e.1)

/-- The engines of a die that are asked again. -/
def State.engineSteps (s : State) (n : Nat) (d : Die) : List Event :=
  (d.patterns.map (fun p =>
    let c := s.portCore p.tag p.lcore
    if p.running then Event.tileDeliver c p.port else Event.patternStart c p.port)).dedup
    ++ d.jobs.flatMap (fun j =>
      (if j.op = 3 then [Event.collectiveRound j.tag j.collective.group] else [Event.jobStart n j.quad])
        ++ (if j.running || j.ending.isSome then [Event.jobComplete n j.tag (BitVec.ofNat 64 j.num)] else []))
    ++ (if d.parked.isEmpty then [] else [Event.engineFaultService n])
    ++ s.misfitSteps n d
    ++ (match s.nextContext n with
        | some e => [Event.contextRunnable e.1 n]
        | none => [])
    ++ (if s.ctxs.any (fun e => e.2.shadows.any (fun r => e.2.staleShadow n r)) then [Event.shadowDrop n] else [])

/-- The passes and launches of a context that are asked again. -/
def Ctx.steps (c : Ctx) (tag : Nat) : List Event :=
  c.passes.flatMap (fun p => p.2.owners.flatMap (fun u =>
    Event.commitLogPoll tag p.1 u.lcore :: (if u.inbox.isEmpty then [] else [Event.inboxRelease tag p.1 u.lcore])))
    ++ c.launches.flatMap (fun l =>
      (if l.2.pendingCmd.isSome then [Event.launchDelivery tag l.1] else [])
        ++ (if l.2.closed && l.2.outstanding == 0 && !l.2.completed then [Event.launchComplete tag l.1] else []))

/-- The rays and commits of a core that are asked again. -/
def State.coreSteps (s : State) (c : Nat) : List Event :=
  (s.img c).harts.flatMap (fun h =>
    (h.2.rays.filter (fun r => r.2.phase = .running)).map (fun r => Event.rayTraversal { core := c, h := h.1 } r.1)
      ++ (if h.2.zwait.isSome then [Event.commitReoffer { core := c, h := h.1 }] else []))

/-- Every 64 cc: what waits is asked again. -/
def State.pollSteps (s : State) : List Event :=
  if s.cc % 64 = 0 then
    (if s.mgmt.ready then [] else [.resetComplete])
      ++ s.dies.flatMap (fun d => s.engineSteps d.1 d.2)
      ++ s.ctxs.flatMap (fun e => e.2.steps e.1)
      ++ s.running.flatMap s.coreSteps
  else []

/-! The management queue. -/

/-- The first of some things that wait in a context that may move; `before` stands before them (R378). -/
def Ctx.firstFree (c : Ctx) (blocked : Event → Bool) (before : List Event) : List Event → Option Event
  | [] => none
  | e :: l =>
    if blocked e || before.any (fun w => c.follows w e) then c.firstFree blocked (before ++ [e]) l else some e

/-- R378, R408: what moves next of the things that wait in a context, the oldest that follows none before it; a command of the
host waits for the delivery of the launch before it. -/
def Ctx.nextDeferred (c : Ctx) : Option Event :=
  let delivering := c.launches.any (fun l => l.2.pendingCmd.isSome)
  c.firstFree (fun e => hostStep e && delivering) [] c.deferred

/-- What waits in the contexts moves on. -/
def State.pumpDeferred (s : State) : State :=
  s.ctxs.foldl (fun s e =>
    match e.2.nextDeferred with
    | some v => (s.onCtx e.1 (fun c => { c with deferred := c.deferred.erase v })).post v
    | none => s) s

/-- R448: whether firmware may read a command record. -/
def Mgmt.mayRead (m : Mgmt) : Bool :=
  m.qen && !m.rsb && m.cmdqHead != m.cmdqTail && m.ringOpen && m.waiting.isEmpty && m.cmdqSize != 0

/-- R374, R448: the next record of the command ring is read; one that cannot be read is not a record (log 40). -/
def State.readRing (s : State) : State :=
  if s.mgmt.mayRead then
    let m := s.mgmt
    let s1 : State := { s with mgmt := { m with cmdqHead := m.cmdqHead + 1 } }
    match s1.physRead 0 (hostPa (m.cmdqBase.toNat + 64 * (m.cmdqHead.toNat % m.cmdqSize.toNat))) 64 with
    | some (bs, s2) => s2.takeCommand .host (at_ bs 2 2) bs s2.cur 0
    | none => s1
  else s

/-- One cycle passes. -/
def State.clock (s : State) : State :=
  let s1 := s.count
  let s2 : State := { s1 with agenda := s1.agenda ++ s1.dueSteps ++ s1.pollSteps }
  s2.pumpRing.pumpDeferred.readRing.pumpResync

end Sys2Proof.Machine
end

