-- ==== Sys2Proof/Machine/Turn.lean ====
section
/-! DEFINITION. An issue slot up to the instruction: whose turn it is (R311; log 6), the interrupt that comes first
(R290), and the comparison point of shadow execution (R437). -/

namespace Sys2Proof.Machine

/-- A cycle begins when every running core has had its issue slot in the last (R311; log 6). -/
def State.cycle (s : State) : State :=
  if s.slot = 0 then
    let s1 := s.clock
    { s1 with slot := s1.running.length, tried := [] }
  else s

/-- The core whose slot it is, with the hardware context that issues on it as the executing one; none where nothing on it
can issue, which ends its slot, and under a thermal stop (R457). -/
def State.turn (s : State) : Option State × State :=
  match s.running with
  | [] => (none, { s with slot := 0, tried := [] })
  | c :: _ =>
    if s.mgmt.therm then (none, { s with slot := 0, tried := [] })
    else
      match s.selectHart c with
      | some h => (some { s with cur := { core := c, h := h } }, s)
      | none => (none, s.passSlot c)

/-- The interrupt taken in place of the next instruction: the context and the code (R290). -/
def State.interruptNow (s : State) : Option (Nat × Nat) :=
  if s.cur.h = 0 then
    match s.tagOf s.cur.core, s.dueInterrupt s.cur.core with
    | some tag, some code => some (tag, code)
    | _, _ => none
  else none

/-- R437: the instructions with an effect outside the helper other than a store; the tiles of a core and the additions
of gfeat are outside it too, and vcfg, vsetl and bsubnz change the helper's own registers (log 27). -/
def isOutside : Instr → Bool
  | .lrW .. | .lrD .. | .scW .. | .scD .. | .amoswapW .. | .amoswapD .. | .amoaddW .. | .amoaddD .. | .amoxorW ..
  | .amoxorD .. | .amocasW .. | .amocasD .. | .amoandW .. | .amoandD .. | .amoorW .. | .amoorD .. | .amominW ..
  | .amominD .. | .amomaxW .. | .amomaxD .. | .amominuW .. | .amominuD .. | .amomaxuW .. | .amomaxuD .. => true
  | .vamoadd .. | .vamomin .. | .vamomax .. | .vamoswap .. => true
  | .strel .. | .ldacq .. | .ofence .. => true
  | .hstart .. | .hjoin .. | .hexit .. | .qput .. | .qtake .. | .qsteal .. | .qdone .. | .bar .. | .barr .. | .barw ..
  | .rinit .. | .rawait .. | .rrel .. | .sbind .. | .sjob .. | .swait .. | .scoll .. => true
  | .zcommit .. | .trace .. | .rhit .. => true
  | .mcfg .. | .mopa .. | .mzero .. | .mld .. | .mst .. | .mstRel .. | .mrelease .. | .mwexp .. | .gfeat .. => true
  | _ => false

/-- R437: while a run of a selected task folds its hash, each instruction waits until what it has in flight has completed, so
that a comparison at the 513th dword finds x1 to x31 as they are there (log 27). At an instruction that is the comparison
point the hashes are compared; a shadow helper goes no further. -/
def State.shadowPoint (s : State) (i : Instr) (k : State → Out) : Out :=
  match s.me.task with
  | some t =>
    if t.folds then
      s.unchained (fun s =>
        if isOutside i then
          let s1 := s.compareShadow s.cur s.myTag
          if t.task.shadow then .next s1 else k s1
        else k s)
    else k s
  | none => k s

end Sys2Proof.Machine
end

