-- ==== Sys2Proof/Machine/Step.lean ====
section
/-! DEFINITION. One step of the module: the step of another agent that moves next, or one issue slot of one core
(log 6); and where a program is placed (log 2). -/

namespace Sys2Proof.Machine

/-- The instruction of the chosen hardware context, fetched and executed, or the interrupt that comes first. While one in
flight stands inside a group, that group goes on first, so that a trap or an interrupt finds a stopping point (R45; log 7). -/
def issueSlot (s : State) : Host.Outcome State Fault Refusal :=
  if s.me.inside then .next (s.finishGroups s.cur)
  else
  match s.interruptNow with
  | some (tag, code) => .next (s.takeInterrupt tag code)
  | none =>
    match s.nextInstr with
    | .ok i s1 => s1.shadowPoint i (fun s2 => exec i s2)
    | .trap t s1 => s1.trap t.cause t.tval
    | .wait s1 => .next s1

/-- One step. -/
def step (s : State) : Host.Outcome State Fault Refusal :=
  match s.agenda with
  | e :: l => runEvent e { s with agenda := l }
  | [] =>
    match s.cycle.turn with
    | (some s1, _) =>
      match issueSlot s1 with
      | .next t => .next (t.settle s1.cur s1.me)
      | o => o
    | (none, s1) => .next s1

/-- The machine with an instruction's bits stored where the next step fetches: at the pc of the control context of the
core whose turn is next, as physical memory, with nothing else due before it (log 2). -/
def State.withFetchWord (s : State) (nbits w : Nat) : State :=
  let c := s.running.headD 0
  let pc := (s.hart { core := c, h := 0 }).pc.toNat
  let s1 := s.onCore c (fun k => { k with icache := [] })
  { s1 with mem := Memory.write s1.mem pc (bytesLE (max 4 (nbits / 8)) w), agenda := [], tried := [] }

end Sys2Proof.Machine
end

