-- ==== Sys2Proof/Safety.lean ====
section
/-! DEFINITION. What counts as a safe run, and the words in which claims are made: an idle hardware context, what an
instruction of registers alone leaves of the state, frames, and the byte that memory holds at an address. -/

namespace Sys2Proof.Machine

/-- A step has a next state. -/
def SafeAt (s : State) : Prop := ∃ t, step s = .next t

/-- The states that steps lead to. -/
inductive Reaches : State → State → Prop where
  | here (s : State) : Reaches s s
  | step {s t u : State} : Reaches s t → step t = .next u → Reaches s u

/-- A machine that never stops: every state it comes to has a next one. -/
def Safe (s : State) : Prop := ∀ t, Reaches s t → SafeAt t

/-! Instructions of registers alone. -/

/-- Nothing of the executing hardware context is in flight, and no lookahead window of it is open (R39, R41). -/
def State.idle (s : State) : Prop := s.me.chain = [] ∧ s.me.windows = []

/-- Every access that the hardware context has made is performed but for stores that wait: no matrix command of its core is
left, and no ray of it has reads to make (R128, R211, R259). -/
def State.performed (s : State) : Prop := (s.img s.cur.core).mq = [] ∧ s.me.rayReading = none

/-- Nothing of the hardware context is in flight, no access that it has made waits, and no store of the core either. -/
def State.quiet (s : State) : Prop := s.idle ∧ s.performed ∧ s.myCore.img.stores = []

/-- The same, but that rays of the hardware context may have reads to make. -/
def State.settled (s : State) : Prop := s.idle ∧ (s.img s.cur.core).mq = [] ∧ s.myCore.img.stores = []

/-- An instruction of a length completes with a value for x[d] (R18, R116). -/
def State.wrote (s : State) (d : Reg) (v : Word) (len : Nat) : State := s.onMe (fun t => (t.put d v).complete len)

/-- An instruction of a length completes. -/
def State.passed (s : State) (len : Nat) : State := s.onMe (fun t => t.complete len)

/-- A long-latency instruction carried out at issue completes, and its window opens (R41; log 8). -/
def State.passedLong (s : State) (l : BitVec 4) (reads writes : List RegName) : State :=
  s.onMe (fun t => (t.complete 4).openWindow s.hold l.toNat reads writes)

/-- A long-latency instruction carried out at issue completes with a value for x[d], and its window opens. -/
def State.wroteLong (s : State) (l : BitVec 4) (d : Reg) (v : Word) : State :=
  s.onMe (fun t => ((t.put d v).complete 4).openWindow s.hold l.toNat [] (xs [d]))

/-- An instruction completes and the pc goes to an address, with a value for x[d]. -/
def State.went (s : State) (d : Reg) (v target : Word) : State :=
  s.onMe (fun t => { (t.put d v).complete 0 with pc := target })

/-- The executing hardware context runs no selected task: its stores fold into no hash, and all of them are performed
(R437). -/
def State.unshadowed (s : State) : Prop := ∀ k, s.me.task = some k → k.folds = false ∧ k.task.shadow = false

/-- No copy of the core's SRAM, of a queue or of a TLB holds an error (R438). -/
def State.errorFree (s : State) : Prop := s.badCore = [] ∧ s.soft = []

/-! Frames. -/

/-- A core without its hardware contexts. -/
def Core.bare (k : Core) : Core := { k with img := { k.img with harts := [] } }

/-- Nothing but the executing hardware context differs: every other hardware context, every core, die and context,
all of memory, and the module's own registers are the same. -/
def State.sameElse (s t : State) : Prop :=
  { t with cores := s.cores } = s ∧ (∀ c, (t.core c).bare = (s.core c).bare) ∧ (∀ j, j ≠ s.cur → t.hart j = s.hart j)

/-- Of a hardware context only x, the pc and minstret may differ: flags, controls, vector and distribution registers,
status and exception registers, mode, and reservation are the same. -/
def Hart.sameButX (a b : Hart) : Prop := { b with x := a.x, pc := a.pc, minstret := a.minstret } = a

/-- An x register, and no other, has a new value; x0 reads zero whatever is written (R18). -/
def State.writesX (s t : State) (d : Reg) (v : Word) : Prop :=
  t.x d = (if d = 0 then 0 else v) ∧ ∀ r, r ≠ d → t.x r = s.x r

/-! The vector unit. -/

/-- The vector length a hardware context can hold: no more than VLMAX, in registers of at most 16,384 bits (R21, R27). -/
def Hart.lengthFits (t : Hart) : Prop :=
  t.vl.toNat * cfgWidth t.vcfgst ≤ cfgVlen t.vcfgst ∧ cfgVlen t.vcfgst ≤ 16384 ∧ t.vpad.toNat ≤ t.vl.toNat

/-! Memory. -/

/-- The byte of memory at a physical address as the machine holds it now: the owning die's copy of the line, or the home's
(R324). -/
def State.byteAt (s : State) (pa : Nat) : Byte :=
  if isHost pa then Memory.get s.mem pa
  else
    match (s.homeLine (pa / 128)).owner with
    | some d =>
      match Tab.get? (s.die d).owned (pa / 128) with
      | some o => lineByte o.val (pa % 128)
      | none => Memory.get s.mem pa
    | none => Memory.get s.mem pa

/-- The byte of a core's scratchpad at an offset (R315). -/
def State.scratchByte (s : State) (core off : Nat) : Byte := Memory.get (s.img core).scratch off

/-- Every owned copy is of a line that its home says the die owns, a clean one is as the home holds the line, and a dirty one
can be written back (R324, R327, R440). -/
def State.coherent (s : State) : Prop :=
  ∀ d ln o, Tab.get? (s.die d).owned ln = some o →
    (s.homeLine ln).owner = some d ∧ (o.dirty = false → o.val = s.homeVal ln) ∧ (o.dirty = true → s.isBad (ln * 128) = false)

end Sys2Proof.Machine
end

