-- ==== Sys2Proof/Certificates/Slice0/Obligations.lean ====
section
/-! DEFINITION. The statements for the provers, from the spec's numbered rules, and the tables they are written with:
what a compressed instruction expands to, and what each instruction of a family computes. -/

namespace Sys2Proof.Spec

open Sys2Proof.Machine

/-! The base set (R116, R117) and its compressed forms (R86, R120). -/

/-- R86, R120: the instruction that a compressed one behaves as, and the length in bytes; any other is itself. -/
def expand (i : Instr) (ir : BitVec 32) : Instr × Nat :=
  let p := CParts.ofWord (ir.setWidth 16)
  match i with
  | .cAddi4spn => (.addi p.r2 2 (p.immSpn.setWidth 12 <<< 2), 2)
  | .cLw => (.lw p.r2 p.r1 (p.immW.setWidth 12 <<< 2), 2)
  | .cLd => (.ld p.r2 p.r1 (p.immD.setWidth 12 <<< 3), 2)
  | .cSw => (.sw p.r1 p.r2 (p.immW.setWidth 12 <<< 2), 2)
  | .cSd => (.sd p.r1 p.r2 (p.immD.setWidth 12 <<< 3), 2)
  | .cAddi => (.addi p.rd p.rd (p.imm6.signExtend 12), 2)
  | .cNop => (.addi 0 0 0, 2)
  | .cAddiw => (.addiw p.rd p.rd (p.imm6.signExtend 12), 2)
  | .cLi => (.addi p.rd 0 (p.imm6.signExtend 12), 2)
  | .cAddi16sp => (.addi 2 2 (p.imm16sp.signExtend 12 <<< 4), 2)
  | .cLui => (.lui p.rd (p.imm6.signExtend 20), 2)
  | .cSrli => (.srli p.r1 p.r1 p.imm6, 2)
  | .cSrai => (.srai p.r1 p.r1 p.imm6, 2)
  | .cAndi => (.andi p.r1 p.r1 (p.imm6.signExtend 12), 2)
  | .cSub => (.sub p.r1 p.r1 p.r2, 2)
  | .cXor => (.xor p.r1 p.r1 p.r2, 2)
  | .cOr => (.or p.r1 p.r1 p.r2, 2)
  | .cAnd => (.and p.r1 p.r1 p.r2, 2)
  | .cSubw => (.subw p.r1 p.r1 p.r2, 2)
  | .cAddw => (.addw p.r1 p.r1 p.r2, 2)
  | .cJ => (.jal 0 (p.immJ.signExtend 20), 2)
  | .cBeqz => (.beq p.r1 0 (p.immB.signExtend 12), 2)
  | .cBnez => (.bne p.r1 0 (p.immB.signExtend 12), 2)
  | .cSlli => (.slli p.rd p.rd p.imm6, 2)
  | .cLwsp => (.lw p.rd 2 (p.immLwsp.setWidth 12 <<< 2), 2)
  | .cLdsp => (.ld p.rd 2 (p.immLdsp.setWidth 12 <<< 3), 2)
  | .cJr => (.jalr 0 p.rd 0, 2)
  | .cMv => (.add p.rd 0 p.rs2, 2)
  | .cEbreak => (.ebreak, 2)
  | .cJalr => (.jalr 1 p.rd 0, 2)
  | .cAdd => (.add p.rd p.rd p.rs2, 2)
  | .cSwsp => (.sw 2 p.rs2 (p.immSwsp.setWidth 12 <<< 2), 2)
  | .cSdsp => (.sd 2 p.rs2 (p.immSdsp.setWidth 12 <<< 3), 2)
  | .hint => (.addi 0 0 0, 2)
  | i => (i, 4)

/-- The low 32 bits of a value, sign-extended. -/
def low32 (w : Word) : Word := (w.setWidth 32).signExtend 64

/-- The value that an instruction of the base set computes, from the values of its sources and the pc. -/
def computed (i : Instr) (s : State) : Option (Reg × Word) :=
  let x := s.x
  match i with
  | .lui d i => some (d, (i ++ (0 : BitVec 12)).signExtend 64)
  | .auipc d i => some (d, s.pc + (i ++ (0 : BitVec 12)).signExtend 64)
  | .addi d a i => some (d, x a + i.signExtend 64)
  | .slti d a i => some (d, if (x a).toInt < i.toInt then 1 else 0)
  | .sltiu d a i => some (d, if (x a).toNat < (i.signExtend 64 : Word).toNat then 1 else 0)
  | .xori d a i => some (d, x a ^^^ i.signExtend 64)
  | .ori d a i => some (d, x a ||| i.signExtend 64)
  | .andi d a i => some (d, x a &&& i.signExtend 64)
  | .slli d a h => some (d, x a <<< h.toNat)
  | .srli d a h => some (d, x a >>> h.toNat)
  | .srai d a h => some (d, BitVec.ofInt 64 ((x a).toInt >>> h.toNat))
  | .addiw d a i => some (d, low32 (x a + i.signExtend 64))
  | .slliw d a h => some (d, low32 (x a <<< h.toNat))
  | .srliw d a h => some (d, (((x a).setWidth 32 : BitVec 32) >>> h.toNat).signExtend 64)
  | .sraiw d a h => some (d, BitVec.ofInt 64 (((x a).setWidth 32 : BitVec 32).toInt >>> h.toNat))
  | .add d a b => some (d, x a + x b)
  | .sub d a b => some (d, x a - x b)
  | .sll d a b => some (d, x a <<< ((x b).toNat % 64))
  | .slt d a b => some (d, if (x a).toInt < (x b).toInt then 1 else 0)
  | .sltu d a b => some (d, if (x a).toNat < (x b).toNat then 1 else 0)
  | .xor d a b => some (d, x a ^^^ x b)
  | .srl d a b => some (d, x a >>> ((x b).toNat % 64))
  | .sra d a b => some (d, BitVec.ofInt 64 ((x a).toInt >>> ((x b).toNat % 64)))
  | .or d a b => some (d, x a ||| x b)
  | .and d a b => some (d, x a &&& x b)
  | .mul d a b => some (d, BitVec.ofNat 64 ((x a).toNat * (x b).toNat))
  | .mulh d a b => some (d, BitVec.ofInt 64 ((x a).toInt * (x b).toInt / 2 ^ 64))
  | .mulhsu d a b => some (d, BitVec.ofInt 64 ((x a).toInt * (x b).toNat / 2 ^ 64))
  | .mulhu d a b => some (d, BitVec.ofNat 64 ((x a).toNat * (x b).toNat / 2 ^ 64))
  | .div d a b => some (d, if x b = 0 then BitVec.allOnes 64 else BitVec.ofInt 64 ((x a).toInt.tdiv (x b).toInt))
  | .divu d a b => some (d, if x b = 0 then BitVec.allOnes 64 else BitVec.ofNat 64 ((x a).toNat / (x b).toNat))
  | .rem d a b => some (d, if x b = 0 then x a else BitVec.ofInt 64 ((x a).toInt.tmod (x b).toInt))
  | .remu d a b => some (d, if x b = 0 then x a else BitVec.ofNat 64 ((x a).toNat % (x b).toNat))
  | .addw d a b => some (d, low32 (x a + x b))
  | .subw d a b => some (d, low32 (x a - x b))
  | .sllw d a b => some (d, low32 (x a <<< ((x b).toNat % 32)))
  | .srlw d a b => some (d, (((x a).setWidth 32 : BitVec 32) >>> ((x b).toNat % 32)).signExtend 64)
  | .sraw d a b => some (d, BitVec.ofInt 64 (((x a).setWidth 32 : BitVec 32).toInt >>> ((x b).toNat % 32)))
  | .mulw d a b => some (d, low32 (x a * x b))
  | .divw d a b =>
    let n : BitVec 32 := (x a).setWidth 32
    let m : BitVec 32 := (x b).setWidth 32
    some (d, if m = 0 then BitVec.allOnes 64 else (BitVec.ofInt 32 (n.toInt.tdiv m.toInt)).signExtend 64)
  | .divuw d a b =>
    let n : BitVec 32 := (x a).setWidth 32
    let m : BitVec 32 := (x b).setWidth 32
    some (d, if m = 0 then BitVec.allOnes 64 else (BitVec.ofNat 32 (n.toNat / m.toNat)).signExtend 64)
  | .remw d a b =>
    let n : BitVec 32 := (x a).setWidth 32
    let m : BitVec 32 := (x b).setWidth 32
    some (d, if m = 0 then n.signExtend 64 else (BitVec.ofInt 32 (n.toInt.tmod m.toInt)).signExtend 64)
  | .remuw d a b =>
    let n : BitVec 32 := (x a).setWidth 32
    let m : BitVec 32 := (x b).setWidth 32
    some (d, if m = 0 then n.signExtend 64 else (BitVec.ofNat 32 (n.toNat % m.toNat)).signExtend 64)
  | _ => none

/-- The branch that an instruction is: its sources, its offset, and whether it is taken. -/
def branchOf (i : Instr) (s : State) : Option (Word × Bool) :=
  let x := s.x
  let off (o : BitVec 12) : Word := (o ++ (0 : BitVec 1)).signExtend 64
  match i with
  | .beq a b o => some (off o, decide (x a = x b))
  | .bne a b o => some (off o, decide (x a ≠ x b))
  | .blt a b o => some (off o, decide ((x a).toInt < (x b).toInt))
  | .bge a b o => some (off o, decide ((x b).toInt ≤ (x a).toInt))
  | .bltu a b o => some (off o, decide ((x a).toNat < (x b).toNat))
  | .bgeu a b o => some (off o, decide ((x b).toNat ≤ (x a).toNat))
  | _ => none

/-- The jump that an instruction is: the register that it links and its target. -/
def jumpOf (i : Instr) (s : State) : Option (Reg × Word) :=
  match i with
  | .jal d off => some (d, s.pc + (off ++ (0 : BitVec 1)).signExtend 64)
  | .jalr d a i => some (d, (s.x a + i.signExtend 64) &&& ~~~1#64)
  | _ => none

/-- The load that an instruction is: its destination, address, bytes, and whether it sign-extends. -/
def loadOf (i : Instr) (s : State) : Option (Reg × Word × Nat × Bool) :=
  let at_ (a : Reg) (i : BitVec 12) : Word := s.x a + i.signExtend 64
  match i with
  | .lb d a i => some (d, at_ a i, 1, true)
  | .lh d a i => some (d, at_ a i, 2, true)
  | .lw d a i => some (d, at_ a i, 4, true)
  | .ld d a i => some (d, at_ a i, 8, true)
  | .lbu d a i => some (d, at_ a i, 1, false)
  | .lhu d a i => some (d, at_ a i, 2, false)
  | .lwu d a i => some (d, at_ a i, 4, false)
  | _ => none

/-- The store that an instruction is: its address and the bytes it stores, lowest first. -/
def storeOf (i : Instr) (s : State) : Option (Word × List Byte) :=
  let at_ (a : Reg) (i : BitVec 12) : Word := s.x a + i.signExtend 64
  match i with
  | .sb a b i => some (at_ a i, lowBytes 1 (s.x b))
  | .sh a b i => some (at_ a i, lowBytes 2 (s.x b))
  | .sw a b i => some (at_ a i, lowBytes 4 (s.x b))
  | .sd a b i => some (at_ a i, lowBytes 8 (s.x b))
  | _ => none

end Sys2Proof.Spec

namespace Sys2Proof

open Sys2Proof.Machine Sys2Proof.Spec

/-! Memory accesses (R117, R315, R318 to R328). -/

/-- A store hands its bytes to memory at its address, and changes no register (R117). -/
def Spec.StoreWritesItsRegister : Prop :=
  ∀ (i : Instr) (s s1 : State) (va : Word) (data : List Byte),
    storeOf (expand i s.ir).1 s = some (va, data) → ¬ (va = controlWindow ∧ data.length = 8 ∧ (s.tagOf s.cur.core).isSome) →
      s.idle → s.write va data = .ok () s1 → exec i s = .next (s1.passed (expand i s.ir).2)

/-- A dword store to the control window of a core that serves a context submits the command record at x[rs2] (R375). -/
def Spec.StoreToTheControlWindowSubmits : Prop :=
  ∀ (i : Instr) (s s1 : State) (a b : Reg) (o : BitVec 12),
    (expand i s.ir).1 = .sd a b o → s.x a + o.signExtend 64 = controlWindow → (s.tagOf s.cur.core).isSome = true →
      s.idle → s.submitCommand (s.x b) = .ok () s1 → exec i s = .next (s1.passed (expand i s.ir).2)

/-- A misaligned scalar load takes cause 4 and a misaligned scalar store cause 6, with the address in xtval (R117). -/
def Spec.MisalignedScalarAccessTraps : Prop :=
  (∀ (i : Instr) (s : State) (d : Reg) (va : Word) (n : Nat) (sg : Bool),
    loadOf (expand i s.ir).1 s = some (d, va, n, sg) → s.idle → va.toNat % n ≠ 0 → exec i s = s.trap 4 va)
  ∧ (∀ (i : Instr) (s : State) (va : Word) (data : List Byte),
    storeOf (expand i s.ir).1 s = some (va, data) → s.idle → va.toNat % data.length ≠ 0 → exec i s = s.trap 6 va)

/-- A load by a die manager core at a physical address of its own die that no die owns and no store waits for reads the
bytes that memory holds there (R318, R325). -/
def Spec.LocalLoadReadsMemory : Prop :=
  ∀ (s : State) (va : Word) (n : Nat), 0 < n → n ≤ 8 → 128 % n = 0 → va.toNat % n = 0 →
    s.myCore.serving = none → s.me.dataPriv.mode = .m → isDevice va.toNat = true →
    homeDie va.toNat = dieOf s.cur.core → s.isBad va.toNat = false → s.myCore.img.stores = [] → s.unshadowed →
    (s.homeLine (va.toNat / 128)).owner = none →
    Tab.get? (s.die (dieOf s.cur.core)).owned (va.toNat / 128) = none →
    Tab.get? (s.die (dieOf s.cur.core)).loans (va.toNat / 128) = none →
    tickLe (s.homeLine (va.toNat / 128)).wts s.myCore.ptick = true →
    ∃ t, s.read va n = .ok (Memory.read s.mem va.toNat n) t ∧ t.mem = s.mem
      ∧ (∀ j, t.hart j = s.hart j) ∧ t.dies = s.dies ∧ t.home = s.home

/-- A load changes no byte of memory and no register: where the copies agree with their homes and no store of the core
waits, every byte of memory and of scratchpad is what it was, and of the hardware contexts nothing but a reservation
(R317, R318, R325, R327). -/
def Spec.LoadChangesNoByte : Prop :=
  ∀ (s t : State) (va : Word) (n : Nat) (bs : List Byte),
    s.coherent → s.myCore.img.stores = [] → s.read va n = .ok bs t →
      (∀ a, t.byteAt a = s.byteAt a) ∧ (∀ c off, t.scratchByte c off = s.scratchByte c off) ∧ t.cur = s.cur
        ∧ ∀ j, { t.hart j with resv := none } = { s.hart j with resv := none }

/-- A store to memory changes the bytes it stores and no other, and no register: at the place that its address leads
to (R318, R326). -/
def Spec.StoreChangesItsBytesAlone : Prop :=
  ∀ (s s0 t : State) (va : Word) (data : List Byte) (pa : Nat) (sh g : Bool),
    s.coherent → s.myCore.img.stores = [] → s.hold = false → s.unshadowed →
    s.dataPlace .store va data.length = .ok (.mem pa sh g) s0 → pa % 128 + data.length ≤ 128 →
    s.write va data = .ok () t →
      (∀ a, t.byteAt a = if pa ≤ a ∧ a < pa + data.length then data.getD (a - pa) 0 else s.byteAt a)
        ∧ (∀ c off, t.scratchByte c off = s.scratchByte c off)
        ∧ ∀ j, { t.hart j with resv := none } = { s.hart j with resv := none }

/-- A store to a scratchpad changes the bytes it stores and no other (R315). -/
def Spec.ScratchStoreChangesItsBytesAlone : Prop :=
  ∀ (s s0 t : State) (va : Word) (data : List Byte) (k off : Nat),
    s.myCore.img.stores = [] → s.hold = false → s.unshadowed →
    s.dataPlace .store va data.length = .ok (.scratch k off) s0 → s.write va data = .ok () t →
      (∀ c o, t.scratchByte c o =
        if c = k ∧ off ≤ o ∧ o < off + data.length then data.getD (o - off) 0 else s.scratchByte c o)
        ∧ (∀ a, t.byteAt a = s.byteAt a)
        ∧ ∀ j, { t.hart j with resv := none } = { s.hart j with resv := none }

/-! Taking an exception and returning from one (R45 to R49, R119, R137, R289 to R291, R403, R460). -/

/-- The status that entry to S-mode leaves (R289): SPIE is SIE, SIE is 0, SPP is the mode left. -/
def statusEntersS (a b : Hart) : Prop :=
  b.mstatus.getLsbD stSPIE = a.mstatus.getLsbD stSIE ∧ b.mstatus.getLsbD stSIE = false
    ∧ b.mstatus.getLsbD stSPP = (a.mode != .u)
    ∧ ∀ k, k ≠ stSPIE → k ≠ stSIE → k ≠ stSPP → b.mstatus.getLsbD k = a.mstatus.getLsbD k

/-- A control context whose stvec still equals rt does not enter a handler: it stops, and its context takes a context
fault of kind 6 (R403, R440). -/
def Spec.TrapAtRtStopsTheControlContext : Prop :=
  ∀ (s : State) (cause : Nat) (tval : Word) (tag l : Nat),
    s.myCore.serving = some (tag, l) → cause ≠ 19 → s.cur.h = 0 → s.atRt tag = true →
    ∃ t, s.trap cause tval = .next t ∧ t.me.stopped = true ∧ t.me.mode = s.me.mode ∧ t.me.sepc = s.me.sepc
      ∧ t.agenda = s.agenda ++ [.contextFault tag 6 (dieOf s.cur.core) l 0]

/-- The recorded chain at a stop: the flights, oldest first, four entries, without the translations and the descriptor that
they read again, and the pc as the resume PC (R46, R49, R185). -/
def Spec.TrapRecordsWhatIsInFlight : Prop :=
  ∀ (s : State) (cause : Nat) (tval : Word) (tag l : Nat),
    s.myCore.serving = some (tag, l) → cause ≠ 19 → (cause = 31 → s.cur.h = 0) → ¬ (s.cur.h = 0 ∧ s.atRt tag = true) →
    s.me.chain ≠ [] → s.me.chain.length ≤ 4 →
    ∃ t, s.trap cause tval = .next t ∧ t.me.vrpc = s.pc ∧ t.me.chainRec.length = 4
      ∧ ∀ k, t.me.chainRec.getD k none = (s.me.chain[k]?).map Flight.recorded

/-- The mode and the status that sret leaves. -/
def returnsFromS (a b : Hart) : Prop :=
  b.mode = (if a.mstatus.getLsbD stSPP then .s else .u) ∧ b.mstatus.getLsbD stSIE = a.mstatus.getLsbD stSPIE
    ∧ b.mstatus.getLsbD stSPIE = true ∧ b.mstatus.getLsbD stSPP = false

/-- The mode and the status that mret leaves. -/
def returnsFromM (a b : Hart) : Prop :=
  b.mode = Mode.ofCode (field a.mstatus stMPP 2) ∧ b.mstatus.getLsbD stMIE = a.mstatus.getLsbD stMPIE
    ∧ b.mstatus.getLsbD stMPIE = true ∧ field b.mstatus stMPP 2 = 0

/-- Where a return goes: to its saved pc, or with a chain record held to vrpc, the recorded instructions in flight again,
oldest first (R48, R49). -/
def resumesAt (a b : Hart) (epc : Word) : Prop :=
  if a.chainRec.all (fun e => e.isNone) then b.pc = epc ∧ b.chain = []
  else b.pc = a.vrpc ∧ b.chain = a.chainRec.filterMap id ∧ b.chainRec.all (fun e => e.isNone) = true

/-! CSRs (R19 to R25, R66, R67, R102, R135 to R137, R197, R290, R301, R323, R384, R458). -/

/-- The CSR access that an instruction is: destination, number, whether it writes, and the value written from the old. -/
def csrOf (i : Instr) (s : State) : Option (Reg × Nat × Bool × (Word → Word)) :=
  match i with
  | .csrrw d a c => some (d, c.toNat, true, fun _ => s.x a)
  | .csrrs d a c => some (d, c.toNat, a != 0, fun old => old ||| s.x a)
  | .csrrc d a c => some (d, c.toNat, a != 0, fun old => old &&& ~~~s.x a)
  | .csrrwi d u c => some (d, c.toNat, true, fun _ => u.setWidth 64)
  | .csrrsi d u c => some (d, c.toNat, u != 0, fun old => old ||| u.setWidth 64)
  | .csrrci d u c => some (d, c.toNat, u != 0, fun old => old &&& ~~~(u.setWidth 64))
  | _ => none

/-- A CSR instruction writes the old value to x[d], and where it writes, the new one to the CSR: where the number names a
CSR that the mode may access, and write if it writes, and the value is one that vtype takes (R20, R102, R135). -/
def Spec.CsrReadsThenWrites : Prop :=
  ∀ (i : Instr) (s : State) (d : Reg) (c : Nat) (w : Bool) (f : Word → Word) (old : Word),
    csrOf i s = some (d, c, w, f) → s.idle → s.readCsr c = some old → s.me.mode.atLeast (csrMode c) = true →
    (w = true → csrWritable c s.me.mode = true) → ¬ (c = 0x180 ∧ s.forbids stTVM = true) →
    (w = true → c = 0x800 → vtypeOk (f old) = true) →
    exec i s = .next ((if w then s.writeCsr c (f old) else s).wrote d old 4)

/-- A CSR instruction whose number names none, that its mode may not access or not write, or that would write a reserved
value to vtype, takes an illegal-instruction trap, and no CSR changes (R20, R102). -/
def Spec.CsrAccessThatMayNotBeTraps : Prop :=
  ∀ (i : Instr) (s : State) (d : Reg) (c : Nat) (w : Bool) (f : Word → Word),
    csrOf i s = some (d, c, w, f) → s.idle →
    (s.readCsr c = none ∨ s.me.mode.atLeast (csrMode c) = false ∨ (w = true ∧ csrWritable c s.me.mode = false)
      ∨ (w = true ∧ c = 0x800 ∧ ∃ old, s.readCsr c = some old ∧ vtypeOk (f old) = false)) →
    exec i s = s.illegal

/-- What a CSR reads after a write, for the controls of the vector unit (R20, R21, R22, R67), and that the write touches
no x register and no memory. -/
def Spec.VectorControlsReadAsWritten : Prop :=
  ∀ (s : State) (v : Word),
    (vtypeOk v = true → (s.writeCsr 0x800 v).readCsr 0x800 = some (v &&& 0x1FFF#64))
    ∧ (s.writeCsr 0x801 v).me.vl.toNat = min (field v 0 16) (cfgVlmax s.me.vcfgst) % 2 ^ 16
    ∧ (s.writeCsr 0x801 v).me.vpad.toNat
        = (if cfgOn s.me.vcfgst then min s.me.vpad.toNat (s.writeCsr 0x801 v).me.vl.toNat else 0)
    ∧ (s.writeCsr 0x803 v).me.vpad.toNat = (if cfgOn s.me.vcfgst then min (field v 0 16) s.me.vl.toNat else 0)
    ∧ (s.writeCsr 0x802 v).readCsr 0x802 = some v
    ∧ (s.writeCsr 0x805 v).readCsr 0x805 = some (if v = 0 then 0x9E3779B97F4A7C15#64 else v)
    ∧ (s.writeCsr 0x806 v).readCsr 0x806 = some (v &&& 0x1F#64)
    ∧ ∀ c, c ≠ 0x7C1 → c ≠ 0x7C2 → (∀ r, (s.writeCsr c v).x r = s.x r) ∧ (s.writeCsr c v).mem = s.mem

/-- hshare reads back its NEXT, and its CTRL where the helpers leave that many units, with FREE what is left; a change of CTRL
ends the control context's configuration (R23). -/
def Spec.SharesReadAsWritten : Prop :=
  ∀ (s : State) (v : Word) (held ctrl : Nat), held = s.myCore.img.helperUnits →
    ctrl = (if field v 8 6 + held ≤ 32 then field v 8 6 else s.myCore.img.hctrl.toNat) →
    (s.writeCsr 0x5C0 v).readCsr 0x5C0
        = some (BitVec.ofNat 64 ((32 - ctrl - held) * 2 ^ 16 + ctrl * 2 ^ 8 + field v 0 6))
    ∧ ((s.writeCsr 0x5C0 v).hart { core := s.cur.core, h := 0 }).vcfgst
        = (if ctrl = s.myCore.img.hctrl.toNat then (s.hart { core := s.cur.core, h := 0 }).vcfgst
           else setBit (s.hart { core := s.cur.core, h := 0 }).vcfgst 63 false)

/-- The VM instructions and the distribution instructions (R25). -/
def keepsItsIndex : Instr → Bool
  | .vld .. | .vldSt .. | .vldIx .. | .vst .. | .vstSt .. | .vstIx .. | .vamoadd .. | .vamomin .. | .vamomax ..
  | .vamoswap .. => true
  | i => (distUnitMove i).isSome

/-- An entry of the chain record reads 0 where it holds nothing, and after V is written 0; a carry keeps its SIDX, which else
becomes what was written: for VM and distribution instructions and at or beyond vl as it is, and else no later than it. No
write makes an entry. vrpc reads back what is written but for bit 0 (R25, R195). -/
def Spec.ChainRecordReadsAsWritten : Prop :=
  ∀ (s : State) (v : Word) (n : Nat), n < 4 → s.me.chainRec.length = 4 →
    (s.writeCsr 0xCC9 v).readCsr 0xCC9 = some (v &&& ~~~1#64)
    ∧ (s.me.chainRec.getD n none = none ∨ v.getLsbD 16 = false → (s.writeCsr (0xCC5 + n) v).readCsr (0xCC5 + n) = some 0)
    ∧ (∀ k, k < 4 → k ≠ n → (s.writeCsr (0xCC5 + n) v).me.chainRec.getD k none = s.me.chainRec.getD k none)
    ∧ ∀ f : Flight, s.me.chainRec.getD n none = some f → v.getLsbD 16 = true →
      (f.carry.isSome = true ∨ field v 0 16 = f.idx →
        (s.writeCsr (0xCC5 + n) v).readCsr (0xCC5 + n) = s.readCsr (0xCC5 + n))
      ∧ (f.carry = none → field v 0 16 ≠ f.idx → ∃ idx,
          (s.writeCsr (0xCC5 + n) v).readCsr (0xCC5 + n) = some (BitVec.ofNat 64 (idx + 2 ^ 16)) ∧ idx ≤ field v 0 16
          ∧ (f.vl ≤ field v 0 16 ∨ keepsItsIndex f.instr = true → idx = field v 0 16))

/-- sip and mip read SSIP as it was last written, HRIP only cleared, and QIP as the queues have it; every other bit of sip
reads zero (R290). -/
def Spec.PendingBitsReadAsWritten : Prop :=
  ∀ (s : State) (v old new : Word) (c : Nat), (c = 0x144 ∨ c = 0x344) → s.readCsr 0x144 = some old →
    (s.writeCsr c v).readCsr 0x144 = some new →
    new.getLsbD 1 = v.getLsbD 1 ∧ new.getLsbD 17 = (old.getLsbD 17 && v.getLsbD 17) ∧ new.getLsbD 16 = old.getLsbD 16
    ∧ ∀ k, k ≠ 1 → k ≠ 16 → k ≠ 17 → new.getLsbD k = false

/-- Controls that store 0 as 1, and satp: ignored on a core that serves a context, and taking only MODE 0 and 10 on any
other (R197, R301, R323, R384). -/
def Spec.CoreControlsReadAsWritten : Prop :=
  ∀ (s : State) (v : Word),
    (s.writeCsr 0x5C1 v).readCsr 0x5C1 = some (v &&& 0xF#64)
    ∧ (s.writeCsr 0x5C2 v).readCsr 0x5C2 = some (if field v 0 4 = 0 then 1 else v &&& 0xF#64)
    ∧ (s.writeCsr 0x5C3 v).readCsr 0x5C3 = some (if field v 0 8 = 0 then 1 else v &&& 0xFF#64)
    ∧ (s.myCore.serving.isSome = true → (s.writeCsr 0x180 v).readCsr 0x180 = s.readCsr 0x180)
    ∧ (s.myCore.serving = none → field v 60 4 ≠ 0 → field v 60 4 ≠ 10 → (s.writeCsr 0x180 v).readCsr 0x180 = s.readCsr 0x180)

/-! Atomics and ordering (R118, R121 to R130, R320, R331 to R335). -/

/-- The new value of an AMO from the old one and the register's, at a width (R122). -/
def amoValue {w : Nat} (i : Instr) (a b : BitVec w) : Option (BitVec w) :=
  match i with
  | .amoswapW .. | .amoswapD .. => some b
  | .amoaddW .. | .amoaddD .. => some (a + b)
  | .amoxorW .. | .amoxorD .. => some (a ^^^ b)
  | .amoandW .. | .amoandD .. => some (a &&& b)
  | .amoorW .. | .amoorD .. => some (a ||| b)
  | .amominW .. | .amominD .. => some (if b.toInt < a.toInt then b else a)
  | .amomaxW .. | .amomaxD .. => some (if a.toInt < b.toInt then b else a)
  | .amominuW .. | .amominuD .. => some (if b.toNat < a.toNat then b else a)
  | .amomaxuW .. | .amomaxuD .. => some (if a.toNat < b.toNat then b else a)
  | _ => none

/-- The operands of an AMO: its destination, address and operand registers, width in bytes, aq and rl (R121). -/
def amoOf (i : Instr) : Option (Reg × Reg × Reg × Nat × Bool × Bool) :=
  match i with
  | .amoswapW d a b q r | .amoaddW d a b q r | .amoxorW d a b q r | .amoandW d a b q r | .amoorW d a b q r
  | .amominW d a b q r | .amomaxW d a b q r | .amominuW d a b q r | .amomaxuW d a b q r => some (d, a, b, 4, q, r)
  | .amoswapD d a b q r | .amoaddD d a b q r | .amoxorD d a b q r | .amoandD d a b q r | .amoorD d a b q r
  | .amominD d a b q r | .amomaxD d a b q r | .amominuD d a b q r | .amomaxuD d a b q r => some (d, a, b, 8, q, r)
  | _ => none

/-- The bytes of an AMO's new value from the bytes read. -/
def amoBytes (i : Instr) (n : Nat) (operand : Word) (old : List Byte) : Option (List Byte) :=
  (amoValue i (BitVec.ofNat (8 * n) (natLE old)) (operand.setWidth (8 * n))).map (fun v => bytesLE n v.toNat)

/-- An AMO reads its address, writes the new value there in the same access, and gives x[d] the old value,
sign-extended (R121, R122). -/
def Spec.AmoReadsModifiesAndWrites : Prop :=
  ∀ (i : Instr) (s s1 : State) (d a b : Reg) (n : Nat) (aq rl : Bool) (old : List Byte),
    amoOf i = some (d, a, b, n, aq, rl) → s.idle → (aq || rl) = false ∨ s.performed →
    s.atomicAt (s.x a) n aq rl (amoBytes i n (s.x b)) = .ok old s1 →
    exec i s = .next (s1.wrote d (extend true old) 4)

/-- amocas writes x[rs2] where the bytes read equal x[rd], and gives x[d] the bytes read, sign-extended, either way
(R124). -/
def Spec.AmocasWritesOnAMatch : Prop :=
  ∀ (s s1 : State) (d a b : Reg) (aq rl : Bool) (old : List Byte), s.idle → (aq || rl) = false ∨ s.performed →
    (s.atomicAt (s.x a) 4 aq rl (fun o => if o = lowBytes 4 (s.x d) then some (lowBytes 4 (s.x b)) else none) = .ok old s1 →
      exec (.amocasW d a b aq rl) s = .next (s1.wrote d (extend true old) 4))
    ∧ (s.atomicAt (s.x a) 8 aq rl (fun o => if o = lowBytes 8 (s.x d) then some (lowBytes 8 (s.x b)) else none) = .ok old s1 →
      exec (.amocasD d a b aq rl) s = .next (s1.wrote d (extend true old) 4))

/-- An atomic at a place in scratchpad reads the bytes there and leaves the new ones, and no other byte changes; one
whose function gives none leaves all (R122, R124). -/
def Spec.AtomicOnScratchChangesItsBytesAlone : Prop :=
  ∀ (s t : State) (k off n : Nat) (aq rl : Bool) (f : List Byte → Option (List Byte)) (old : List Byte),
    (∀ l v, f l = some v → v.length = n) → s.modify (.scratch k off) n aq rl f = .ok old t →
      old = Memory.read (s.img k).scratch off n ∧ t.mem = s.mem
      ∧ ∀ c o, t.scratchByte c o =
          match f old with
          | some new => if c = k ∧ off ≤ o ∧ o < off + n then new.getD (o - off) 0 else s.scratchByte c o
          | none => s.scratchByte c o

/-- An atomic at a place in memory reads the bytes that memory holds there and leaves the new ones, and no other byte
changes, nor a register; one whose function gives none leaves all: where the copies agree with their homes (R122, R124,
R334). -/
def Spec.AtomicOnMemoryChangesItsBytesAlone : Prop :=
  ∀ (s t : State) (pa n : Nat) (sh g aq rl : Bool) (f : List Byte → Option (List Byte)) (old : List Byte),
    s.coherent → (∀ l v, f l = some v → v.length = n) → pa % 128 + n ≤ 128 → s.modify (.mem pa sh g) n aq rl f = .ok old t →
      old = (List.range n).map (fun j => s.byteAt (pa + j))
      ∧ (∀ a, t.byteAt a =
          match f old with
          | some new => if pa ≤ a ∧ a < pa + n then new.getD (a - pa) 0 else s.byteAt a
          | none => s.byteAt a)
      ∧ (∀ c o, t.scratchByte c o = s.scratchByte c o)
      ∧ ∀ j, { t.hart j with resv := none } = { s.hart j with resv := none }

/-- A misaligned atomic takes the store address-misaligned trap, with the address in xtval, and nothing is accessed
(R121). -/
def Spec.MisalignedAtomicTraps : Prop :=
  ∀ (i : Instr) (s : State) (d a b : Reg) (n : Nat) (aq rl : Bool), s.idle → (aq || rl) = false ∨ s.performed →
    (amoOf i = some (d, a, b, n, aq, rl) → (s.x a).toNat % n ≠ 0 → exec i s = s.trap 6 (s.x a))
    ∧ ((s.x a).toNat % 4 ≠ 0 → exec (.lrW d a aq rl) s = s.trap 6 (s.x a) ∧ exec (.scW d a b aq rl) s = s.trap 6 (s.x a)
        ∧ exec (.amocasW d a b aq rl) s = s.trap 6 (s.x a))
    ∧ ((s.x a).toNat % 8 ≠ 0 → exec (.lrD d a aq rl) s = s.trap 6 (s.x a) ∧ exec (.scD d a b aq rl) s = s.trap 6 (s.x a)
        ∧ exec (.amocasD d a b aq rl) s = s.trap 6 (s.x a))

/-- A fence whose predecessor or successor set is empty is a no-op, and any other fence behaves as ofence.sys sv, sv
(R118, R129). -/
def Spec.FenceIsAnOfenceAtSys : Prop :=
  ∀ (s : State) (d a : Reg) (i : BitVec 12), s.idle →
    (i.extractLsb' 4 4 = 0 ∨ i.extractLsb' 0 4 = 0 → exec (.fence d a i) s = .next (s.passed 4))
    ∧ (i.extractLsb' 4 4 ≠ 0 → i.extractLsb' 0 4 ≠ 0 → exec (.fence d a i) s = exec (.ofence 0 0b0011 0b0011 7) s)

/-- ofence completes once the stores that the core issued have been performed; at .mod and wider with stores, loads or
rays among its predecessors the die's owned dirty lines up to the core's tick are written back; it waits for engine work
and, with vector accesses among them, for the reads of rays that its predecessors name. fence.i also discards the core's
instruction cache (R118, R129, R333). -/
def Spec.OfencePerformsItsPredecessors : Prop :=
  ∀ (s s1 : State) (l pred succ : BitVec 4) (scope : BitVec 3), s.idle → (s.img s.cur.core).mq = [] →
    s.flush s.cur.core = .ok () s1 →
    (pred = 0 ∨ succ = 0 → exec (.ofence l pred succ scope) s = .next (s.passedLong l [] []))
    ∧ (pred ≠ 0 → succ ≠ 0 →
      (∀ slot, pred.getLsbD 1 = true → s.me.rayReading = some slot →
        exec (.ofence l pred succ scope) s = .next (s.post (.rayTraversal s.cur slot)))
      ∧ (pred.getLsbD 1 = false ∨ s.me.rayReading = none →
        ((pred.getLsbD 2 = true → s.engineBusy s.cur = false) →
          exec (.ofence l pred succ scope) s = .next (
            (if 5 ≤ scope.toNat ∧ pred &&& 0b1011#4 ≠ 0 then s1.drain (dieOf s1.cur.core) (s1.core s1.cur.core).ptick
             else s1).passedLong l [] []))
        ∧ (pred.getLsbD 2 = true → s.engineBusy s.cur = true →
          exec (.ofence l pred succ scope) s = .next s)))
    ∧ ∀ (d a : Reg) (i : BitVec 12), s.me.rayReading = none →
        ∃ t, exec (.fenceI d a i) s = .next t ∧ t.myCore.icache = []
          ∧ t.pc = s1.pc + 4 ∧ t.mem = s1.mem ∧ (∀ r, t.x r = s1.x r)

/-- After the write-back of a drain, no line that the die owns is dirty with a write at or before the tick (R332, R333). -/
def Spec.DrainLeavesNoOldDirtyLine : Prop :=
  ∀ (s : State) (d : Nat) (p : Tick) (ln : Nat) (o : Owned),
    Tab.get? ((s.drain d p).die d).owned ln = some o → o.dirty = true → tickLe o.wts p = false

/-! Vector configuration (R24, R27 to R29, R131, R132, R134). -/

/-- R27: the longest length of the seven at which n registers fit a share, or 0. -/
def fitOf (share n : Nat) : Nat :=
  ([256, 512, 1024, 2048, 4096, 8192, 16384].filter (fun p => decide (n * p ≤ 4096 * share))).foldl max 0

/-- R27: the least of the seven lengths at or above a request, or the longest. -/
def requestOf (minreq : Nat) : Nat :=
  (([256, 512, 1024, 2048, 4096, 8192, 16384].filter (fun p => decide (minreq ≤ p))).headD 16384)

/-- The grant of R27: VLEN is the larger of the two; the slots are what the share holds at VLEN, at most 127; and the
annex holds the registers beyond them. -/
def Spec.GrantIsThatOfTheShare : Prop :=
  ∀ (share n : Nat) (minreq : Word), share ≤ 32 →
    (grantOf share n minreq).vlen = max (fitOf share n) (requestOf minreq.toNat)
    ∧ (grantOf share n minreq).slots = min (4096 * share / (grantOf share n minreq).vlen) 127
    ∧ (grantOf share n minreq).annex = (n - (grantOf share n minreq).slots) * (grantOf share n minreq).vlen / 8

/-- vcfg with a grant that is not faulty, and no annex: x[d] is VLMAX, vcfgst says the grant, vl, vpad, every vector and
distribution register and every tag set are zero, the chain record and the reservation are gone, and no other register
changes (R24, R27, R28, R134). -/
def Spec.VcfgConfiguresAndClears : Prop :=
  ∀ (s : State) (d a : Reg) (nv : BitVec 3) (nd : BitVec 4) (w : BitVec 2) (g : Grant), s.idle → s.me.annex = none →
    g = grantOf s.shareOf (2 ^ nv.toNat + 12 * nd.toNat) (s.x a) → g.faulty nd.toNat = false → g.annex = 0 →
    ∃ t, exec (.vcfg d a nv nd w) s = .next t ∧ s.writesX t d (BitVec.ofNat 64 (g.vlen / (8 * 2 ^ w.toNat)))
      ∧ t.pc = s.pc + 4 ∧ t.me.vcfgst = g.status s.shareOf nv.toNat nd.toNat w.toNat ∧ t.me.vl = 0 ∧ t.me.vpad = 0
      ∧ (∀ r, t.me.vget r = 0) ∧ (∀ r i, t.me.dget r i = zeroElem) ∧ (∀ r, t.me.tags r = 0)
      ∧ t.me.chainRec.all (fun e => e.isNone) = true ∧ t.me.resv = none ∧ t.me.annex = none
      ∧ t.me.vtype = s.me.vtype ∧ t.me.vstride = s.me.vstride ∧ t.me.vsrng = s.me.vsrng ∧ t.me.vexc = s.me.vexc
      ∧ t.me.mode = s.me.mode ∧ t.me.mstatus = s.me.mstatus ∧ s.sameElse t

/-- vcfg with a faulty grant takes cause 26, with the annex bytes and slots in xtval, and configures nothing (R27, R134). -/
def Spec.VcfgThatDoesNotFitTraps : Prop :=
  ∀ (s : State) (d a : Reg) (nv : BitVec 3) (nd : BitVec 4) (w : BitVec 2) (g : Grant), s.idle →
    g = grantOf s.shareOf (2 ^ nv.toNat + 12 * nd.toNat) (s.x a) → g.faulty nd.toNat = true →
    exec (.vcfg d a nv nd w) s = s.trap 26 (BitVec.ofNat 64 (g.annex * 2 ^ 32 + g.slots % 128))

/-- vsetl sets vl and vpad to the strip of its count, and vtype's FMT and BLK, and gives x[d] the strip length; no other
state changes (R131, R132). -/
def Spec.VsetlGrantsTheStrip : Prop :=
  ∀ (s : State) (d a : Reg) (fmt : BitVec 6) (blk hint : BitVec 3) (f : Fmt) (b cap need : Nat),
    s.idle → cfgOn s.me.vcfgst = true → Fmt.ofCode fmt.toNat = some f → f.sew ≤ cfgWidth s.me.vcfgst →
    ¬ (f.isScaled = true ∧ blk = 0) → b = (if blk = 0 then 1 else 2 ^ (blk.toNat + 2)) →
    cap = cfgVlmax s.me.vcfgst / b * b → cap ≠ 0 → cap < 2 ^ 16 → need = ((s.x a).toNat + b - 1) / b * b →
    ∃ t, exec (.vsetl d a fmt blk hint) s = .next t
      ∧ s.writesX t d (BitVec.ofNat 64 (if need ≤ cap then need else cap))
      ∧ t.me.vl.toNat = (if need ≤ cap then need else cap)
      ∧ t.me.vpad.toNat = (if need ≤ cap then need - (s.x a).toNat else 0)
      ∧ vtFmt t.me.vtype = fmt.toNat ∧ vtBlk t.me.vtype = blk.toNat ∧ vtRm t.me.vtype = vtRm s.me.vtype
      ∧ vtCanon t.me.vtype = vtCanon s.me.vtype ∧ t.pc = s.pc + 4
      ∧ t.me.v = s.me.v ∧ t.me.d = s.me.d ∧ t.me.vcfgst = s.me.vcfgst ∧ t.me.vexc = s.me.vexc ∧ s.sameElse t

/-- vsetl traps as illegal where nothing is configured, then where its format is wider than declared or is scaled and no block
is named; then, where no whole block fits, with the vector-configuration fault, nothing changed before it; that its xtval
holds the annex bytes and the slots of the configuration in force is the model's reading (log 16). A word with a reserved
format or a block code of 5 to 7 does not decode (R132; R26, R99, R131). -/
def Spec.VsetlTakesItsTrapsInOrder : Prop :=
  (∀ (s : State) (d a : Reg) (fmt : BitVec 6) (blk hint : BitVec 3),
    (cfgOn s.me.vcfgst = false ∨ ∃ f, Fmt.ofCode fmt.toNat = some f
        ∧ (cfgWidth s.me.vcfgst < f.sew ∨ (f.isScaled = true ∧ blk = 0))) →
    exec (.vsetl d a fmt blk hint) s = s.trap 2 (s.ir.setWidth 64))
  ∧ (∀ (s : State) (d a : Reg) (fmt : BitVec 6) (blk hint : BitVec 3) (f : Fmt) (b : Nat), s.idle →
    cfgOn s.me.vcfgst = true → Fmt.ofCode fmt.toNat = some f → f.sew ≤ cfgWidth s.me.vcfgst →
    ¬ (f.isScaled = true ∧ blk = 0) → b = (if blk = 0 then 1 else 2 ^ (blk.toNat + 2)) → cfgVlmax s.me.vcfgst / b * b = 0 →
    exec (.vsetl d a fmt blk hint) s
      = s.trap 26 (BitVec.ofNat 64 (cfgAnnexBytes s.me.vcfgst * 2 ^ 32 + cfgSlots s.me.vcfgst % 128)))
  ∧ ∀ p : Parts, p.op = 0x7B → p.f3 = 1 → (fmtDefined (p.immI.extractLsb' 6 6) = false ∨ 4 < (p.immI.extractLsb' 3 3).toNat) →
    ∀ d, decode (bytesLE 4 p.toWord.toNat) ≠ .ok d

/-! Vector arithmetic (R36 to R39, R138 to R173). -/

/-- What an instruction of independent elements is: masked, agnostic, its destination, the width of its results, the
element operation on the hardware context as it stood, and the formats it is defined under (R36, R138, R141). -/
structure Elementwise where
  m : Bool
  agn : Bool
  vd : Reg
  dsew : Nat
  op : Flight → Hart → Nat → Option (Nat × Fl)
  fmtOk : Fmt → Bool
  immAny : Bool
  imm : Bool
  cls : Fmt → Nat
  scalar : Option Reg

/-- A two-source instruction whose results have the format's width. -/
def twoSource (o : VaArgs) (f : Flight) (signed : Bool) (g : BinOp) (ok : Fmt → Bool) (cls : Fmt → Nat) : Elementwise where
  m := o.m
  agn := o.agn
  vd := o.vd
  dsew := f.sew
  op := fun f t i => some (g f.fmt f.rm (elemAt (t.vget o.vs2) f.sew i) (operandS t f.xb o.s signed f.sew i))
  fmtOk := ok
  immAny := false
  imm := o.s.isImm
  cls := cls
  scalar := match o.s with | .vx r => some r | _ => none

/-- A one-source instruction. -/
def oneSource (o : VuArgs) (f : Flight) (g : Fmt → RMode → Nat → Nat × Fl) (ok : Fmt → Bool) (cls : Fmt → Nat) : Elementwise where
  m := o.m
  agn := o.agn
  vd := o.vd
  dsew := f.sew
  op := fun f t i => some (g f.fmt f.rm (elemAt (t.vget o.vs2) f.sew i))
  fmtOk := ok
  immAny := false
  imm := false
  cls := cls
  scalar := none

/-- A logic instruction on mask bits. -/
def maskLogic (o : VvArgs) (g : Bool → Bool → Bool) : Elementwise where
  m := o.m
  agn := o.agn
  vd := o.vd
  dsew := 1
  op := fun _ t i => some (if g ((t.vget o.vs2).getLsbD i) ((t.vget o.vs1).getLsbD i) then 1 else 0, Fl.none)
  fmtOk := Fmt.any
  immAny := false
  imm := false
  cls := fun _ => 2
  scalar := none

/-- A move across or into lanes. -/
def laneMove (o : VaArgs) (f : Flight) (masked immAny : Bool) (g : Flight → Hart → Nat → Option Nat) : Elementwise where
  m := masked
  agn := o.agn
  vd := o.vd
  dsew := f.sew
  op := fun f t i => (g f t i).map (fun x => (fixI3g f.fmt x, Fl.none))
  fmtOk := Fmt.any
  immAny := immAny
  imm := o.s.isImm
  cls := fun _ => 2
  scalar := match o.s with | .vx r => some r | _ => none

/-- The instructions of independent elements, by what each element becomes. -/
def elementwise (i : Instr) (f : Flight) : Option Elementwise :=
  let int := Fmt.isInt
  let ari := Fmt.arithClass
  let src (o : VaArgs) (t : Hart) (i : Nat) : Nat := operandS t f.xb o.s true f.sew i
  match i with
  | .vadd o => some (twoSource o f true addOp Fmt.numeric ari)
  | .vsub o => some (twoSource o f true subOp Fmt.numeric ari)
  | .vrsub o => some (twoSource o f true rsubOp Fmt.numeric ari)
  | .vmul o => some (twoSource o f true mulOp Fmt.numeric ari)
  | .vmulh o => some (twoSource o f true mulhOp int ari)
  | .vdiv o => some (twoSource o f true divOp Fmt.numeric Fmt.divClass)
  | .vrem o => some (twoSource o f true remOp int Fmt.divClass)
  | .vmin o => some (twoSource o f true minOp Fmt.numeric ari)
  | .vmax o => some (twoSource o f true maxOp Fmt.numeric ari)
  | .vsadd o => some (twoSource o f true saddOp int ari)
  | .vssub o => some (twoSource o f true ssubOp int ari)
  | .vand o => some (twoSource o f true andOp int ari)
  | .vor o => some (twoSource o f true orOp int ari)
  | .vxor o => some (twoSource o f true xorOp int ari)
  | .vsll o => some (twoSource o f false sllOp int ari)
  | .vsrl o => some (twoSource o f false srlOp int ari)
  | .vsra o => some (twoSource o f false sraOp int ari)
  | .vsgnj o => some (twoSource o f true (signOp (fun _ b => b)) Fmt.isArith ari)
  | .vsgnjn o => some (twoSource o f true (signOp (fun _ b => !b)) Fmt.isArith ari)
  | .vsgnjx o => some (twoSource o f true (signOp (fun a b => a != b)) Fmt.isArith ari)
  | .vfma o => some { twoSource o f true addOp Fmt.isArith ari with op := fun f t i => fmaElem o false false t f i }
  | .vfms o => some { twoSource o f true addOp Fmt.isArith ari with op := fun f t i => fmaElem o false true t f i }
  | .vfnma o => some { twoSource o f true addOp Fmt.isArith ari with op := fun f t i => fmaElem o true false t f i }
  | .vceq o => some { twoSource o f true (relOp .eq) Fmt.any Fmt.cmpClass with dsew := 1 }
  | .vcne o => some { twoSource o f true (relOp .ne) Fmt.any Fmt.cmpClass with dsew := 1 }
  | .vclt o => some { twoSource o f true (relOp .lt) Fmt.numeric Fmt.cmpClass with dsew := 1 }
  | .vcle o => some { twoSource o f true (relOp .le) Fmt.numeric Fmt.cmpClass with dsew := 1 }
  | .vcgt o => some { twoSource o f true (relOp .gt) Fmt.numeric Fmt.cmpClass with dsew := 1 }
  | .vcge o => some { twoSource o f true (relOp .ge) Fmt.numeric Fmt.cmpClass with dsew := 1 }
  | .vmerge o => some (laneMove o f false false (fun f t i =>
      some (if (t.v.get 0).getLsbD i then src o t i else elemAt (t.vget o.vs2) f.sew i)))
  | .vmv o => some (laneMove o f o.m false (fun _ t i => some (src o t i)))
  | .vslideup o => some (laneMove o f o.m true (fun f t i =>
      if i < slideOff f o.s then none else some (cross t f o.vs2 (i - slideOff f o.s))))
  | .vslidedown o => some (laneMove o f o.m true (fun f t i => some (cross t f o.vs2 (i + slideOff f o.s))))
  | .vgather o => some (laneMove o f o.m true (fun f t i => some (cross t f o.vs2 (gatherIndex t f o.s i))))
  | .vmand o => some (maskLogic o (fun a b => a && b))
  | .vmor o => some (maskLogic o (fun a b => a || b))
  | .vmxor o => some (maskLogic o (fun a b => a != b))
  | .vmandn o => some (maskLogic o (fun a b => a && !b))
  | .vsqrt o => some (oneSource o f (fnOp .sqrt) Fmt.isArith Fmt.fnClass)
  | .vrcp o => some (oneSource o f (fnOp .rcp) Fmt.isArith Fmt.fnClass)
  | .vrsqrt o => some (oneSource o f (fnOp .rsqrt) Fmt.isArith Fmt.fnClass)
  | .vexp2 o => some (oneSource o f (fnOp .exp2) Fmt.isArith Fmt.fnClass)
  | .vlog2 o => some (oneSource o f (fnOp .log2) Fmt.isArith Fmt.fnClass)
  | .vsin o => some (oneSource o f (fnOp .sin) Fmt.isArith Fmt.fnClass)
  | .vcos o => some (oneSource o f (fnOp .cos) Fmt.isArith Fmt.fnClass)
  | .vtanh o => some (oneSource o f (fnOp .tanh) Fmt.isArith Fmt.fnClass)
  | .vclass o => some (oneSource o f classOp Fmt.isArith Fmt.fnClass)
  | .vabs o => some (oneSource o f (signedOp (fun a => a.natAbs) (fun _ => false)) Fmt.signedOk ari)
  | .vneg o => some (oneSource o f (signedOp (fun a => -a) (fun n => !n)) Fmt.signedOk ari)
  | .vid o => some { oneSource o f (fun _ _ a => (a, Fl.none)) int ari with op := fun f _ i => some (i % 2 ^ f.sew, Fl.none) }
  | _ => none

/-- Where an instruction of the vector unit executes at once: an idle hardware context, configured, its annex and the core's
SRAM without errors, the instruction's class enabled (R26, R31, R436, R438), nothing held in flight (log 7). -/
def vectorReady (s : State) (cls : Nat) : Prop :=
  s.idle ∧ s.hold = false ∧ cfgOn s.me.vcfgst = true ∧ s.annexBad s.me = none ∧ s.badCore = [] ∧ s.soft = []
    ∧ s.myCore.capmask.getLsbD cls = true

/-- What an instruction of the vector unit leaves besides its results: the pc past it, nothing in flight and no window
open, x and every control but vsrng as they were, and nothing but the executing hardware context changed. -/
def vectorDone (s t : State) : Prop :=
  t.pc = s.pc + 4 ∧ t.me.chain = [] ∧ t.me.windows = [] ∧ (∀ r, t.x r = s.x r) ∧ t.me.vtype = s.me.vtype
    ∧ t.me.vl = s.me.vl ∧ t.me.vpad = s.me.vpad ∧ t.me.vcfgst = s.me.vcfgst ∧ t.me.vstride = s.me.vstride
    ∧ t.me.mode = s.me.mode ∧ t.me.mstatus = s.me.mstatus ∧ t.me.sepc = s.me.sepc ∧ t.me.scause = s.me.scause
    ∧ t.me.stval = s.me.stval ∧ t.me.resv = s.me.resv ∧ t.me.rays = s.me.rays ∧ s.sameElse t

/-- The flight that an instruction of the hardware context is, as its controls are captured at issue (R46). -/
def flightOf (s : State) (i : Instr) (xa xb : Word) : Flight where
  id := s.me.nextId
  instr := i
  pc := s.pc
  xa := xa
  xb := xb
  vl := s.me.vl.toNat
  vpad := s.me.vpad.toNat
  vtype := s.me.vtype
  vstride := s.me.vstride
  seed := s.me.vsrng
  idx := 0
  sub := 0
  carry := if Instr.carries i then some [] else none
  desc := []
  pages := []
  probed := false
  probeTrap := none

/-- The whole of an elementwise instruction at once: each element below vl from the sources as they stood before the
instruction; an inactive element and the tail follow agn (R36). -/
def wholeVector (t : Hart) (f : Flight) (e : Elementwise) : VReg × Fl :=
  let r := (List.range f.vl).foldl (fun (a : VReg × Fl) i =>
    if !e.m || (t.v.get 0).getLsbD i then
      match e.op f t i with
      | some q => (elemSet a.1 e.dsew i q.1, if f.vl - f.vpad ≤ i then a.2 else a.2.or q.2)
      | none => a
    else if e.agn then (elemSet a.1 e.dsew i (2 ^ e.dsew - 1), a.2) else a) (t.vget e.vd, Fl.none)
  if f.vl = 0 then (t.vget e.vd, Fl.none)
  else (if e.agn then onesFrom r.1 (f.vl * e.dsew) (max (f.vl * e.dsew) (cfgVlen t.vcfgst)) else r.1, r.2)

/-- An elementwise instruction runs group by group, and leaves what its elements give one by one from the sources as they
stood before it; its flags accrue in vexc; no other register changes (R22, R36, R38, R39, R138 to R166). -/
def Spec.ElementwiseRunsGroupByGroup : Prop :=
  ∀ (i : Instr) (s : State) (f : Fmt) (e : Elementwise) (xb : Word), Instr.wf i = true → s.fmt = some f →
    elementwise i (flightOf s i 0 xb) = some e → xb = (match e.scalar with | some r => s.x r | none => 0) →
    vectorReady s (e.cls f) → s.me.lengthFits → s.me.fmtFits f = true → e.fmtOk f = true →
    (e.immAny = true ∨ e.imm = false ∨ f.isInt = true) →
    ∃ t, exec i s = .next t ∧ vectorDone s t
      ∧ t.me.vget e.vd = (wholeVector s.me (flightOf s i 0 xb) e).1
      ∧ t.me.vexc = s.me.vexc ||| (wholeVector s.me (flightOf s i 0 xb) e).2.bits
      ∧ (∀ r, r ≠ e.vd → t.me.vget r = s.me.vget r) ∧ t.me.d = s.me.d ∧ t.me.vsrng = s.me.vsrng

/-- What an integer operation of elements gives, in two's complement or unsigned: sums, differences and products wrap; vmulh is
the high half; a division truncates, with its two corners; minimum, maximum and the saturating forms are of the exact
integers; shifts take the low bits of the amount; no flag is raised (R52, R144 to R149). -/
def Spec.IntegerElementsWrapAndSaturate : Prop :=
  ∀ (sg : Bool) (w : Nat) (rm : RMode) (a b : Nat) (f : Fmt) (x y : Int), w ∈ [8, 16, 32, 64] → f = .int sg w →
    a < 2 ^ w → b < 2 ^ w → x = intVal sg w a → y = intVal sg w b →
    addOp f rm a b = ((a + b) % 2 ^ w, Fl.none) ∧ subOp f rm a b = ((a + (2 ^ w - b)) % 2 ^ w, Fl.none)
    ∧ rsubOp f rm a b = ((b + (2 ^ w - a)) % 2 ^ w, Fl.none) ∧ mulOp f rm a b = (a * b % 2 ^ w, Fl.none)
    ∧ intVal sg w (mulhOp f rm a b).1 = (x * y).fdiv (2 ^ w)
    ∧ (y = 0 → divOp f rm a b = (2 ^ w - 1, Fl.none) ∧ remOp f rm a b = (a, Fl.none))
    ∧ (sg = true → x = -(2 ^ (w - 1)) → y = -1 → divOp f rm a b = (a, Fl.none) ∧ remOp f rm a b = (0, Fl.none))
    ∧ (y ≠ 0 → ¬(sg = true ∧ x = -(2 ^ (w - 1)) ∧ y = -1) →
        intVal sg w (divOp f rm a b).1 = x.tdiv y ∧ intVal sg w (remOp f rm a b).1 = x.tmod y)
    ∧ intVal sg w (minOp f rm a b).1 = min x y ∧ intVal sg w (maxOp f rm a b).1 = max x y
    ∧ (∀ lo hi, lo = (if sg then -(2 ^ (w - 1) : Int) else 0) → hi = (if sg then (2 ^ (w - 1) : Int) - 1 else 2 ^ w - 1) →
        intVal sg w (saddOp f rm a b).1 = max lo (min hi (x + y)) ∧ intVal sg w (ssubOp f rm a b).1 = max lo (min hi (x - y)))
    ∧ sllOp f rm a b = (a * 2 ^ (b % w) % 2 ^ w, Fl.none) ∧ srlOp f rm a b = (a / 2 ^ (b % w), Fl.none)
    ∧ asSigned w (sraOp f rm a b).1 = (asSigned w a).fdiv (2 ^ (b % w))
    ∧ ∀ op ∈ [mulhOp, divOp, remOp, minOp, maxOp, saddOp, ssubOp, sraOp], (op f rm a b).2 = Fl.none

/-- vcvt converts each active element by its source and target formats and the rounding mode captured; rounding
stochastically, it draws once per element of vl from vsrng (R68, R70 to R74, R167, R168). -/
def Spec.ConvertWritesItsElements : Prop :=
  ∀ (s : State) (o : VcArgs) (f g : Fmt) (fl : Flight) (e : Elementwise), Instr.wf (.vcvt o) = true → s.fmt = some f →
    Fmt.ofCode o.t.toNat = some g → vectorReady s f.cvtClass → s.me.lengthFits → s.me.fmtFits f = true →
    s.cvtOk o f = true → fl = flightOf s (.vcvt o) 0 0 →
    e = { m := o.m, agn := o.agn, vd := o.vd, dsew := g.sew, fmtOk := Fmt.any, immAny := false, imm := false,
          cls := Fmt.cvtClass, scalar := none,
          op := fun fl t i => some (convertElem f g fl.rm (if cvtDraws o fl.vtype then .sto (drawOf fl.seed i) else fl.rm)
            (elemAt (t.vget o.vs2) f.sew i) (if f.isScaled then compOf t fl o.vs2 i else 0)) } →
    ∃ t, exec (.vcvt o) s = .next t ∧ vectorDone s t ∧ t.me.vget o.vd = (wholeVector s.me fl e).1
      ∧ t.me.vexc = s.me.vexc ||| (wholeVector s.me fl e).2.bits
      ∧ t.me.vsrng = (if cvtDraws o s.me.vtype then xsState s.me.vsrng s.me.vl.toNat else s.me.vsrng)
      ∧ (∀ r, r ≠ o.vd → t.me.vget r = s.me.vget r) ∧ t.me.d = s.me.d

/-- The real value of a finite encoding; a NaN or an infinity has none, and counts as 0 here. -/
def valueOf (v : FVal) : ℚ :=
  match v with
  | .fin neg m e => (if neg then -1 else 1) * (m * (2 : ℚ) ^ e)
  | _ => 0

/-- The real value of a magnitude. -/
def magnitude (x : Mag) : ℚ := (x.n : ℚ) / x.d * (2 : ℚ) ^ x.e

/-- A finite encoding. -/
def FiniteIn (g : FFmt) (z : Nat) : Prop := (g.decode z).isNan = false ∧ (g.decode z).isInf = false

/-- The exact y rounded to a format is a finite value of its sign beside it: y itself where that is a value of the format; else
the neighbour that the mode names, the nearer one with ties to the even significand, toward zero, down, up, or the nearer with
ties away. NX says that it differs from y; OF is raised only beyond the largest finite value, which RTZ then delivers, and UF
only below the smallest normal (R53, R56, R57, R62 to R65). -/
def Spec.RoundingTakesANeighbour : Prop :=
  ∀ (g : FFmt) (mode : RMode) (neg : Bool) (x : Mag) (y r : ℚ) (c : Nat) (fl : Fl), x.n ≠ 0 → x.d ≠ 0 →
    y = (if neg then -1 else 1) * magnitude x → g.round mode neg x = (c, fl) → r = valueOf (g.decode c) →
    c < 2 ^ g.width ∧ fl.nv = false ∧ fl.dz = false
    ∧ (fl.of = true → valueOf (g.decode g.maxCode) < |y| ∧ fl.nx = true ∧ (mode = .rtz → c = g.signBit neg + g.maxCode))
    ∧ (fl.uf = true → fl.nx = true ∧ |y| < (2 : ℚ) ^ g.emin)
    ∧ (fl.of = false → FiniteIn g c ∧ (g.decode c).neg = neg ∧ (fl.nx = true ↔ r ≠ y)
      ∧ ∀ z w, z < 2 ^ g.width → FiniteIn g z → w = valueOf (g.decode z) →
        (w = y → r = y)
        ∧ (mode = .rne → |r - y| ≤ |w - y| ∧ (|r - y| = |w - y| → w ≠ r → c % 2 = 0))
        ∧ (mode = .rtz → |r| ≤ |y| ∧ (|w| ≤ |y| → |w| ≤ |r|))
        ∧ (mode = .rdn → r ≤ y ∧ (w ≤ y → w ≤ r))
        ∧ (mode = .rup → y ≤ r ∧ (y ≤ w → r ≤ w))
        ∧ (mode = .rmm → |r - y| ≤ |w - y| ∧ (|r - y| = |w - y| → |w| ≤ |r|)))

/-- A sum, difference, product, quotient or fused product and sum of finite elements is the exact real result rounded once; one
that is exactly zero takes the sign that the spec gives it (R62, R144, R146, R150). -/
def Spec.ArithmeticRoundsTheExactResult : Prop :=
  ∀ (g : FFmt) (mode : RMode) (a b c : Nat) (x : Mag) (u v w : ℚ), g ∈ [FFmt.fp16, .bf16, .fp32, .fp64] →
    FiniteIn g a → FiniteIn g b → FiniteIn g c → x.n ≠ 0 → x.d ≠ 0 →
    u = valueOf (g.decode a) → v = valueOf (g.decode b) → w = valueOf (g.decode c) →
    (magnitude x = |u + v| → g.add mode a b = g.round mode (decide (u + v < 0)) x)
    ∧ (magnitude x = |u - v| → g.sub mode a b = g.round mode (decide (u - v < 0)) x)
    ∧ (magnitude x = |u * v| → g.mul mode a b = g.round mode (decide (u * v < 0)) x)
    ∧ (v ≠ 0 → magnitude x = |u / v| → g.div mode a b = g.round mode (decide (u / v < 0)) x)
    ∧ (∀ np na t, t = (if np then -(u * v) else u * v) + (if na then -w else w) → magnitude x = |t| →
        g.fma mode np na a b c = g.round mode (decide (t < 0)) x)
    ∧ (u + v = 0 → g.add mode a b
        = (g.zero (if (g.decode a).neg = (g.decode b).neg then (g.decode a).neg else decide (mode = .rdn)), Fl.none))
    ∧ (u * v = 0 → g.mul mode a b = (g.zero ((g.decode a).neg != (g.decode b).neg), Fl.none))
    ∧ (v = 0 → u ≠ 0 → g.div mode a b = (g.inf ((g.decode a).neg != (g.decode b).neg), Fl.divZero))

/-! Reductions, scans, compression, mask counts, conversions and blocks (R76 to R80, R158, R165 to R173, R191 to R195). -/

/-- The operation of a reduction or scan (R191). -/
def reductionOf (i : Instr) : Option (VaArgs × BinOp) :=
  match i with
  | .vredsum o => some (o, addOp)
  | .vredmin o => some (o, minOp)
  | .vredmax o => some (o, maxOp)
  | _ => none

/-- Whether element i of an instruction contributes: below vl, active, and no pad (R76). -/
def takesPart (t : Hart) (f : Flight) (m : Bool) (i : Nat) : Bool :=
  (!m || (t.v.get 0).getLsbD i) && decide (i < f.vl - f.vpad)

/-- The elements of vs2 at places, those that do not contribute empty (R76). -/
def taking (t : Hart) (f : Flight) (o : VaArgs) (places : List Nat) : List (Option Nat) :=
  places.map (fun i => if takesPart t f o.m i then some (elemAt (t.vget o.vs2) f.sew i) else none)

/-- A fold from the left of values of which some are empty, with the flags of its steps. -/
def foldLeft (g : Nat → Nat → Nat × Fl) (l : List (Option Nat)) (a : Option Nat) : Option Nat × Fl :=
  l.foldl (fun a x => let r := plusOpt g a.1 x; (r.1, a.2.or r.2)) (a, Fl.none)

/-- The normal order (R77): each lane folds its elements in ascending order, the lanes fold as a tree of adjacent pairs, and
init joins last. -/
def normalSum (g : Nat → Nat → Nat × Fl) (t : Hart) (f : Flight) (o : VaArgs) (init : Nat) : Option Nat × Fl :=
  let n := 256 / f.sew
  let lanes := (List.range n).map (fun j =>
    foldLeft g (taking t f o ((List.range f.vl).filter (fun i => i % n == j))) none)
  let tree := foldTree g (Nat.log2 n) (lanes.map Prod.fst)
  let last := plusOpt g tree.1 (some init)
  (last.1, ((lanes.map Prod.snd).foldl Fl.or Fl.none).or (tree.2.or last.2))

/-- The canonical order (R78): init, then each block of 32 elements, folded as a tree of adjacent pairs, in ascending
order. -/
def canonicalSum (g : Nat → Nat → Nat × Fl) (t : Hart) (f : Flight) (o : VaArgs) (init : Nat) : Option Nat × Fl :=
  (List.range ((f.vl + 31) / 32)).foldl (fun a b =>
    let tree := foldTree g 5 (taking t f o ((List.range 32).map (fun j => 32 * b + j)))
    let r := plusOpt g a.1 tree.1
    (r.1, (a.2.or tree.2).or r.2)) (some init, Fl.none)

/-- The second operand of element 0, which a reduction starts from (R191). -/
def initialOf (t : Hart) (f : Flight) (o : VaArgs) : Nat :=
  match o.s with
  | .vv r => elemAt (t.vget r) f.sew 0
  | .vx _ => f.xb.toNat % 2 ^ f.sew
  | .vi k => imm5 true f.sew k

/-- A reduction leaves in element 0 the sum of its order, and the flags of its steps in vexc; the elements above follow
agn (R76 to R78, R191, R192). -/
def Spec.ReductionsFoldInTheirOrder : Prop :=
  ∀ (i : Instr) (s : State) (o : VaArgs) (op : BinOp) (f : Fmt) (xb : Word) (r : Option Nat × Fl),
    reductionOf i = some (o, op) → s.fmt = some f → Fmt.numeric f = true → o.s.isImm = false →
    xb = (match o.s with | .vx r => s.x r | _ => 0) → vectorReady s f.arithClass → s.me.lengthFits →
    s.me.fmtFits f = true → s.me.vl ≠ 0 →
    r = (if vtCanon s.me.vtype then canonicalSum (op f (flightOf s i 0 xb).rm) s.me (flightOf s i 0 xb) o
            (initialOf s.me (flightOf s i 0 xb) o)
         else normalSum (op f (flightOf s i 0 xb).rm) s.me (flightOf s i 0 xb) o (initialOf s.me (flightOf s i 0 xb) o)) →
    ∃ t, exec i s = .next t ∧ vectorDone s t ∧ t.me.vexc = s.me.vexc ||| r.2.bits
      ∧ t.me.vget o.vd = (let v := elemSet (s.me.vget o.vd) f.sew 0 (r.1.getD 0)
          if o.agn then onesFrom v f.sew (max f.sew (cfgVlen s.me.vcfgst)) else v)
      ∧ (∀ q, q ≠ o.vd → t.me.vget q = s.me.vget q) ∧ t.me.d = s.me.d

/-- The running sum of a scan up to and including element i, and its flags (R193). -/
def scanned (t : Hart) (f : Flight) (o : VaArgs) (i : Nat) : Option Nat × Fl :=
  foldLeft (addOp f.fmt f.rm) (taking t f o (List.range (i + 1))) (some (initialOf t f o))

/-- A scan leaves in each active element the sum up to it, in the order of the elements (R191, R193). -/
def Spec.ScanSumsInElementOrder : Prop :=
  ∀ (s : State) (o : VaArgs) (f : Fmt) (xb : Word), Instr.wf (.vscan o) = true → s.fmt = some f → Fmt.numeric f = true →
    xb = (match o.s with | .vx r => s.x r | _ => 0) → vectorReady s f.arithClass → s.me.lengthFits →
    s.me.fmtFits f = true →
    ∃ t, exec (.vscan o) s = .next t ∧ vectorDone s t
      ∧ (∀ i, i < s.me.vl.toNat → (!o.m || (s.me.v.get 0).getLsbD i) = true →
          elemAt (t.me.vget o.vd) f.sew i = (scanned s.me (flightOf s (.vscan o) 0 xb) o i).1.getD 0 % 2 ^ f.sew)
      ∧ (s.me.vl ≠ 0 → t.me.vexc = s.me.vexc ||| (scanned s.me (flightOf s (.vscan o) 0 xb) o (s.me.vl.toNat - 1)).2.bits)
      ∧ (∀ q, q ≠ o.vd → t.me.vget q = s.me.vget q) ∧ t.me.d = s.me.d

/-- vcompress packs the selected elements that are no pad, in order, from element 0 on (R158). -/
def Spec.CompressPacksTheSelected : Prop :=
  ∀ (s : State) (o : VvArgs) (f : Fmt) (sel : List Nat), Instr.wf (.vcompress o) = true → s.fmt = some f →
    vectorReady s 2 → s.me.lengthFits → s.me.fmtFits f = true →
    sel = (List.range (s.me.vl.toNat - s.me.vpad.toNat)).filter (fun i => (s.me.vget o.vs1).getLsbD i) →
    ∃ t, exec (.vcompress o) s = .next t ∧ vectorDone s t ∧ t.me.vexc = s.me.vexc
      ∧ (∀ k, k < sel.length → elemAt (t.me.vget o.vd) f.sew k
          = fixI3g f (elemAt (s.me.vget o.vs2) f.sew (sel.getD k 0)))
      ∧ (∀ q, q ≠ o.vd → t.me.vget q = s.me.vget q) ∧ t.me.d = s.me.d

/-- vmpop counts the active set bits below vl that are no pad, vmfirst gives the first or all ones, vmvxs element 0
extended, vmvsx puts a scalar into element 0 (R165, R166). -/
def Spec.MaskCountsAndScalarMoves : Prop :=
  ∀ (s : State) (o : VuArgs) (f : Fmt) (ones : List Nat), s.fmt = some f → vectorReady s 2 → s.me.fmtFits f = true →
    ones = (List.range (s.me.vl.toNat - s.me.vpad.toNat)).filter (fun i =>
      (s.me.vget o.vs2).getLsbD i && (!o.m || (s.me.v.get 0).getLsbD i)) →
    (∃ t, exec (.vmpop o) s = .next t ∧ s.writesX t o.vd (BitVec.ofNat 64 ones.length) ∧ t.pc = s.pc + 4
      ∧ t.me.v = s.me.v ∧ t.me.vexc = s.me.vexc ∧ t.me.chain = [] ∧ s.sameElse t)
    ∧ (∃ t, exec (.vmfirst o) s = .next t
      ∧ s.writesX t o.vd (match ones with | i :: _ => BitVec.ofNat 64 i | [] => BitVec.allOnes 64) ∧ t.pc = s.pc + 4
      ∧ t.me.v = s.me.v ∧ t.me.vexc = s.me.vexc ∧ t.me.chain = [] ∧ s.sameElse t)
    ∧ (∃ t, exec (.vmvxs o) s = .next t
      ∧ s.writesX t o.vd (BitVec.ofInt 64 (intVal f.isSigned f.sew (elemAt (s.me.vget o.vs2) f.sew 0))) ∧ t.pc = s.pc + 4
      ∧ t.me.v = s.me.v ∧ t.me.vexc = s.me.vexc ∧ t.me.chain = [] ∧ s.sameElse t)
    ∧ ∃ t, exec (.vmvsx o) s = .next t ∧ vectorDone s t ∧ t.me.vexc = s.me.vexc
      ∧ (s.me.vl = 0 → t.me.v = s.me.v)
      ∧ (s.me.vl ≠ 0 → o.agn = false → t.me.vget o.vd
          = elemSet (s.me.vget o.vd) f.sew 0 (fixI3g f ((s.x o.vs2).toNat % 2 ^ f.sew)))
      ∧ ∀ q, q ≠ o.vd → t.me.vget q = s.me.vget q

/-- The scale codes of the blocks of a register, and their flags (R171). -/
def scalesOf (t : Hart) (f : Flight) (o : VuArgs) : List (Nat × Fl) :=
  (List.range f.nb).map (fun j => blockScaleOf f.fmt.blkCodes.1 f.fmt.blkCodes.2
    ((t.blockElems f o.m j).map (fun i => elemAt (t.vget o.vs2) 32 i)))

/-- The sum that vbdot leaves in element 0: from its FP32 value, one block after another, a block without contributing
elements adding nothing; and its flags (R173). -/
def dotOf (t : Hart) (f : Flight) (o : VvArgs) : Nat × Fl :=
  let c := f.fmt.blkCodes
  (List.range f.nb).foldl (fun (a : Nat × Fl) j =>
    if (t.blockElems f o.m j).isEmpty then a
    else
      let b := blockResult f.rm ((t.blockElems f o.m j).map (blockPair t f c.1 o.vs2 o.vs1))
        (scaleVal c.2 (compOf t f o.vs2 (j * f.blk))) (scaleVal c.2 (compOf t f o.vs1 (j * f.blk)))
      let x := FFmt.fp32.add f.rm a.1 b.1
      (x.1, (a.2.or b.2).or x.2)) (elemAt (t.vget o.vd) 32 0, Fl.none)

/-- Where an instruction of a block-scaled format executes at once (R37, R51, R171). -/
def blockReady (s : State) (el sc cls : Nat) : Prop :=
  vectorReady s cls ∧ s.fmt = some (.blk el sc) ∧ s.me.lengthFits ∧ s.me.fmtFits (.blk el sc) = true

/-- vbexp completes, and writes the scale code of each block; with a length of 0 it changes no register (R36, R171). -/
def Spec.VbexpWritesScaleCodes : Prop :=
  ∀ (s : State) (o : VuArgs) (el sc : Nat), Instr.wf (.vbexp o) = true → blockReady s el sc (39 + el) →
    32 ≤ cfgWidth s.me.vcfgst →
    ∃ t, exec (.vbexp o) s = .next t ∧ vectorDone s t ∧ (∀ r, r ≠ o.vd → t.me.vget r = s.me.vget r)
      ∧ t.me.vsrng = s.me.vsrng ∧ t.me.d = s.me.d
      ∧ (s.me.vl = 0 → t.me.vget o.vd = s.me.vget o.vd ∧ t.me.vexc = s.me.vexc)
      ∧ (s.me.vl ≠ 0 →
        (∀ j, j < (flightOf s (.vbexp o) 0 0).nb → elemAt (t.me.vget o.vd) 8 j
            = ((scalesOf s.me (flightOf s (.vbexp o) 0 0) o).getD j (0, Fl.none)).1 % 256)
        ∧ t.me.vexc = s.me.vexc
            ||| (((scalesOf s.me (flightOf s (.vbexp o) 0 0) o).map Prod.snd).foldl Fl.or Fl.none).bits)

/-- The code and flags of element i of a vbpack under the scale of its block (R68, R172): a pad element 0, one under a NaN
scale the code of that, any other the quotient quantised. -/
def packedElem (t : Hart) (f : Flight) (o : VuArgs) (i : Nat) : Nat × Fl :=
  let c := f.fmt.blkCodes
  let sv := scaleVal c.2 ((scalesOf t f o).getD (i / f.blk) (0, Fl.none)).1
  if f.vl - f.vpad ≤ i then (0, Fl.none)
  else if sv.isNan then (packNan c.1, Fl.none)
  else quantise c.1 (if packDraws f.vtype then .sto (drawOf f.seed i) else f.rm) (FFmt.fp32.decode (elemAt (t.vget o.vs2) 32 i)) sv

/-- vbpack completes, and writes each active element, quantised by its block's scale, and the scale codes to the register
after vd; rounding stochastically it advances vsrng by its length (R36, R68, R171, R172). -/
def Spec.VbpackQuantisesBlocks : Prop :=
  ∀ (s : State) (o : VuArgs) (el sc : Nat), Instr.wf (.vbpack o) = true → blockReady s el sc (39 + el) →
    32 ≤ cfgWidth s.me.vcfgst →
    ∃ t, exec (.vbpack o) s = .next t ∧ vectorDone s t
      ∧ (∀ r, r ≠ o.vd → r ≠ nextReg o.vd → t.me.vget r = s.me.vget r)
      ∧ t.me.vsrng = (if packDraws s.me.vtype then xsState s.me.vsrng s.me.vl.toNat else s.me.vsrng) ∧ t.me.d = s.me.d
      ∧ (s.me.vl = 0 → t.me.v = s.me.v ∧ t.me.vexc = s.me.vexc)
      ∧ (s.me.vl ≠ 0 → ∀ f, f = flightOf s (.vbpack o) 0 0 →
        (∀ j, j < f.nb → elemAt (t.me.vget (nextReg o.vd)) 8 j = ((scalesOf s.me f o).getD j (0, Fl.none)).1 % 256)
        ∧ ∀ i, i < s.me.vl.toNat → (!o.m || (s.me.v.get 0).getLsbD i) = true →
            elemAt (t.me.vget o.vd) f.sew i = (packedElem s.me f o i).1 % 2 ^ f.sew)

/-- vbdot completes, and adds each block's product, scaled, to element 0 of vd; with a length of 0 it changes no register
(R36, R75, R173). -/
def Spec.VbdotAddsBlocks : Prop :=
  ∀ (s : State) (o : VvArgs) (el sc : Nat), Instr.wf (.vbdot o) = true → blockReady s el sc (27 + 3 * el + sc) →
    ∃ t, exec (.vbdot o) s = .next t ∧ vectorDone s t ∧ (∀ r, r ≠ o.vd → t.me.vget r = s.me.vget r)
      ∧ t.me.vsrng = s.me.vsrng ∧ t.me.d = s.me.d
      ∧ (s.me.vl = 0 → t.me.vget o.vd = s.me.vget o.vd ∧ t.me.vexc = s.me.vexc)
      ∧ (s.me.vl ≠ 0 → elemAt (t.me.vget o.vd) 32 0 = (dotOf s.me (flightOf s (.vbdot o) 0 0) o).1 % 2 ^ 32
          ∧ t.me.vexc = s.me.vexc ||| (dotOf s.me (flightOf s (.vbdot o) 0 0) o).2.bits)

/-! Work that goes into flight: vector memory, distributions, records (R39, R47, R174 to R189, R223 to R256). -/

/-- What an instruction that goes into flight is: its scalars as captured, its step count in `l`, whether it opens a
window, its moves, and what else it changes at issue (R41, R46). -/
structure Flying where
  xa : Word
  xb : Word
  l : Nat
  move : Flight → State → Move
  also : Hart → Hart

/-- A vector memory instruction as it flies (R174). -/
def vmOf (i : Instr) (s : State) : Option (Flying × (Fmt → Bool) × Nat) :=
  let fly (a : Reg) (l : BitVec 4) (xb : Word) (mv : Flight → State → Move) : Flying :=
    { xa := s.x a, xb := xb, l := l.toNat, move := mv, also := id }
  match i with
  | .vld o => some (fly o.a o.l 0 (goVld o), VmMode.fmtOk .unit, 0)
  | .vldSt o => some (fly o.a o.l 0 (goVldSt o), VmMode.fmtOk .strided, 0)
  | .vldIx o => some (fly o.a o.l 0 (goVldIx o), VmMode.fmtOk .indexed, 0)
  | .vst o => if o.b = 0 ∧ s.submitsTo o = none then some (fly o.a o.l 0 (goVst o), VmMode.fmtOk .unit, 0) else none
  | .vstSt o => if o.b = 0 then some (fly o.a o.l 0 (goVstSt o), VmMode.fmtOk .strided, 0) else none
  | .vstIx o => some (fly o.a o.l 0 (goVstIx o), VmMode.fmtOk .indexed, 0)
  | .vamoadd o => some (fly o.a o.l 0 (goVamoadd o), Fmt.atomicOk, 1)
  | .vamomin o => some (fly o.a o.l 0 (goVamomin o), Fmt.atomicOk, 1)
  | .vamomax o => some (fly o.a o.l 0 (goVamomax o), Fmt.atomicOk, 1)
  | .vamoswap o => some (fly o.a o.l 0 (goVamoswap o), Fmt.atomicOk, 1)
  | _ => none

/-- The hardware context as an instruction's launch leaves it, where no annex is in use. -/
def launched (s : State) (i : Instr) (k : Flying) : State :=
  s.onMe (fun t => k.also (t.launch i k.l true k.xa k.xb))

/-- The moves of a flight one after another to its end: the state after it, or none where one traps or waits. -/
def runsTo (mv : Flight → State → Move) : Nat → Flight → State → Option State
  | 0, _, _ => none
  | n + 1, f, s =>
    match mv f s with
    | .over s1 => some (s1.onMe (fun t => (t.endFlight f.id).endWindow s1.hold f.id))
    | .more f1 s1 => runsTo mv n f1 (s1.onMe (fun t => t.setFlight f1))
    | _ => none

/-- Where an instruction with registers of the vector unit executes at once, and no annex is in use. -/
def flightReady (s : State) (cls : Nat) : Prop := vectorReady s cls ∧ cfgAnx s.me.vcfgst = false

/-- An element of a load as its bytes give it: little-endian, or a nibble of its byte (R176, R177). -/
def loadedElem (m : Memory) (sew : Nat) (va i : Nat) : Nat :=
  if sew = 4 then natLE (Memory.read m va 1) >>> (4 * (i % 2)) % 16 else natLE (Memory.read m va (sew / 8))

/-- The address of an element (R176). -/
def addressOf (t : Hart) (base : Word) (mode : VmMode) (ix : Reg) (sew i : Nat) : Word :=
  match mode with
  | .unit => base + BitVec.ofNat 64 (i * sew / 8)
  | .strided => base + BitVec.ofNat 64 i * t.vstride
  | .indexed => base + BitVec.ofNat 64 (elemAt (t.vget ix) sew i)

/-- On a die manager core, memory of its own die that no die owns, that is not bad and that no store waits for, with ticks
no later than the core's: what an address must be for its bytes to be read as memory holds them. -/
def plainAt (s : State) (va n : Nat) : Prop :=
  va % n = 0 ∧ isDevice va = true ∧ homeDie va = dieOf s.cur.core ∧ s.isBad va = false
    ∧ (s.homeLine (va / 128)).owner = none ∧ Tab.get? (s.die (dieOf s.cur.core)).owned (va / 128) = none
    ∧ Tab.get? (s.die (dieOf s.cur.core)).loans (va / 128) = none
    ∧ tickLe (s.homeLine (va / 128)).wts s.myCore.ptick = true

/-- A vector store with a progress word that is misaligned takes cause 6, and one whose page refuses it stops at element 0
with that fault (R186, R187). That the misalignment is taken with vl = 0 too is the model's reading (log 47). -/
def Spec.ProgressWordIsCheckedAtIssue : Prop :=
  ∀ (i : Instr) (s s1 : State) (o : VmArgs) (mode : VmMode) (f : Fmt) (tr : Trap),
    (i = .vst o ∧ mode = .unit ∧ s.submitsTo o = none) ∨ (i = .vstSt o ∧ mode = .strided) →
    flightReady s 0 → s.fmt = some f → s.me.fmtFits f = true → mode.fmtOk f = true → o.b ≠ 0 →
    ((s.x o.b).toNat % 8 ≠ 0 → exec i s = s.trap 6 (s.x o.b))
    ∧ ((s.x o.b).toNat % 8 = 0 → s.me.vl ≠ 0 → s.dataPlace .store (s.x o.b) 8 = .trap tr s1 →
        exec i s = s1.trapFirst i (s.x o.a) (s.x o.b) tr)

/-- A vector load, store or atomic whose elements can all be performed runs to its end at issue: the state is what its
moves leave, one element after another (R45, R174 to R189). -/
def Spec.VectorMemoryRunsToItsEnd : Prop :=
  ∀ (i : Instr) (s s1 : State) (k : Flying) (fmtOk : Fmt → Bool) (cls : Nat) (f : Fmt),
    vmOf i s = some (k, fmtOk, cls) → flightReady s cls → s.fmt = some f → s.me.fmtFits f = true → fmtOk f = true →
    runsTo k.move 280 (flightOf s i k.xa k.xb) (launched s i k) = some s1 →
    exec i s = .next s1

/-! Accesses element by element. -/

/-- Acts one after another: the state after the last, or none where one traps or must wait. -/
def allOf {α : Type} (act : α → State → Acc Unit) : List α → State → Option State
  | [], s => some s
  | a :: l, s =>
    match act a s with
    | .ok _ s1 => allOf act l s1
    | _ => none

/-- Whether an address is one that no page table translates: on a core that serves no context, in M-mode or with
translation off, every one, on a serving core those of its windows (R383, R384). -/
def untranslated (s : State) (va : Word) : Prop :=
  (s.tagOf s.cur.core = none ∧ (s.me.dataPriv.mode = .m ∨ field s.myCore.satp 60 4 = 0))
    ∨ ((s.tagOf s.cur.core).isSome = true ∧ va.toNat < 2 ^ 56 ∧ inWindows va.toNat = true)

/-- The elements of an instruction that reach memory: active, below vl, and no pad (R36, R178). -/
def reaching (s : State) (m : Bool) : List Nat :=
  (List.range (s.me.vl.toNat - s.me.vpad.toNat)).filter (fun i => !m || (s.me.v.get 0).getLsbD i)

/-- An access of a store: element i, or the progress word with a count. -/
inductive StoreAct where
  | elem (i : Nat)
  | count (c : Nat)

/-- The accesses of a vector store in order: each group's elements, and where it has a progress word the count of elements
handled so far (R45, R187). -/
def storeActs (s : State) (m progress : Bool) (f : Fmt) : List StoreAct :=
  let n := 256 / f.sew
  (List.range ((s.me.vl.toNat + n - 1) / n)).flatMap (fun g =>
    (((reaching s m).filter (fun i => i / n == g)).map StoreAct.elem)
      ++ (if progress then [.count (min s.me.vl.toNat ((g + 1) * n))] else []))

/-- What an access of a store does: the element's bytes at its address, or the count at the progress word (R176, R187). -/
def storeAct (t : Hart) (o : VmArgs) (mode : VmMode) (f : Fmt) (a : StoreAct) (s : State) : Acc Unit :=
  match a with
  | .elem i =>
    s.write (addressOf t (t.get o.a) mode o.b f.sew i) (bytesLE (f.sew / 8) (elemAt (t.vget o.d) f.sew i))
  | .count c => s.write (t.get o.b) (bytesLE 8 c)

/-- A vector store is the stores of its elements at their addresses, each of the format's bytes, in ascending order, and of
its progress word after each group; where no page table translates, in any memory. Of registers nothing changes but what a
store changes, and the pc (R36, R45, R174 to R180, R187; memory: R315, R318, R326). -/
def Spec.VectorStoresStoreTheirElements : Prop :=
  ∀ (i : Instr) (s u : State) (o : VmArgs) (mode : VmMode) (f : Fmt) (progress : Bool) (k : Flying),
    (i = .vst o ∧ mode = .unit ∧ s.submitsTo o = none ∧ progress = decide (o.b ≠ 0))
      ∨ (i = .vstSt o ∧ mode = .strided ∧ progress = decide (o.b ≠ 0)) ∨ (i = .vstIx o ∧ mode = .indexed ∧ progress = false) →
    flightReady s 0 → s.fmt = some f → mode.fmtOk f = true → 8 ≤ f.sew → s.me.lengthFits → s.me.fmtFits f = true →
    s.unshadowed → (progress = true → s.performed ∧ (s.x o.b).toNat % 8 = 0 ∧ untranslated s (s.x o.b)) →
    (∀ j ∈ reaching s o.m, untranslated s (addressOf s.me (s.x o.a) mode o.b f.sew j)) →
    k = { xa := s.x o.a, xb := if mode = .indexed then 0 else s.x o.b, l := o.l.toNat, move := goVst o, also := id } →
    allOf (storeAct s.me o mode f) (storeActs s o.m progress f) (launched s i k) = some u →
    exec i s = .next (u.onMe (fun t => t.endFlight s.me.nextId))

/-- The accesses of a store with a progress word end, in each group, with the count of elements handled: after the elements
of the group, and before those of the next (R187). -/
def Spec.ProgressFollowsTheElements : Prop :=
  (∀ (s : State) (m : Bool) (f : Fmt), s.me.vl ≠ 0 → 4 ≤ f.sew → f.sew ≤ 256 →
    (storeActs s m true f).getLast? = some (.count s.me.vl.toNat)
    ∧ ∀ l1 l2 c, storeActs s m true f = l1 ++ .count c :: l2 →
        (∀ i, StoreAct.elem i ∈ l1 ↔ i ∈ reaching s m ∧ i < c) ∧ ∀ i, StoreAct.elem i ∈ l2 → c ≤ i)
  ∧ ∀ (i : Instr) (s u : State) (o : VmArgs) (mode : VmMode) (f : Fmt) (k : Flying),
    (i = .vst o ∧ mode = .unit ∧ s.submitsTo o = none) ∨ (i = .vstSt o ∧ mode = .strided) → o.b ≠ 0 →
    flightReady s 0 → s.fmt = some f → mode.fmtOk f = true → 8 ≤ f.sew → s.me.lengthFits → s.me.fmtFits f = true →
    s.unshadowed → s.performed → (s.x o.b).toNat % 8 = 0 → untranslated s (s.x o.b) →
    (∀ j ∈ reaching s o.m, untranslated s (addressOf s.me (s.x o.a) mode o.b f.sew j)) →
    k = { xa := s.x o.a, xb := s.x o.b, l := o.l.toNat, move := goVst o, also := id } →
    allOf (storeAct s.me o mode f) (storeActs s o.m true f) (launched s i k) = some u →
    exec i s = .next (u.onMe (fun t => t.endFlight s.me.nextId))

/-- A nibble goes into its byte at the place where the byte is, and changes nothing else (R177). -/
def Spec.NibblesAreMerged : Prop :=
  ∀ (s t : State) (va : Word) (hi : Bool) (x : Nat), x < 16 → s.coherent → s.myCore.img.stores = [] → s.unshadowed →
    (∀ k off, s.writeNibble (.scratch k off) va hi x = .ok () t →
      ∀ c a, t.scratchByte c a = if c = k ∧ a = off then
          (if hi then ((s.scratchByte k off) &&& 0x0F#8) ||| BitVec.ofNat 8 (16 * x)
           else ((s.scratchByte k off) &&& 0xF0#8) ||| BitVec.ofNat 8 x)
        else s.scratchByte c a)
    ∧ ∀ pa sh g, s.writeNibble (.mem pa sh g) va hi x = .ok () t →
      ∀ a, t.byteAt a = if a = pa then
          (if hi then ((s.byteAt pa) &&& 0x0F#8) ||| BitVec.ofNat 8 (16 * x)
           else ((s.byteAt pa) &&& 0xF0#8) ||| BitVec.ofNat 8 x)
        else s.byteAt a

/-- The operation of a vector atomic, its operands, and the new value's operation (R188). -/
def vamoOf (i : Instr) : Option (VamoArgs × BinOp) :=
  match i with
  | .vamoadd o => some (o, addOp)
  | .vamomin o => some (o, minOp)
  | .vamomax o => some (o, maxOp)
  | .vamoswap o => some (o, fun _ _ _ b => (b, Fl.none))
  | _ => none

/-- What a vector atomic does at element i: a pad element gets 0; any other reads its address and writes the new value there
in one access, and gets the value read; its flags accrue (R188, R189). -/
def atomicAct (t : Hart) (o : VamoArgs) (op : BinOp) (f : Fmt) (rm : RMode) (i : Nat) (s : State) : Acc Unit :=
  if t.vl.toNat - t.vpad.toNat ≤ i then .ok () (s.setElem o.d f.sew i 0)
  else
    let b := elemAt (t.vget o.d) f.sew i
    let n := f.sew / 8
    (s.atomicAt (addressOf t (t.get o.a) .indexed o.b f.sew i) n false false
        (fun old => some (bytesLE n (op f rm (natLE old) b).1))).bind (fun old s =>
      .ok () ((s.setElem o.d f.sew i (natLE old)).onMe (fun t => t.raise (op f rm (natLE old) b).2)))

/-- A vector atomic is the atomics of its active elements in ascending order, where no page table translates (R188, R189). -/
def Spec.VectorAtomicsActOnTheirElements : Prop :=
  ∀ (i : Instr) (s u : State) (o : VamoArgs) (op : BinOp) (f : Fmt) (k : Flying), Instr.wf i = true →
    vamoOf i = some (o, op) → flightReady s 1 → s.fmt = some f → f.atomicOk = true → s.me.lengthFits →
    s.me.fmtFits f = true →
    (∀ j ∈ reaching s o.m, untranslated s (addressOf s.me (s.x o.a) .indexed o.b f.sew j)) →
    k = { xa := s.x o.a, xb := 0, l := o.l.toNat, move := fun _ s => .over s, also := id } →
    allOf (atomicAct s.me o op f (flightOf s i 0 0).rm)
      ((List.range s.me.vl.toNat).filter (fun j => !o.m || (s.me.v.get 0).getLsbD j)) (launched s i k) = some u →
    exec i s = .next (u.onMe (fun t => t.endFlight s.me.nextId))

/-- What a distribution instruction does at issue and to an element: its window, the registers it names, the values it
keeps, the tag sets it writes, and what it does to element i. -/
abbrev DistAct := BitVec 4 × List DReg8 × Word × Word × (Hart → Hart) × (Flight → Nat → Hart → Hart)

/-- A two-source distribution instruction: its sources are dependent where their tag sets meet (R224). -/
def distTwo (s : State) (l : BitVec 4) (o : DOp) (d a b : DReg8) : Option DistAct :=
  let joint := decide (s.me.tags a &&& s.me.tags b ≠ 0)
  some (l, [d, a, b], (if joint then (1 : Word) else 0), (0 : Word), (fun t => t.setTags d (t.tags a ||| t.tags b)),
    fun _ i t => t.dput d i ((if joint then dependent else independent) o (t.dget a i) (t.dget b i)))

/-- What a distribution instruction on registers does to element i, and to the tag sets at issue (R220, R223 to R233). -/
def distOf (i : Instr) (s : State) : Option DistAct :=
  let vec (d : Reg) (i : Nat) (t : Hart) (x : Nat) : Hart := t.vset d (elemSet (t.vget d) 32 i x)
  let level (b : Reg) : Nat := min (s.x b).toNat 65536
  match i with
  | .dadd l d a b => distTwo s l .add d a b
  | .dsub l d a b => distTwo s l .sub d a b
  | .dmul l d a b => distTwo s l .mul d a b
  | .dmax l d a b => distTwo s l .max d a b
  | .dmin l d a b => distTwo s l .min d a b
  | .dmix l d a b => some (l, [d, a], 0, s.x b, (fun t => t.setTags d (t.tags d ||| t.tags a)),
      fun _ i t => t.dput d i (mixElem (level b) (t.dget d i) (t.dget a i)))
  | .dscale l d a b => some (l, [d], 0, 0, id, fun _ i t =>
      t.dput d i (scaleElem (elemAt (t.vget a) 32 i) (elemAt (t.vget b) 32 i) (t.dget d i)))
  | .dcond l d a b => some (l, [d, a], 0, 0, (fun t => t.setTags d (t.tags a)), fun _ i t =>
      t.dput d i (condElem (elemAt (t.vget b) 32 i) (t.dget a i)))
  | .dpoint l d a => some (l, [d], 0, 0, (fun t => t.setTags d 0), fun _ i t =>
      t.dput d i (tidy [(elemAt (t.vget a) 32 i, 65536)]))
  | .dgauss l d a b => some (l, [d], 0, 0, (fun t => t.setTags d 0), fun _ i t =>
      t.dput d i (gaussElem (elemAt (t.vget a) 32 i) (elemAt (t.vget b) 32 i)))
  | .dmom l d a k => some (l, [a], 0, 0, id, fun _ i t => vec d i t (momentOf k.toNat (t.dget a i)))
  | .dqnt l d a b => some (l, [a], 0, s.x b, id, fun _ i t => vec d i t (quantileOf (level b) (t.dget a i)))
  | .dcdf l d a b => some (l, [a], 0, 0, id, fun _ i t => vec d i t (cdfOf (elemAt (t.vget b) 32 i) (t.dget a i)))
  | .dtag l d a => some (l, [d], s.x a, 0, (fun t => t.setTags d ((s.x a).setWidth 16)), fun _ _ t => t)
  | _ => none

/-- What dld does at element i: a pad element is zero; any other is the element of the 48 bytes at its address, read dword
by dword, or the NaN element where they hold none (R234, R235). -/
def dldAct (t : Hart) (d : DReg8) (base : Word) (i : Nat) (s : State) : Acc Unit :=
  if t.vl.toNat - t.vpad.toNat ≤ i then .ok () (s.onMe (fun h => h.dput d i zeroElem))
  else
    (Acc.list (fun k s => s.unitRead (base + BitVec.ofNat 64 (48 * i + 8 * k)) 8) (List.range 6) s).bind (fun l s =>
      let e := elemOfBytes l.flatten
      .ok () (s.onMe (fun h => h.dput d i (if malformed e then nanElem else e))))

/-- What dst does at element i that is no pad: the element's 48 bytes go to its address, dword by dword (R234, R235). -/
def dstAct (t : Hart) (d : DReg8) (base : Word) (i : Nat) (s : State) : Acc Unit :=
  (Acc.list (fun k s => s.write (base + BitVec.ofNat 64 (48 * i + 8 * k)) (((bytesOfElem (t.dget d i)).drop (8 * k)).take 8))
    (List.range 6) s).bind (fun _ s => .ok () s)

/-- dld and dst at an aligned base move each element below vl between the register and its 48 bytes of memory, where no page
table translates, and run to their end where every element can be performed; at a misaligned one they take causes 4 and 6
(R234 to R236). -/
def Spec.DistributionTransfersRunOrTrap : Prop :=
  ∀ (s s1 : State) (l : BitVec 4) (d : DReg8) (a : Reg), flightReady s 60 → vtFmt s.me.vtype = 0x0A →
    s.me.fmtFits (.fp .fp32) = true → d.val < cfgNd s.me.vcfgst → s.me.vl.toNat ≤ 512 →
    (s.me.vl ≠ 0 → (s.x a).toNat % 16 ≠ 0 →
      exec (.dld l d a) s = s.trap 4 (s.x a) ∧ exec (.dst l d a) s = s.trap 6 (s.x a))
    ∧ ((s.x a).toNat % 16 = 0 ∨ s.me.vl = 0 → ∀ (i : Instr) (k : Flying),
        (i = .dld l d a ∧ k = { xa := s.x a, xb := 0, l := l.toNat, move := goDld d, also := fun t => t.setTags d 0 })
          ∨ (i = .dst l d a ∧ k = { xa := s.x a, xb := 0, l := l.toNat, move := goDst d, also := id }) →
        (runsTo k.move 514 (flightOf s i k.xa k.xb) (launched s i k) = some s1 → exec i s = .next s1)
        ∧ ((∀ j c, j < s.me.vl.toNat - s.me.vpad.toNat → c < 6 → untranslated s (s.x a + BitVec.ofNat 64 (48 * j + 8 * c))) →
          s.unshadowed →
          (i = .dld l d a → allOf (dldAct s.me d (s.x a)) (List.range s.me.vl.toNat) (launched s i k) = some s1 →
            exec i s = .next (s1.onMe (fun t => t.endFlight s.me.nextId)))
          ∧ (i = .dst l d a →
            allOf (dstAct s.me d (s.x a)) (List.range (s.me.vl.toNat - s.me.vpad.toNat)) (launched s i k) = some s1 →
            exec i s = .next (s1.onMe (fun t => t.endFlight s.me.nextId)))))

/-- The 48 bytes of a distribution element give the element back, and the element its bytes (R234). -/
def Spec.ElementBytesRoundTrip : Prop :=
  (∀ e : DElem, e.length = 8 → elemOfBytes (bytesOfElem e) = e)
  ∧ ∀ bs : List Byte, bs.length = 48 → bytesOfElem (elemOfBytes bs) = bs

/-- Where a vst is a submission whose record the pass takes without a wait: its pass, and its context (R355, R356). -/
def submission (s : State) (o : VmArgs) (n tag : Nat) (c : Ctx) (p : Pass) : Prop :=
  flightReady s 0 ∧ s.quiet ∧ (∃ f, s.fmt = some f ∧ s.me.fmtFits f = true) ∧ s.unshadowed
    ∧ s.tagOf s.cur.core = some tag ∧ s.submitsTo o = some n
    ∧ (s.drain (dieOf s.cur.core) s.myCore.ptick).ctx tag = some c ∧ Tab.get? c.passes n = some p
    ∧ c.submitWaits p (dieOf s.cur.core) (at_ (s.primBytes o) 48 4) = false

/-- What a submission leaves: the pass has taken its record, and the vst has completed (R356). -/
def submitted (s t : State) (o : VmArgs) (n tag : Nat) (p : Pass) : Prop :=
  t.pc = s.pc + 4 ∧ (∀ r, t.x r = s.x r) ∧ t.me.v = s.me.v
    ∧ ∃ c', t.ctx tag = some c' ∧ Tab.get? c'.passes n = some (p.take (dieOf s.cur.core) s.myCore.ptick (s.primBytes o))

/-- vst and vst.st with a progress word that is aligned and whose page takes the write run to their end where every
element and every notify can be performed (R187); a vst that is a submission hands its record to the pass, which takes it
where it need not wait (R355, R356). -/
def Spec.NotifyingStoresAndSubmissionsComplete : Prop :=
  (∀ (s s1 s2 : State) (o : VmArgs) (f : Fmt) (pl : Place) (g : List TlbEntry) (i : Instr) (k : Flying) (mode : VmMode),
    flightReady s 0 → s.fmt = some f → s.me.fmtFits f = true → mode.fmtOk f = true → o.b ≠ 0 → (s.x o.b).toNat % 8 = 0 →
    s.me.vl ≠ 0 → s.elemPlace [] .store (s.x o.b) 8 = .ok (pl, g) s1 → s1.me = s.me → s1.cur = s.cur → s1.hold = false →
    (i = .vst o ∧ mode = .unit ∧ s.submitsTo o = none ∧ k = { xa := s.x o.a, xb := s.x o.b, l := o.l.toNat, move := goVst o, also := id })
      ∨ (i = .vstSt o ∧ mode = .strided ∧ k = { xa := s.x o.a, xb := s.x o.b, l := o.l.toNat, move := goVstSt o, also := id }) →
    runsTo k.move 280 { flightOf s1 i k.xa k.xb with pages := g } ((launched s1 i k).onMe (fun t => t.holdPages g)) = some s2 →
      exec i s = .next s2)
  ∧ ∀ (s : State) (o : VmArgs) (n tag : Nat) (c : Ctx) (p : Pass), submission s o n tag c p →
    ∃ t, exec (.vst o) s = .next t ∧ submitted s t o n tag p

/-! Graphics (R239 to R256). -/

/-- What a graphics instruction on registers does: its class, whether the conditions of R239 hold, the elements of the
counted operand that a record takes, and what a record does to the hardware context. -/
def recordOfGfx (i : Instr) (s : State) : Option (BitVec 4 × Nat × Bool × Nat × (Flight → Nat → Hart → Hart)) :=
  match i with
  | .xbox l d a b => some (l, 61, s.gfxOk fmtFP32 256 (vlTimes 8), 8, fun f k t =>
      t.putWords d k (if f.pad k then zeroRecord 8 else boxRecord (t.words a k 8) (t.words b k 8)))
  | .xtri l d a b => some (l, 61, s.gfxOk fmtFP32 512 (vlTimes 16), 16, fun f k t =>
      t.putWords d (k / 2) (if f.pad k then zeroRecord 8 else triRecord (t.words a (k / 2) 8) (t.words b k 16)))
  | .tgrad l d a b => some (l, 63, s.gfxOk fmtFP32 256 (vlTimes 8), 8, fun f k t =>
      t.putWords d (k + 3) (if f.pad k then zeroRecord 4 else gradRecord (t.words a k 4) (t.words b k 4)))
  | _ => none

/-- xbox, xtri and tgrad act on their records in ascending order, each written whole, a pad record zero; x, memory, the
controls and every distribution register keep their values, and the window opens (R239, R241, R243, R244, R251). -/
def Spec.RecordsActInOrder : Prop :=
  ∀ (i : Instr) (s : State) (l : BitVec 4) (cls per : Nat) (act : Flight → Nat → Hart → Hart),
    recordOfGfx i s = some (l, cls, true, per, act) → flightReady s cls → s.me.vl.toNat ≤ 512 →
    ∃ t, exec i s = .next t
      ∧ t.me.v = ((List.range (s.me.vl.toNat / per)).foldl (fun h j => act (flightOf s i 0 0) (per * j) h) s.me).v
      ∧ t.pc = s.pc + 4 ∧ t.me.chain = [] ∧ t.me.windows.length = 1 ∧ (∀ r, t.x r = s.x r) ∧ t.me.d = s.me.d
      ∧ t.me.vexc = s.me.vexc ∧ t.me.vl = s.me.vl ∧ t.me.vtype = s.me.vtype ∧ t.me.mstatus = s.me.mstatus ∧ s.sameElse t

/-- Bit p·n + q of xedge's result is set where sample q of pixel p lies inside all three edges (R245); the bits above keep
their values. -/
def Spec.XedgeCoversWhatLiesInside : Prop :=
  ∀ (s : State) (l : BitVec 4) (d a b : Reg) (pos : List (Nat × Nat)), flightReady s 63 →
    s.gfxOk fmtI32 512 anyVl = true → pos = samplePos (field (s.x b) 32 2) →
    ∃ t, exec (.xedge l d a b) s = .next t ∧ t.pc = s.pc + 4 ∧ (∀ r, t.x r = s.x r)
      ∧ (∀ r, r ≠ d → t.me.vget r = s.me.vget r) ∧ t.me.d = s.me.d ∧ t.me.vexc = s.me.vexc ∧ s.sameElse t
      ∧ (∀ p q, p < 64 → q < pos.length → (t.me.vget d).getLsbD (p * pos.length + q) =
          (List.range 3).all (fun k =>
            let e := edgeOf (s.me.words a 0 12) k
            let at_ := pos.getD q (0, 0)
            insideEdge e.1 e.2.1 e.2.2 ((256 * (field (s.x b) 0 16 + p % 8) + at_.1 : Nat) : Int)
              ((256 * (field (s.x b) 16 16 + p / 8) + at_.2 : Nat) : Int)))
      ∧ ∀ k, 64 * pos.length ≤ k → (t.me.vget d).getLsbD k = (s.me.vget d).getLsbD k

/-- vdedup's record for an id has the id, the mask of the elements that hold it, and six words of vb's record of that
number; an id that no element holds has none (R246). -/
def Spec.VdedupCollectsEqualIds : Prop :=
  ∀ (s : State) (l : BitVec 4) (d a b : Reg) (ids : List Nat), flightReady s 63 → s.me.lengthFits →
    s.gfxOk fmtN32 256 (fun vl => decide (1 ≤ vl) && decide (vl ≤ 32)) = true →
    ids = s.me.words a 0 (s.me.vl.toNat - s.me.vpad.toNat) →
    ∃ t, exec (.vdedup l d a b) s = .next t ∧ t.pc = s.pc + 4 ∧ (∀ r, t.x r = s.x r)
      ∧ (∀ r, r ≠ d → t.me.vget r = s.me.vget r) ∧ t.me.d = s.me.d ∧ t.me.vexc = s.me.vexc ∧ s.sameElse t
      ∧ ∀ j, j < cfgVlen s.me.vcfgst / 256 →
          (ids.all (fun x => x != j) = true → t.me.words d (8 * j) 8 = [0xFFFFFFFF, 0, 0, 0, 0, 0, 0, 0])
          ∧ (j ∈ ids → elemAt (t.me.vget d) 32 (8 * j) = j ∧ t.me.words d (8 * j + 2) 6 = s.me.words b (8 * j) 6
              ∧ ∀ k, k < ids.length → (elemAt (t.me.vget d) 32 (8 * j + 1)).testBit k = (ids.getD k 0 == j))

/-- A graphics instruction with a descriptor or a record in memory, as it flies: its class, the conditions of R239, the
alignment and bytes of what it reads at issue, the check of those bytes, and its moves. -/
def describedOf (i : Instr) (s : State) : Option (Flying × Nat × Bool × Nat × (State → List Byte → Option Nat)) :=
  match i with
  | .tfetch l d a b => some ({ xa := 0, xb := s.x b, l := l.toNat, move := goTfetch d a, also := id }, 62,
      s.gfxOk fmtFP32 256 (vlTimes 8), 64, texError)
  | .gfeat l d a b => some ({ xa := s.x d, xb := s.x b, l := l.toNat, move := goGfeat a, also := id }, 62,
      s.gfxOk fmtFP32 256 (fun vl => vlTimes 4 vl && decide (vl ≤ 32)), 64, gridError)
  | .zcommit l a b => some ({ xa := 0, xb := s.x b, l := l.toNat, move := goZcommit a, also := id }, 63,
      s.gfxOk fmtFP32 1024 anyVl, 32, commitError)
  | _ => none

/-- tfetch, gfeat and zcommit read and check their descriptor at issue, and run to their end where every record, or the
commit, can be performed; a byte of the descriptor in error is a descriptor fault that names it (R247, R252, R255). -/
def Spec.DescriptorsAreChecked : Prop :=
  ∀ (i : Instr) (s s1 : State) (k : Flying) (cls n : Nat) (check : State → List Byte → Option Nat) (bs : List Byte),
    describedOf i s = some (k, cls, true, n, check) → flightReady s cls → s.readRecord k.xb n n = .ok bs s1 → bs ≠ [] →
    (∀ o, check s1 bs = some o → exec i s = s1.trap 29 (k.xb + BitVec.ofNat 64 o))
    ∧ ∀ s2, check s1 bs = none → s1.idle → s1.hold = false →
        (∀ l d a b, i = .gfeat l d a b → s1.slotFault k.xa bs = none) →
        runsTo k.move 140 { flightOf s1 i k.xa k.xb with desc := bs }
          (s1.onMe (fun t => (t.launch i k.l true k.xa k.xb).describe bs)) = some s2 →
        exec i s = .next s2

/-- The state in which the records of an instruction with a descriptor begin. -/
def describedAt (s : State) (i : Instr) (k : Flying) (bs : List Byte) : State :=
  s.onMe (fun t => (t.launch i k.l true k.xa k.xb).describe bs)

/-- What tfetch does at the record of element k: zeros for a pad record, else the texture's result for the record (R239,
R249). -/
def fetchAct (t : Hart) (d a : Reg) (bs : List Byte) (k : Nat) (s : State) : Acc Unit :=
  if t.vl.toNat - t.vpad.toNat ≤ k then .ok () (s.onMe (fun h => h.putWords d k (List.replicate 8 0)))
  else
    ((texOf bs).fetch (s.me.words a k 8) s).bind (fun r s => .ok () (s.onMe (fun h => h.putWords d k r)))

/-- What gfeat does at the record of element k: a pad record nothing; any other takes the features of each level at its
position, and writes row k / 4 of the panel: 64 elements in two blocks of 32 at 64 bytes a row, and the blocks' scales from
the descriptor's scale offset on at 16 bytes a row (R253, R254). -/
def featAct (t : Hart) (slot : Word) (a : Reg) (bs : List Byte) (k : Nat) (s : State) : Acc Unit :=
  if t.vl.toNat - t.vpad.toNat ≤ k then .ok () s
  else
    (Acc.list (gridLevel bs (s.me.words a k 3)) (List.range (at_ bs 8 1)) s).bind (fun vs s =>
      let b (j : Nat) : Nat × List Nat := gridBlock vs.flatten j
      (s.write (slot + BitVec.ofNat 64 (64 * (k / 4))) (((b 0).2 ++ (b 1).2).map (BitVec.ofNat 8))).bind (fun _ s =>
        (s.write (slot + BitVec.ofNat 64 (at_ bs 12 2 + 16 * (k / 4))) [BitVec.ofNat 8 (b 0).1]).bind (fun _ s =>
          s.write (slot + BitVec.ofNat 64 (at_ bs 12 2 + 16 * (k / 4)) + 1) [BitVec.ofNat 8 (b 1).1])))

/-- The commit that a record of 32 bytes and the colours of v[a] make: ticket, block and cover of the record, and for each
sample of the block's eight pixels the four colours of its pixel (R255). -/
def commitMade (s : State) (p : Pass) (bs : List Byte) (a : Reg) : Commit where
  ticket := at_ bs 0 4
  block := at_ bs 12 2
  cover := BitVec.ofNat 32 (at_ bs 16 4)
  colours := (List.range (8 * p.nsamp)).flatMap (fun j =>
    (List.range 4).map (fun c => BitVec.ofNat 32 ((s.me.words a 0 32).getD (4 * (j / p.nsamp) + c) 0)))
  prio := match s.me.task with | some k => s.prioOf s.myTag k.task | none => 0

/-- tfetch writes the result of each record, gfeat the panel's row of each record, and zcommit hands its commit to its
owner, whose acceptance completes it (R239, R249, R253 to R256). Stated where the records can be performed and no fault of
the unit is still to be serviced. -/
def Spec.DescribedRecordsAreCarriedOut : Prop :=
  ∀ (s s1 u : State) (k : Flying) (cls n : Nat) (check : State → List Byte → Option Nat) (bs : List Byte) (i : Instr),
    describedOf i s = some (k, cls, true, n, check) → flightReady s cls → s.readRecord k.xb n n = .ok bs s1 → bs ≠ [] →
    check s1 bs = none → s1.idle → s1.hold = false → (s1.die (dieOf s1.cur.core)).parked = [] → s1.unshadowed →
    s.me.vl.toNat ≤ 512 →
    (∀ l d a b, i = .tfetch l d a b →
      allOf (fetchAct s1.me d a bs) ((List.range (s1.me.vl.toNat / 8)).map (8 * ·)) (describedAt s1 i k bs) = some u →
      exec i s = .next (u.onMe (fun t => t.endFlight s1.me.nextId)))
    ∧ (∀ l d a b, i = .gfeat l d a b → s1.slotFault k.xa bs = none →
      allOf (featAct s1.me k.xa a bs) ((List.range (s1.me.vl.toNat / 4)).map (4 * ·)) (describedAt s1 i k bs) = some u →
      exec i s = .next (u.onMe (fun t => t.endFlight s1.me.nextId)))
    ∧ ∀ l a b, i = .zcommit l a b → s1.quiet → ∀ p w, s1.commitUnitOf s1.myTag bs = some (p, w) →
      (describedAt s1 i k bs).offer s1.myTag (at_ bs 8 4) w.lcore (commitMade s1 p bs a) = .accepted u →
      exec i s = .next (u.onMe (fun t => ({ t.meet bs with zwait := none } : Hart).endFlight s1.me.nextId))

/-- A texel of the first level of a texture of 8-bit RGBA is the four bytes of its place: rows of 4 bytes a texel, rounded up
to 16, one layer after another from the base; each channel is its byte over 255 (R248, R249). -/
def Spec.TexelsLieInRows : Prop :=
  ∀ (t : Tex) (layer x y row : Nat) (s s1 : State) (bs : List Byte), t.format = 1 → x < t.w → y < t.h →
    row = (4 * t.w + 15) / 16 * 16 →
    s.anyRead (BitVec.ofNat 64 (t.base + layer * (row * t.h) + y * row + 4 * x)) 4 = .ok bs s1 → bs.length = 4 →
    t.texel layer 0 x y s = .ok ((List.range 3).map (fun c => colourTexel t.srgb (at_ bs c 1) 255) ++ [fracTexel (at_ bs 3 1) 255]) s1

/-! The matrix unit (R196 to R216). -/

/-- Where a matrix instruction is issued and executed at once: nothing in flight on the core, no command waiting, its class
enabled, no error in the core's SRAM, nothing held in flight (log 7). -/
def matrixReady (s : State) (cls : Option Nat) : Prop :=
  s.quiet ∧ s.hold = false ∧ cfgAnx s.me.vcfgst = false ∧ (∀ c, cls = some c → s.myCore.capmask.getLsbD c = true)
    ∧ s.badCore = [] ∧ s.soft = []
    ∧ (∀ e, e ∈ s.myCore.img.harts → e.2.chain = []) ∧ s.myCore.img.rings = []

/-- What a matrix instruction leaves but tiles, configuration and scratchpad: the pc past it, and the registers and
memory of the machine. -/
def matrixDone (s t : State) : Prop :=
  t.pc = s.pc + 4 ∧ (∀ r, t.x r = s.x r) ∧ t.me.v = s.me.v ∧ t.me.d = s.me.d ∧ t.me.vexc = s.me.vexc
    ∧ t.me.mstatus = s.me.mstatus ∧ t.me.chain = [] ∧ t.mem = s.mem ∧ t.home = s.home ∧ t.dies = s.dies ∧ t.ctxs = s.ctxs
    ∧ t.myCore.img.mq = [] ∧ ∀ j, j ≠ s.cur → t.hart j = s.hart j

/-- The value that mopa leaves in a cell, from the cell and the panels (R203, R204). -/
def productCell (g : MatCfg) (old : BitVec 32) (pa pb : List Byte) (x y : Nat) : BitVec 32 :=
  let fa := matFmt g.afmt
  let fb := matFmt g.bfmt
  if g.iacc then BitVec.ofNat 32 (cellI (g.bfmt == 0x0E) old.toNat (panelInts pa fa g.k x) (panelInts pb fb g.k y))
  else BitVec.ofNat 32 (cellF g.chunk old.toNat (panelVals pa fa g.soff (blkLen g.ablk.toNat) g.k x)
    (panelVals pb fb g.soff (blkLen g.bblk.toNat) g.k y))

/-- The byte of a scratchpad after the eight rows of a tile have been stored at places, in ascending order (R208). -/
def rowsStored (s : State) (n : Nat) (at_ : Nat → Nat × Nat) (c o : Nat) : Byte :=
  (List.range 8).foldl (fun b i =>
    if (at_ i).1 = c ∧ (at_ i).2 ≤ o ∧ o < (at_ i).2 + 32 then
      (s.myCore.img.cell n i ((o - (at_ i).2) / 4)).extractLsb' (8 * ((o - (at_ i).2) % 4)) 8
    else b) (s.scratchByte c o)

/-! Rays (R257 to R265). -/

/-- Where a ray instruction issues: nothing pending but reads of rays, and its class enabled; one that names a vector
register of at least 256 bits on a configured hardware context, under a format that its blocks fit (R51, R239, R436). -/
def rayReady (s : State) (vec : Bool) : Prop :=
  s.settled ∧ cfgAnx s.me.vcfgst = false ∧ s.myCore.capmask.getLsbD 61 = true ∧ s.badCore = [] ∧ s.soft = []
    ∧ (vec = true → cfgOn s.me.vcfgst = true ∧ 256 ≤ cfgVlen s.me.vcfgst ∧ s.vtypeFits = true)

/-- trace fills the lowest free slot with a ray that starts at its root node and gives x[d] the slot; with no slot free it
gives −1; a trace beyond the kernel's ray depth completes DEPTH_REFUSED at once (R258, R259). -/
def Spec.TraceFillsASlot : Prop :=
  ∀ (s s1 : State) (l : BitVec 4) (d a b : Reg) (bs : List Byte), rayReady s true →
    s.readRecord (s.x b) 64 64 = .ok bs s1 → traceError bs = none → s1.settled → s1.cur = s.cur →
    (s1.me.freeSlot = none →
      exec (.trace l d a b) s = .next ((s1.onMe (fun t => t.put d (BitVec.allOnes 64))).passedLong l [.v a.val] (xs [d])))
    ∧ ∀ k, s1.me.freeSlot = some k →
      ∃ t r, exec (.trace l d a b) s = .next t ∧ s1.writesX t d (BitVec.ofNat 64 k) ∧ t.pc = s1.pc + 4
        ∧ Tab.get? t.me.rays k = some r ∧ r.ray = (s1.me.words a 0 8).map (BitVec.ofNat 32) ∧ r.depth = at_ bs 29 1
        ∧ r.shtab = BitVec.ofNat 64 (at_ bs 8 8) ∧ r.payload = BitVec.ofNat 64 (at_ bs 16 8)
        ∧ (if r.depth = 0 ∨ s1.me.kernel.raydepth < r.depth then r.phase = .complete ∧ r.status = 2
           else r.phase = .running ∧ r.work = [.node (BitVec.ofNat 64 (at_ bs 0 8)) false]
             ∧ t.agenda = s1.agenda ++ [.rayTraversal s.cur k])
        ∧ (∀ j, j ≠ k → Tab.get? t.me.rays j = Tab.get? s1.me.rays j) ∧ t.mem = s1.mem ∧ t.me.v = s1.me.v

/-- rwait gives the slot of the oldest completion that has not been returned, or −1 where no ray is outstanding, and else
waits; rget writes the completion record of a slot to v[d] and frees a completed slot; rhit gives its verdict to the
candidate its token names, and completes at once; rcancel cancels a running ray (R261, R263, R264). -/
def Spec.RaySlotsAreReturned : Prop :=
  ∀ (s : State) (l : BitVec 4) (d a b : Reg),
    (rayReady s false →
      (∀ k r, s.me.nextCompletion = some (k, r) →
        ∃ t, exec (.rwait l d) s = .next t ∧ s.writesX t d (BitVec.ofNat 64 k) ∧ t.pc = s.pc + 4
          ∧ t.me.rays = Tab.modify s.me.rays k (fun r => { r with returned := true }) ∧ s.sameElse t)
      ∧ (s.me.nextCompletion = none → s.me.rayOutstanding = false →
          exec (.rwait l d) s = .next (s.wroteLong l d (BitVec.allOnes 64)))
      ∧ (s.me.nextCompletion = none → s.me.rayOutstanding = true → exec (.rwait l d) s = .next s))
    ∧ (rayReady s true → (∀ r, Tab.get? s.me.rays (field (s.x a) 0 3) = some r → r.status < 2 ^ 32) →
      ∃ t, exec (.rget l d a) s = .next t ∧ t.pc = s.pc + 4 ∧ (∀ r, t.x r = s.x r)
        ∧ t.me.words d 0 8 = s.me.completionOf (field (s.x a) 0 3) ∧ (∀ r, r ≠ d → t.me.vget r = s.me.vget r)
        ∧ (∀ r, Tab.get? s.me.rays (field (s.x a) 0 3) = some r →
            Tab.get? t.me.rays (field (s.x a) 0 3) = if r.phase = .complete then none else some r)
        ∧ s.sameElse t)
    ∧ (rayReady s false → ∀ tag, s.tagOf s.cur.core = some tag →
      (s.tokenRay tag (s.x a).toNat = none → exec (.rhit l a b) s = .next (s.passed 4))
      ∧ ∀ h slot r, s.tokenRay tag (s.x a).toNat = some (s.myCore.lcore, h, slot) →
          s.residentCore tag s.myCore.lcore = some s.cur.core → Tab.get? (s.hart { core := s.cur.core, h := h }).rays slot = some r →
          ∃ t, exec (.rhit l a b) s = .next t ∧ t.pc = s.pc + 4 ∧ (∀ q, t.x q = s.x q)
            ∧ Tab.get? (t.hart { core := s.cur.core, h := h }).rays slot = some { r.judge (s.x b) with phase := .running }
            ∧ t.agenda = s.agenda ++ [.rayTraversal { core := s.cur.core, h := h } slot])
    ∧ (rayReady s false → ∀ r, Tab.get? s.me.rays (field (s.x a) 0 3) = some r →
      ∃ t r1, exec (.rcancel l a) s = .next t ∧ t.pc = s.pc + 4 ∧ (∀ q, t.x q = s.x q) ∧ s.sameElse t
        ∧ Tab.get? t.me.rays (field (s.x a) 0 3) = some r1
        ∧ (r.phase = .running → r.tasks = 0 → r1.phase = .complete ∧ r1.status = 4)
        ∧ (r.phase = .running → r.tasks ≠ 0 → r1.phase = .cancelling)
        ∧ (r.phase = .complete → r1 = r))

/-! Tasks and queues (R266 to R275, R296 to R310). -/

/-- hstart starts a helper from its record, or gives the status of what stands in the way; hjoin goes on when its selector
is met, and waits else (R267 to R269). The facts of a taken task are those it was queued with (R414). -/
def Spec.HelpersStartAndJoin : Prop :=
  ∀ (s s1 s2 : State) (l : BitVec 4) (d a b : Reg) (r : TaskRec) (f : KernelFacts) (bs : List Byte), s.cur.h = 0 →
    s.quiet →
    (s.readStart (s.x a) = .ok (r, f, bs) s1 → s1.cur = s.cur →
      (∀ v, s1.startStatus (field (s.x b) 0 4) f = .error v → exec (.hstart l d a b) s = .next (s1.wroteLong l d v))
      ∧ ∀ h o, s1.startStatus (field (s.x b) 0 4) f = .ok h → h ≠ 0 → s1.readObligation r = .ok o s2 → s2.cur = s.cur →
        ∃ t k, exec (.hstart l d a b) s = .next t ∧ s2.writesX t d (BitVec.ofNat 64 h) ∧ t.pc = s2.pc + 4
          ∧ (t.hart { core := s.cur.core, h := h }).live = true ∧ (t.hart { core := s.cur.core, h := h }).pc = r.entry
          ∧ (t.hart { core := s.cur.core, h := h }).mode = .u
          ∧ (t.hart { core := s.cur.core, h := h }).get 10 = r.arg
          ∧ (t.hart { core := s.cur.core, h := h }).get 11 = r.key.setWidth 64
          ∧ (t.hart { core := s.cur.core, h := h }).get 12 = (if r.tv then r.ticket.setWidth 64 else 0)
          ∧ (∀ q, q ≠ 10 → q ≠ 11 → q ≠ 12 → (t.hart { core := s.cur.core, h := h }).get q = 0)
          ∧ (t.hart { core := s.cur.core, h := h }).vcfgst = 0
          ∧ (t.hart { core := s.cur.core, h := h }).task = some k ∧ k.obligation = o ∧ k.task.tr = r ∧ t.mem = s2.mem)
    ∧ (∀ k, s.boundAt (s.x a) = some k → s.readStart (s.x a) = .ok (r, f, bs) s1 → f = k.facts)
    ∧ (exec (.hjoin l a) s = .next (if s.myCore.img.joined (field (s.x a) 0 4) then s.passed 4 else s))

/-- hexit marks its helper's task done and retires the helper, whose hardware context is free again; hyield passes the
executing hardware context over until the others that are ready have issued, and completes; qdone marks the task done with its
code once (R270, R271, R275). -/
def Spec.HelpersEndAndYield : Prop :=
  ∀ (s s1 : State) (l : BitVec 4) (a : Reg),
    (s.settled → s.cur.h ≠ 0 → s1 = s.markDone s.cur s.myTag 0 → s1.settled → s1.cur = s.cur →
      exec (.hexit l) s = .next (s1.retireHelper s.cur s1.myTag true))
    ∧ (s.cur.h ≠ 0 → ∃ t, s.retireHelper s.cur s.myTag false = t ∧ (t.hart s.cur).live = false
        ∧ (t.hart s.cur).rays = [] ∧ (t.hart s.cur).pending = s.me.pending ∧ t.myCore.img.mip.getLsbD 17 = true)
    ∧ (s.idle → ∃ t, exec (.hyield l) s = .next t ∧ t.pc = s.pc + 4 ∧ (∀ r, t.x r = s.x r) ∧ s.sameElse t
        ∧ t.me.yield = if s.readyOthers = [] then none else some (s.readyOthers, Config.yieldCc))
    ∧ (s.idle → s.me.task = none → exec (.qdone l a) s = .next (s.passed 4))
    ∧ ∀ k, s.quiet → s.me.task = some k →
        exec (.qdone l a) s
          = .next (if k.task.done then s.passed 4 else (s.markDone s.cur s.myTag (field (s.x a) 0 32)).passed 4)

/-- qput: a bound record's task returns, any other record is put, unless the partition is full, which gives −1, or no core of
the context can run it, which gives −2; qtake takes
the task that its search finds, writes its record and binds it, where the queue's storage of it holds no error, and waits
where there is none; qsteal begins its search at
the sibling's queue and gives −1 where there is none (R272 to R274, R299, R300, R305, R306, R438, R439). -/
def Spec.QueuesGiveAndTake : Prop :=
  ∀ (s s1 s2 : State) (l : BitVec 4) (d a : Reg), s.quiet →
    (∀ t, s.cur.h = 0 → s.boundAt (s.x a) = some t →
      exec (.qput l d a) s = .next ((s.returnTask (s.x a) t).2.wroteLong l d (s.returnTask (s.x a) t).1))
    ∧ (∀ r f bs, (s.cur.h = 0 → s.boundAt (s.x a) = none) → s.readTask (s.x a) = .ok (r, f, bs) s1 →
      (((s1.ctx s1.myTag).map (fun c => c.partFull (dieOf s1.cur.core) (r.cont && s1.cur.h != 0))).getD false = true →
        exec (.qput l d a) s = .next (s1.wroteLong l d (BitVec.allOnes 64)))
      ∧ ∀ q : Option Queue, ((s1.ctx s1.myTag).map (fun c => c.partFull (dieOf s1.cur.core) (r.cont && s1.cur.h != 0))).getD false = false →
        s1.submit s1.myTag (dieOf s1.cur.core) (some (s1.myCore.lcore / 4))
            { newTask r f (s1.putter r).2 (dieOf s1.cur.core) with heldBy := (s1.putter r).1 } = (q, s2) →
        exec (.qput l d a) s = .next (s2.wroteLong l d (match q with
            | some (.quad _ _) => 0 | some (.die _) => 1 | none => BitVec.ofInt 64 (-2))))
    ∧ (∀ pl, s.cur.h = 0 → (s.x a).toNat % 64 = 0 → s.dataPlace .store (s.x a) 64 = .ok pl s1 → s1.cur = s.cur →
      (s1.myImg.qsel = 0 ∨ 4 ≤ s1.myImg.taken.length →
        exec (.qtake l d a) s = .next (s1.wroteLong l d (BitVec.allOnes 64))
          ∧ exec (.qsteal l d a) s = .next (s1.wroteLong l d (BitVec.allOnes 64)))
      ∧ (s1.myImg.qsel ≠ 0 → s1.myImg.taken.length < 4 →
        (s1.search s1.myTag s.cur.core 0 s1.myImg.qsel = none → exec (.qtake l d a) s = .next s1)
        ∧ (s1.search s1.myTag s.cur.core 1 s1.myImg.qsel = none →
            exec (.qsteal l d a) s = .next (s1.wroteLong l d (BitVec.allOnes 64)))
        ∧ ∀ (k : Task) (steal : Bool) (t : State), s1.search s1.myTag s.cur.core (if steal then 1 else 0) s1.myImg.qsel = some k →
            s1.soft.any (CoreCell.isQueued s1.myTag k.seq) = false →
            (s1.badCore.any (CoreCell.isQueued s1.myTag k.seq) = true →
              exec (if steal then .qsteal l d a else .qtake l d a) s = s1.trap 19 0)
            ∧ (s1.badCore.any (CoreCell.isQueued s1.myTag k.seq) = false → s1.writeDwords (s.x a) k.tr.bytes = .ok () s2 → s2.cur = s.cur →
            t = ((s2.unqueue s2.myTag k).onMyImg (fun m => { m with taken := m.taken ++ [{ addr := s.x a, task := k }] })) →
            exec (if steal then .qsteal l d a else .qtake l d a) s = .next (t.wroteLong l d 0))))

/-! Barriers and rings (R276 to R282). -/

/-- What an arrival at a domain of a die or less leaves of the domain: one arrival more, or, with the last, the next phase
(R277). -/
def Spec.ArrivalsCompleteAPhase : Prop :=
  ∀ (s : State) (i : HartId) (tag : Nat) (c : Ctx) (d : Domain), s.ctx tag = some c → d.scope.toNat < 5 →
    ∃ c', (s.arrive i tag d).ctx tag = some c'
      ∧ c'.domainAt d.scope d.inst d.dom = some (if d.count + 1 = d.n then
          { d with count := 0, phase := (d.phase + 1) % 2 ^ 16, doneTick := d.tick } else { d with count := d.count + 1 })

/-- barr arrives once in a phase, and a second arrival is a barrier fault; barw goes on when no arrival is pending, and
waits else; bar arrives and then waits as barw does; a domain that the context does not have is a barrier fault (R276,
R277). -/
def Spec.BarriersArriveAndWait : Prop :=
  ∀ (s s1 : State) (l : BitVec 4) (a : Reg) (scope : BitVec 3) (i : Instr),
    (i = .bar l a scope ∨ i = .barr l a scope ∨ i = .barw l a scope) → s.quiet →
    (s.barDomain scope (s.x a) = none → exec i s = s.trap 48 (BitVec.ofNat 64 (field (s.x a) 0 6 + scope.toNat * 256)))
    ∧ ∀ d, s.barDomain scope (s.x a) = some d →
      (i = .barr l a scope → s.barPending d = true →
        exec i s = s.trap 48 (BitVec.ofNat 64 (field (s.x a) 0 6 + scope.toNat * 256)))
      ∧ (i = .barr l a scope → s.barPending d = false → exec i s = .next ((s.arrive s.cur s.myTag d).passed 4))
      ∧ (i = .barw l a scope → s.barPast d = some s1 → exec i s = .next (s1.passed 4))
      ∧ (i = .barw l a scope → s.barPast d = none → exec i s = .next s)
      ∧ (i = .bar l a scope → s.barPending d = true → ∃ t, exec i s = .next t ∧ t.pc = s.pc ∧ (∀ r, t.x r = s.x r)
          ∧ s.sameElse t)
      ∧ ∀ d1, i = .bar l a scope → s.barPending d = false → s.barStands d = false →
          (s.arrive s.cur s.myTag d).cur = s.cur →
          (s.arrive s.cur s.myTag d).barDomain scope ((s.arrive s.cur s.myTag d).x a) = some d1 →
          ((s.arrive s.cur s.myTag d).barPast d1 = some s1 →
            exec i s = .next ((s1.onMe (fun t => { t with barWait := none })).passed 4))
          ∧ ((s.arrive s.cur s.myTag d).barPast d1 = none → ∃ t, exec i s = .next t ∧ t.pc = (s.arrive s.cur s.myTag d).pc
              ∧ (∀ r, t.x r = (s.arrive s.cur s.myTag d).x r))

/-- rinit gives a ring the fields of its descriptor, with nothing filled; rawait gives the address of the slot at the read
pointer once it is filled; rrel releases that slot and moves the pointer on; a ring that was never initialised, and a
release of a slot that is not filled, is a ring-state fault (R278 to R281). -/
def Spec.RingsFillAndRelease : Prop :=
  ∀ (s s1 : State) (l : BitVec 4) (d a b : Reg) (r : Nat) (bs : List Byte) (g : Ring), s.quiet → r = field (s.x a) 0 4 →
    ((s.x b).toNat % 32 = 0 → localWindow ≤ (s.x b).toNat →
      (s.x b).toNat - localWindow + 32 ≤ s.partition s.cur.core → s.readRecord (s.x b) 32 32 = .ok bs s1 → s1.quiet →
      s1.cur = s.cur →
      ringError bs ((s.x b).toNat - localWindow) (s1.partition s.cur.core) (fun j => s1.myCore.inAnnex s.cur.core j) = none →
      s1.ringBound s1.myTag s1.myCore.lcore s.cur.core r = false →
      ∃ t, exec (.rinit l a b) s = .next t ∧ t.pc = s1.pc + 4 ∧ (∀ q, t.x q = s1.x q)
        ∧ Tab.get? t.myCore.img.rings r = some (ringOf bs ((s.x b).toNat - localWindow) s1.myLaunch)
        ∧ (∀ k, k ≠ r → Tab.get? t.myCore.img.rings k = Tab.get? s1.myCore.img.rings k))
    ∧ (Tab.get? s.myCore.img.rings r = none →
      exec (.rawait l d a) s = s.trap 49 (BitVec.ofNat 64 (r + 32)) ∧ exec (.rrel l a) s = s.trap 49 (BitVec.ofNat 64 (r + 32)))
    ∧ (Tab.get? s.myCore.img.rings r = some g →
      (g.isFilled g.rptr = false →
        exec (.rawait l d a) s = .next s ∧ exec (.rrel l a) s = s.trap 49 (BitVec.ofNat 64 (r + 48)))
      ∧ (g.isFilled g.rptr = true →
        (s.acquireTick true false (Tab.getD g.ticks g.rptr 0) = some s1 →
          exec (.rawait l d a) s
            = .next (s1.wroteLong l d (BitVec.ofNat 64 (localWindow + g.base + g.slotsz * g.rptr))))
        ∧ ∃ t g', exec (.rrel l a) s = .next t ∧ t.pc = s.pc + 4 ∧ (∀ q, t.x q = s.x q)
          ∧ Tab.get? t.myCore.img.rings r = some g' ∧ g'.rptr = (g.rptr + 1) % g.count ∧ g'.isFilled g.rptr = false
          ∧ g'.wptr = g.wptr ∧ g'.fills = g.fills))

/-! The machine. -/

/-- The row of the table that a step of another agent is. -/
def isStepOf (e : Event) (i : Instr) : Prop :=
  match e with
  | .annexSwap h names => i = .annexSwap h names
  | .elementGroupExecute h => i = .elementGroupExecute h
  | .matrixCommandExecute core => i = .matrixCommandExecute core
  | .distributionElement h => i = .distributionElement h
  | .commitReoffer h => i = .commitReoffer h
  | .rayTraversal h slot => i = .rayTraversal h slot
  | .qtakeWake h => i = .qtakeWake h
  | .ownedLineDrain die tick => i = .ownedLineDrain die tick
  | .interrupt core => i = .interrupt core
  | .storePerformed core => i = .storePerformed core
  | .lineWriteback line => i = .lineWriteback line
  | .dirtyLineTimeout line => i = .dirtyLineTimeout line
  | .tickAdvance => i = .tickAdvance
  | .horizonBroadcast => i = .horizonBroadcast
  | .cxlmemRead pa bytes => i = .cxlmemRead pa bytes
  | .cxlmemWrite pa data => i = .cxlmemWrite pa data
  | .podWriteArrival x y z srcTag dest va data => i = .podWriteArrival x y z srcTag dest va data
  | .patternStart core port => i = .patternStart core port
  | .tileDeliver core port => i = .tileDeliver core port
  | .jobStart die quad => i = .jobStart die quad
  | .jobComplete die tag job => i = .jobComplete die tag job
  | .collectiveRound tag group => i = .collectiveRound tag group
  | .engineFaultService die => i = .engineFaultService die
  | .primitiveAccept h => i = .primitiveAccept h
  | .inboxRelease tag pass owner => i = .inboxRelease tag pass owner
  | .commitLogPoll tag pass owner => i = .commitLogPoll tag pass owner
  | .launchDelivery tag launch => i = .launchDelivery tag launch
  | .launchComplete tag launch => i = .launchComplete tag launch
  | .sliceEnd die cluster => i = .sliceEnd die cluster
  | .clusterIdle die cluster => i = .clusterIdle die cluster
  | .contextRunnable tag die => i = .contextRunnable tag die
  | .imageRestore tag image die cluster => i = .imageRestore tag image die cluster
  | .contextFault tag kind die lcore value => i = .contextFault tag kind die lcore value
  | .coreFailed core => i = .coreFailed core
  | .sentinelRun core cls passed => i = .sentinelRun core cls passed
  | .quarantineSentinel core cls passed => i = .quarantineSentinel core cls passed
  | .shadowDrop die => i = .shadowDrop die
  | .shadowSeedChange die seed => i = .shadowSeedChange die seed
  | .hbmScrub die corrected => i = .hbmScrub die corrected
  | .l2Scrub die corrected => i = .l2Scrub die corrected
  | .linkRetry link => i = .linkRetry link
  | .linkDown link => i = .linkDown link
  | .cxlLinkDown => i = .cxlLinkDown
  | .create c => i = .create c
  | .destroy c => i = .destroy c
  | .launch c => i = .launch c
  | .setsched c => i = .setsched c
  | .openPass c => i = .openPass c
  | .closePass c => i = .closePass c
  | .allocDomain c => i = .allocDomain c
  | .freeDomain c => i = .freeDomain c
  | .allocGroup c => i = .allocGroup c
  | .freeGroup c => i = .freeGroup c
  | .map c => i = .map c
  | .unmap c => i = .unmap c
  | .protect c => i = .protect c
  | .page c => i = .page c
  | .notify c => i = .notify c
  | .templateMake c => i = .templateMake c
  | .templateDrop c => i = .templateDrop c
  | .attest c => i = .attest c
  | .fwStage c => i = .fwStage c
  | .lifecycle c => i = .lifecycle c
  | .reset => i = .reset
  | .resync => i = .resync
  | .qen on => i = .qen on
  | .start => i = .start
  | .powercap v => i = .powercap v
  | .registerWrite off v => i = .registerWrite off v
  | .powerOn => i = .powerOn
  | .cxlReset => i = .cxlReset
  | .resetComplete => i = .resetComplete
  | .powerControl draw => i = .powerControl draw
  | .thermalThrottle die temp => i = .thermalThrottle die temp
  | .thermalStop die temp => i = .thermalStop die temp
  | .graphicsRecordExecute h => i = .graphicsRecordExecute h
  | .cxlCacheSnoop pa data => i = .cxlCacheSnoop pa data
  | .dieTemperatureFall die temp => i = .dieTemperatureFall die temp
  | .corrHourEnd => i = .corrHourEnd

/-- What a step does with the outcome of the executing hardware context's issue slot: the slot is over where it has issued, and
another of the core is tried where it waits (R311). -/
def Machine.State.slotOver (s1 : State) (o : Out) : Out :=
  match o with
  | .next t => .next (t.settle s1.cur s1.me)
  | o => o

/-- A step is the step of another agent that is due; else, where a hardware context has its turn, the interrupt that it
takes, or the instruction that its bytes at the pc decode to, or the trap of the fetch; bytes that decode to nothing run as
the illegal instruction; a fetch itself waits for nothing. A selected run at its comparison point is compared first, and a
shadow goes no further (R437). That the step of another agent goes first, and that work inside an element group goes on before
anything issues, is the model's order (logs 6, 7); which instructions are the comparison point, and that a selected run
issues one instruction at a time, is its reading (log 27). -/
def Spec.StepRunsWhatIsDue : Prop :=
  ∀ s : State,
    (∀ e l i, s.agenda = e :: l → isStepOf e i → step s = exec i { s with agenda := l })
    ∧ (s.agenda = [] →
      (∀ s1, s.cycle.turn = (none, s1) → step s = .next s1)
      ∧ ∀ s1 s0, s.cycle.turn = (some s1, s0) →
        (s1.me.inside = true → step s = s1.slotOver (.next (s1.finishGroups s1.cur)))
        ∧ (s1.me.inside = false →
          (∀ tag code, s1.interruptNow = some (tag, code) → step s = .next ((s1.takeInterrupt tag code).settle s1.cur s1.me))
          ∧ (s1.interruptNow = none →
            (∀ bs d s2, s1.fetch = .ok bs s2 → decode bs = .ok d →
              (∀ k, s2.me.task = some k → k.folds = true → s2.me.chain = [] ∧ isOutside d.instr = false) →
              step s = s1.slotOver (exec d.instr { s2 with ir := d.bits }))
            ∧ (∀ bs d s2 k c, s1.fetch = .ok bs s2 → decode bs = .ok d → s2.me.task = some k →
              (k.folds && isOutside d.instr) = true → s2.me.chain = [] →
              c = ({ s2 with ir := d.bits } : State).compareShadow s2.cur s2.myTag →
              step s = s1.slotOver (if k.task.shadow then .next c else exec d.instr c))
            ∧ (∀ bs r s2, s1.fetch = .ok bs s2 → decode bs = .error r →
              (∀ k, s2.me.task = some k → k.folds = true → s2.me.chain = []) →
              step s = s1.slotOver (exec .illegalInstruction { s2 with ir := fetchedBits bs }))
            ∧ (∀ bs s2 k b, s1.fetch = .ok bs s2 → s2.me.task = some k → k.folds = true → s2.me.chain ≠ [] →
              (∀ d, decode bs = .ok d → b = d.bits) → (∀ r, decode bs = .error r → b = fetchedBits bs) →
              step s = s1.slotOver (({ s2 with ir := b } : State).stall))
            ∧ (∀ t s2, s1.fetch = .trap t s2 → step s = s1.slotOver (s2.trap t.cause t.tval))
            ∧ (∀ s2, s1.fetch ≠ .wait s2))))

/-- In M-mode on a core that serves no context, with nothing of memory held elsewhere, a fetch gives the bytes of memory
at the pc: two, or four where the low two bits of the first are ones (R81, R82, R118). -/
def Spec.FetchReadsTheBytesAtThePc : Prop :=
  ∀ s : State, s.tagOf s.cur.core = none → s.me.mode = .m → s.myCore.icache = [] → s.pc.toNat % 2 = 0 →
    s.pc.toNat + 4 ≤ 2 ^ 42 → (∀ d ln, Tab.get? (s.die d).owned ln = none) → s.bad = [] → s.errorFree →
    ∃ s2, s.fetch = .ok (Memory.read s.mem s.pc.toNat
        (if (Memory.get s.mem s.pc.toNat).extractLsb' 0 2 = 3 then 4 else 2)) s2
      ∧ s2.me = s.me ∧ s2.mem = s.mem ∧ s2.cur = s.cur ∧ s2.agenda = s.agenda

/-! Steps of other agents: units (R30, R39, R45, R196, R237, R241, R256, R290, R318). -/

/-- What a unit's move of a flight leaves: the flight further on, or gone with its window; `also` is what the unit changes
beside it (R39, R42, R45). -/
def movesOn (e : Instr) (g : Flight → State → Move) (f : Flight) (s s1 : State) (also : State → State) : Prop :=
  (∀ f1 t, g f s1 = .more f1 t → exec e s = .next (also (t.onMe (fun h => h.setFlight f1))))
  ∧ (∀ t, g f s1 = .over t → exec e s = .next (also (t.onMe (fun h => (h.endFlight f.id).endWindow t.hold f.id))))

/-- What a unit's trap of the oldest flight leaves: the flights recorded and the trap taken at the flight's own address (R45,
R49). -/
def trapsAt (e : Instr) (g : Flight → State → Move) (f : Flight) (s s1 : State) (also : State → State) : Prop :=
  ∀ tr f1 t, g f s1 = .trap tr f1 t → exec e s = .next (also ((t.onMe (fun h => h.setFlight f1)).takeAt tr f1.pc))

/-- What is left of a trap that may not be taken yet: the flight waits before the element that faults (R45, R49). -/
def holdsTrap (e : Instr) (g : Flight → State → Move) (f : Flight) (s s1 : State) (also : State → State) : Prop :=
  ∀ tr f1 t, g f s1 = .trap tr f1 t → exec e s = .next (also (t.onMe (fun h => h.setFlight (f.keep f1))))

/-- Each unit moves the oldest flight of a hardware context where it is one of its own; the sequencer goes on to a younger one
that stands apart from it where the oldest waits or is another unit's, and the other units wait; the condenser takes the
hardware contexts of its core in turn; a unit without a flight of its own does nothing. A trap is taken for the oldest flight,
where no younger one stands inside a group; a younger one's waits until it is the oldest (R39, R45, R49, R237, R241, R256).
Which flight a unit moves first, and that the others wait, is the model's choice (log 7). -/
def Spec.UnitsMoveTheFlightsOfTheirKind : Prop :=
  (∀ (s s1 : State) (h : HartId) (f : Flight) (l : List Flight), s1 = { s with cur := h } → s1.me.chain = f :: l →
    ∀ g, f.idx = 0 ∨ f.idx < f.vl →
      (seqMove f.instr = some g →
        movesOn (.elementGroupExecute h) g f s s1 id
        ∧ (l.any Flight.inside = false → trapsAt (.elementGroupExecute h) g f s s1 id)
        ∧ (∀ t, l = [] → g f s1 = .wait t → exec (.elementGroupExecute h) s = .next t)
        ∧ ∀ t f2 l2 g2, g f s1 = .wait t → l = f2 :: l2 → seqMove f2.instr = some g2 → f2.apart f = true →
            f2.idx = 0 ∨ f2.idx < f2.vl →
            movesOn (.elementGroupExecute h) g2 f2 s s1 id)
      ∧ (distUnitMove f.instr = some g → h.h < 11 →
          (∀ k, k < 11 → k ≠ h.h → ∀ q ∈ (s.hart { core := h.core, h := k }).chain, distUnitMove q.instr = none) →
          movesOn (.distributionElement h) g f s s1 (fun t => t.onImg h.core (fun m => { m with lastDist := h.h }))
          ∧ (l.any Flight.inside = false →
              trapsAt (.distributionElement h) g f s s1 (fun t => t.onImg h.core (fun m => { m with lastDist := h.h })))
          ∧ ∀ t, g f s1 = .wait t → exec (.distributionElement h) s = .next { t with cur := s.cur })
      ∧ (graphicsMove f.instr = some g →
          movesOn (.graphicsRecordExecute h) g f s s1 id ∧ movesOn (.commitReoffer h) g f s s1 id
          ∧ (l.any Flight.inside = false →
              trapsAt (.graphicsRecordExecute h) g f s s1 id ∧ trapsAt (.commitReoffer h) g f s s1 id)
          ∧ (l.any Flight.inside = true →
              holdsTrap (.graphicsRecordExecute h) g f s s1 id ∧ holdsTrap (.commitReoffer h) g f s s1 id)
          ∧ ∀ t, g f s1 = .wait t →
              exec (.graphicsRecordExecute h) s = .next t ∧ exec (.commitReoffer h) s = .next t)
      ∧ (∀ f2 l2 g2, seqMove f.instr = none → l = f2 :: l2 → seqMove f2.instr = some g2 → f2.apart f = true →
          f2.idx = 0 ∨ f2.idx < f2.vl →
          movesOn (.elementGroupExecute h) g2 f2 s s1 id
          ∧ (l2 = [] → holdsTrap (.elementGroupExecute h) g2 f2 s s1 id)))
  ∧ ∀ (s : State) (h : HartId),
    ((∀ q ∈ (s.hart h).chain, seqMove q.instr = none) → exec (.elementGroupExecute h) s = .next { s with cur := h })
    ∧ ((∀ q ∈ (s.hart h).chain, graphicsMove q.instr = none) →
        exec (.graphicsRecordExecute h) s = .next { s with cur := h } ∧ exec (.commitReoffer h) s = .next { s with cur := h })
    ∧ ((∀ k, k < 11 → ∀ q ∈ (s.hart { core := h.core, h := k }).chain, distUnitMove q.instr = none) →
        exec (.distributionElement h) s = .next s)

/-- An annex swap brings the registers it names into the pool of a hardware context with nothing in flight, within its
slots, and changes no register's value (R30, R32). -/
def Spec.AnnexSwapsKeepValues : Prop :=
  ∀ (s : State) (h : HartId) (names : List RegName), cfgAnx (s.hart h).vcfgst = true → (s.hart h).chain = [] →
    slotsOf (names.filter RegName.isVd).dedup ≤ cfgSlots (s.hart h).vcfgst → s.annexBad (s.hart h) = none →
    ∃ t, exec (.annexSwap h names) s = .next t ∧ (∀ r ∈ names, r.isVd = true → r ∈ (t.hart h).resident)
      ∧ ((s.hart h).resident.Nodup → slotsOf (t.hart h).resident ≤ cfgSlots (s.hart h).vcfgst)
      ∧ (t.hart h).v = (s.hart h).v ∧ (t.hart h).d = (s.hart h).d ∧ (t.hart h).dtag = (s.hart h).dtag
      ∧ (t.hart h).x = (s.hart h).x ∧ (t.hart h).pc = (s.hart h).pc ∧ t.mem = s.mem ∧ ∀ j, j ≠ h → t.hart j = s.hart j

/-- A command has left a core's queue: those that stand in mwait have one less before them (R209). -/
def counted (core : Nat) (s : State) : State :=
  if (s.img core).mwaits.isEmpty then s
  else s.onImg core (fun m => { m with mwaits := m.mwaits.map (fun w => (w.1, w.2.1, w.2.2 - 1)) })

/-- The matrix unit takes the oldest command of a core's queue and performs it; mzero and mrelease leave the tile reading
zero; with no command it does nothing, and a command that meets uncorrectable data, or fails there, is R214's (R196, R209,
R214, R438). That it is the oldest is the model's order (log 35). -/
def Spec.MatrixCommandsRunInOrder : Prop :=
  ∀ (s s0 s1 s2 : State) (core : Nat) (m : MatCmd) (l : List MatCmd),
    ((s.img core).mq = [] → exec (.matrixCommandExecute core) s = .next s)
    ∧ ((s.img core).mq = m :: l → s0 = s.onImg core (fun i => { i with mq := l }) →
      (s.badCore.any (s0.matMeets core m) = true → exec (.matrixCommandExecute core) s = .next (counted core (s0.matFail core m)))
      ∧ (s.badCore.any (s0.matMeets core m) = false → s1 = s0.correct core (s0.matMeets core m) →
        (s1.matPerform core m = some s2 → exec (.matrixCommandExecute core) s = .next (counted core s2))
        ∧ (s1.matPerform core m = none → exec (.matrixCommandExecute core) s = .next (counted core (s1.matFail core m))))
      ∧ ∀ k t, m.instr = .mzero k t ∨ m.instr = .mrelease k t → s.badCore = [] → s.soft = [] →
        ∃ s3, exec (.matrixCommandExecute core) s = .next s3 ∧ (s3.img core).mq = l
          ∧ (∀ e ∈ (s3.img core).acc, e.1 / 64 ≠ t.val)
          ∧ (∀ e, e.1 / 64 ≠ t.val → (e ∈ (s3.img core).acc ↔ e ∈ (s.img core).acc)))

/-- An interrupt that is due is taken by the control context: its cause with the top bit set, 0 as value, the pc of the
first instruction not issued, and the pc at stvec in S-mode with SIE clear; with none due nothing happens, and a flight that
stands inside a group goes on first (R45, R290; the order is the model's, log 7). -/
def Spec.InterruptsEnterTheHandler : Prop :=
  ∀ (s : State) (core tag code : Nat) (c : Ctx), s.tagOf core = some tag →
    (s.dueInterrupt core = none → exec (.interrupt core) s = .next s)
    ∧ (s.dueInterrupt core = some code → (s.hart { core := core, h := 0 }).inside = true →
      exec (.interrupt core) s
        = .next (({ s with cur := { core := core, h := 0 } } : State).finishGroups { core := core, h := 0 }))
    ∧ (s.dueInterrupt core = some code → (s.hart { core := core, h := 0 }).inside = false → s.ctx tag = some c →
      (s.img core).stvec ≠ c.rt →
      ∃ t h0 h1, exec (.interrupt core) s = .next t ∧ h0 = s.hart { core := core, h := 0 }
        ∧ h1 = t.hart { core := core, h := 0 } ∧ h1.mode = .s ∧ h1.pc = (s.img core).stvec &&& ~~~3#64 ∧ h1.sepc = h0.pc
        ∧ h1.scause = BitVec.ofNat 64 (2 ^ 63 + code) ∧ h1.stval = 0 ∧ h1.mstatus.getLsbD stSIE = false
        ∧ h1.mstatus.getLsbD stSPIE = h0.mstatus.getLsbD stSIE ∧ h1.mstatus.getLsbD stSPP = (h0.mode != .u)
        ∧ h1.x = h0.x ∧ h1.chain = [] ∧ h1.resv = none ∧ t.mem = s.mem)

/-- The oldest pending store of a core is performed: its bytes, and no others, change in the scratchpad or the memory it names;
a store that must wait stays, and with none pending nothing happens (R315, R318, R326, R328). -/
def Spec.StoresArePerformedInOrder : Prop :=
  ∀ (s : State) (core : Nat) (e : PendStore) (l : List PendStore),
    ((s.img core).stores = [] → exec (.storePerformed core) s = .next s)
    ∧ ((s.img core).stores = e :: l →
      (∀ k off, e.loc = .scratch k off →
        ∃ t, exec (.storePerformed core) s = .next t ∧ (t.img core).stores = l ∧ t.mem = s.mem
          ∧ ∀ c a, t.scratchByte c a
              = if c = k ∧ off ≤ a ∧ a < off + e.data.length then e.data.getD (a - off) 0 else s.scratchByte c a)
      ∧ (∀ pa s1, e.loc = .phys pa → s.coherent → pa % 128 + e.data.length ≤ 128 →
        s.writePlace { core := core, h := e.h } e.place e.data = .ok () s1 →
        ∃ t, exec (.storePerformed core) s = .next t ∧ (t.img core).stores = l
          ∧ (∀ c a, t.scratchByte c a = s.scratchByte c a)
          ∧ ∀ a, t.byteAt a = if pa ≤ a ∧ a < pa + e.data.length then e.data.getD (a - pa) 0 else s.byteAt a)
      ∧ (∀ s1, s.writePlace { core := core, h := e.h } e.place e.data = .wait s1 →
          exec (.storePerformed core) s = .next s1 ∧ (s1.img core).stores = e :: l))

/-! Memory (R322, R326 to R329, R332, R335, R338, R339, R438 to R440). -/

/-- A line that its owner writes back is at home again with the owner's ticks, and with its bytes where it was dirty;
uncorrectable dirty data goes nowhere, and its context faults; the timeout writes back a line dirty for 16,384 cc (R327,
R438 to R440). -/
def Spec.WriteBacksGiveLinesHome : Prop :=
  ∀ (s : State) (d ln : Nat) (o : Owned),
    ((s.homeLine ln).owner = none →
      exec (.lineWriteback ln) s = .next s ∧ exec (.dirtyLineTimeout ln) s = .next s)
    ∧ ((s.homeLine ln).owner = some d → Tab.get? (s.die d).owned ln = some o →
      ((o.dirty && s.bad.contains ln) = false →
        ∃ t, exec (.lineWriteback ln) s = .next t ∧ Tab.get? (t.die d).owned ln = none ∧ (t.homeLine ln).owner = none
          ∧ (t.homeLine ln).wts = o.wts ∧ (t.homeLine ln).due = tickMax (s.homeLine ln).due o.wts
          ∧ (o.dirty = true → ∀ j, j < 128 → Memory.get t.mem (ln * 128 + j) = lineByte o.val j)
          ∧ (o.dirty = false → t.mem = s.mem)
          ∧ ∀ a, a < ln * 128 ∨ ln * 128 + 128 ≤ a → Memory.get t.mem a = Memory.get s.mem a)
      ∧ ((o.dirty && s.bad.contains ln) = true →
        ∃ t, exec (.lineWriteback ln) s = .next t ∧ Tab.get? (t.die d).owned ln = none ∧ t.mem = s.mem
          ∧ t.agenda = s.agenda ++ [.contextFault o.tag 1 d 0xFFFFF (BitVec.ofNat 64 (ln * 128))])
      ∧ exec (.dirtyLineTimeout ln) s
          = if o.dirty = true ∧ o.since + 16384 ≤ s.cc then exec (.lineWriteback ln) s else .next s)

/-- The drain of a die leaves it no dirty line with a write at or before the tick (R332). -/
def Spec.DrainsWriteBackWhatIsOld : Prop :=
  ∀ (s : State) (die : Nat) (tick : Tick), ∃ t, exec (.ownedLineDrain die tick) s = .next t
    ∧ ∀ ln o, Tab.get? (t.die die).owned ln = some o → o.dirty = true → tickLe o.wts tick = false

/-- Every core's tick advances by one; the new horizon is the old one or a report within 8,192 of it, and no such report
lies beyond it (R322, R328). -/
def Spec.TicksAdvance : Prop :=
  ∀ s : State,
    (∃ t, exec .tickAdvance s = .next t ∧ t = { s with cores := t.cores }
      ∧ ∀ c, Tab.get? t.cores c = (Tab.get? s.cores c).map (fun k => { k with ptick := k.ptick + 1 }))
    ∧ ∃ t, exec .horizonBroadcast s = .next t ∧ (t.horizon = s.horizon ∨ t.horizon ∈ s.reports)
      ∧ (t.horizon - s.horizon).toNat ≤ 8192
      ∧ ∀ r ∈ s.reports, (r - s.horizon).toNat ≤ 8192 → (r - s.horizon).toNat ≤ (t.horizon - s.horizon).toNat

/-- A read of the host over CXL.mem returns the bytes of device memory, and a write replaces them, once the module has
started; before that a read is poison and a write is dropped (R339, R446). Stated where no die owns a line. -/
def Spec.HostAccessesReachMemory : Prop :=
  ∀ (s : State) (pa n : Nat) (data : List Byte), (∀ ln, (s.homeLine ln).owner = none) →
    (s.mgmt.started = false →
      (∃ t, exec (.cxlmemRead pa n) s = .next t ∧ t.hostReply = none ∧ t.mem = s.mem)
      ∧ exec (.cxlmemWrite pa data) s = .next s)
    ∧ (s.mgmt.started = true →
      (pa + n ≤ 2 ^ 42 → s.bad = [] →
        ∃ t, exec (.cxlmemRead pa n) s = .next t ∧ t.hostReply = some (Memory.read s.mem pa n) ∧ t.mem = s.mem)
      ∧ (pa + data.length ≤ 2 ^ 42 →
        ∃ t, exec (.cxlmemWrite pa data) s = .next t ∧ t.mem = Memory.write s.mem pa data))

/-- A write from another module is performed by the pod-port agent where a granted remote port leads back to its sender,
and dropped else; a page fault that it meets is serviced and the write made after it, one that cannot be serviced drops
it, and what would go too far beyond the horizon waits (R328, R335, R346, R397); one that is bound for another module leaves
by the port that this module's map gives (R449); a host access to a line that the I/O die holds takes the line from it, and a
host's store is performed there (R338). That the fault is serviced on die 0 and that a write with no port left is dropped is
the model's choice (log 56), and the privilege of an engine's access its reading (log 22). -/
def Spec.OutsideAccessesArrive : Prop :=
  ∀ (s : State) (x y z srcTag tag pa : Nat) (dest : PodDest) (there : Nat × Nat × Nat) (va : Word) (data : List Byte)
    (i : Instr), i = .podWriteArrival x y z srcTag dest va data → there = (dest.x, dest.y, dest.z) → tag = dest.tag →
    (s.podmap.isSome = true → there ≠ s.selfCoord → ∀ w : PodWrite,
      w = { port := 0, src := (x, y, z), srcTag := srcTag, x := dest.x, y := dest.y, z := dest.z, tag := tag, va := va,
            data := data } →
      (s.portToward (fun _ => true) there = none → exec i s = .next s)
      ∧ ∀ p, s.portToward (fun _ => true) there = some p → exec i s = .next { s with podOut := s.podOut ++ [{ w with port := p }] })
    ∧ (s.podmap = none ∨ there = s.selfCoord →
      (s.ctx tag = none → exec i s = .next s)
      ∧ ∀ c, s.ctx tag = some c →
        (c.routes.any (fun r => r.granted && r.remote && r.x == x && r.y == y && r.z == z && r.tag == srcTag) = false →
          exec i s = .next s)
        ∧ (c.routes.any (fun r => r.granted && r.remote && r.x == x && r.y == y && r.z == z && r.tag == srcTag) = true →
          (∀ p s1, s.engineStop tag .store va.toNat data.length = none →
            s.engineHome 0 tag s.podTick va.toNat data = some (p, s1) →
            exec i s = .next (if s.mayJump s.podTick p then { s1 with podTick := p }
              else s.defer tag (.podWriteArrival x y z srcTag dest va data)))
          ∧ (s.engineStop tag .store va.toNat data.length = some .dead → exec i s = .next s)
          ∧ ∀ a s0 s1 r, s.engineStop tag .store va.toNat data.length = some (.page a) → s.quietAt tag a = .ok () s0 →
            s0.service tag .store a enginePriv 0 = (r, s1) →
            exec i s
              = .next (if r = .ok then s1.defer tag (.podWriteArrival x y z srcTag dest va data) else s1)))
    ∧ (2 ^ 55 ≤ pa → pa + data.length ≤ 2 ^ 56 → pa < 2 ^ 56 →
      ∃ t, exec (.cxlCacheSnoop pa data) s = .next t ∧ t.mem = Memory.write s.mem pa data ∧ pa / 128 ∉ t.hostCache)

/-! Engines (R284 to R288, R340 to R352, R392). -/

/-- The pattern of a port, of a context and a logical core, that PATTERN_START would start (R340). -/
def startable (s : State) (die port : Nat) (k : Nat × Nat) : Option Pattern :=
  ((s.die die).portQueue k.1 k.2 port).find? (s.mayStart die)

/-- The pattern of a port of which TILE_DELIVER would deliver a tile (R343, R352). -/
def deliverable (s : State) (die port : Nat) (k : Nat × Nat) : Option Pattern :=
  ((s.die die).portQueue k.1 k.2 port).find? (fun p =>
    p.running && s.residentOn p.tag die && !s.isParked die p.tag (.pattern p.lcore p.port))

/-- PATTERN_START and TILE_DELIVER act on each of the ports of a physical core in turn: those of the patterns whose binder
lies there, or lay there last (R340). -/
def Spec.PortsMoveApart : Prop :=
  ∀ (s : State) (core port die : Nat), die = dieOf core →
    exec (.patternStart core port) s = .next ((s.portsAt core port).foldl (fun s k => s.startPort die port k) s)
    ∧ exec (.tileDeliver core port) s = .next ((s.portsAt core port).foldl (fun s k => s.deliverPort die port k) s)
    ∧ (s.portsAt core port).Nodup
    ∧ ∀ k, k ∈ s.portsAt core port ↔
        ∃ p ∈ (s.die die).patterns, p.port = port ∧ s.portCore p.tag p.lcore = core ∧ k = (p.tag, p.lcore)

/-- A pattern of a fabric port that may start runs, and its first tile is due; one whose ring was never initialised ends
with RING_UNSET; with none, nothing happens (R340, R341). -/
def Spec.PatternsStart : Prop :=
  ∀ (s : State) (die port : Nat) (k : Nat × Nat),
    (startable s die port k = none → s.startPort die port k = s)
    ∧ ∀ p, startable s die port k = some p →
      (port < 16 ∨ (∃ c g, s.targetRing p = some (c, some g)) →
        (s.startPort die port k).mem = s.mem
          ∧ ((s.startPort die port k).die die).patterns
              = (s.die die).patterns.map (fun q => if q.num = p.num then { p with running := true } else q)
          ∧ (s.startPort die port k).agenda = s.agenda ++ [.tileDeliver (s.portCore k.1 k.2) port])
      ∧ (16 ≤ port → (∃ c, s.targetRing p = some (c, none)) → s.startPort die port k = s.endPattern die p jobUNSET)
      ∧ (16 ≤ port → s.targetRing p = none → s.startPort die port k = s)

/-- An element outside its tensor is the fill value, without an access; one inside is read at the sum of its coordinates times
the strides (R342). At a local port elements are written at the tile's places in the destination, in order; one misaligned
there cannot be made (R345, R346). -/
def Spec.ElementsOfATile : Prop :=
  ∀ (s : State) (die n a k : Nat) (p : Pattern),
    (p.inside n = false → s.readElem die p n = .ok (bytesLE p.size p.fill.toNat, false) p.tick s)
    ∧ (p.inside n = true → (p.addr n).toNat % p.size = 0 → s.jobOf die p = none → ∀ bs q s1,
        s.engRead die p.tag (.pattern p.lcore p.port) p.tick (p.addr n).toNat p.size = .ok bs q s1 →
        s.readElem die p n = .ok (bs, false) q s1)
    ∧ (p.inside n = true → (p.addr n).toNat % p.size ≠ 0 → s.readElem die p n = .dead s)
    ∧ (s.jobOf die p = none → a + (p.elem + 1) * p.size ≤ 2 ^ 64 → 0 < p.size →
      ((a + p.elem * p.size) % p.size ≠ 0 → s.writeTile die a (k + 1) p = .dead p s)
      ∧ ((a + p.elem * p.size) % p.size = 0 → ∀ q s1,
        s.engWrite die p.tag (.pattern p.lcore p.port) p.tick (a + p.elem * p.size) ((p.buf.drop (p.elem * p.size)).take p.size)
          = .ok () q s1 →
        s.writeTile die a (k + 1) p = s1.writeTile die a k { p with elem := p.elem + 1, tick := q }))

/-- A tile fills its ring's write slot: its bytes, one more fill, and the write pointer moved on, in the descriptor too; no
other ring or byte changes (R278, R279, R344). -/
def Spec.FillsGoToTheWriteSlot : Prop :=
  ∀ (s : State) (c r : Nat) (g : Ring) (bs : List Byte) (tick : Tick),
    ∃ g', Tab.get? ((s.fillSlot c r g bs tick).img c).rings r = some g' ∧ g'.wptr = (g.wptr + 1) % g.count
      ∧ (g.filled g.wptr = g.released g.wptr → g'.isFilled g.wptr = true) ∧ g'.rptr = g.rptr ∧ Tab.get? g'.ticks g.wptr = some tick
      ∧ (∀ k, k ≠ r → Tab.get? ((s.fillSlot c r g bs tick).img c).rings k = Tab.get? (s.img c).rings k)
      ∧ natLE (Memory.read ((s.fillSlot c r g bs tick).img c).scratch (g.desc + 8) 2) = g'.wptr % 2 ^ 16
      ∧ ∀ a, a < g.desc + 8 ∨ g.desc + 12 ≤ a → (s.fillSlot c r g bs tick).scratchByte c a
          = if g.base + g.slotsz * g.wptr ≤ a ∧ a < g.base + g.slotsz * g.wptr + bs.length then
              bs.getD (a - (g.base + g.slotsz * g.wptr)) 0
            else s.scratchByte c a

/-- A tile of a running pattern is read and goes to its ring, whose slot must be free, or to memory; what is done stays where
it waits; a fault ends the pattern FAULTED, a ring that is gone RING_UNSET; progress that is due is written first
(R328, R343 to R346). -/
def Spec.TilesAreDelivered : Prop :=
  ∀ (s : State) (die port : Nat) (k : Nat × Nat),
    (deliverable s die port k = none → s.deliverPort die port k = s)
    ∧ ∀ p : Pattern, deliverable s die port k = some p →
      (∀ status, p.ending = some status → s.deliverPort die port k = (s.endPattern die p status))
      ∧ (p.ending = none → p.posting = true → s.deliverPort die port k = (s.postTile die p))
      ∧ (p.ending = none → p.posting = false → ∀ len first n, first = p.next * len → n = min len (p.total - first) →
        (∀ c g, 16 ≤ p.port → s.targetRing p = some (c, some g) → len = g.slotsz / p.size →
          (g.room = none → s.deliverPort die port k = s)
          ∧ (g.room.isSome = true →
            (∀ p1 s1, s.readTile die first (n - p.buf.length / p.size) p = .ok p1 s1 →
              s.deliverPort die port k = ((s1.fillSlot c (p.port - 16) g p1.buf p1.tick).tileDone die p1))
            ∧ (∀ p1 s1, s.readTile die first (n - p.buf.length / p.size) p = .dead p1 s1 →
              s.deliverPort die port k = (s1.endPattern die p1 jobFAULTED))
            ∧ (∀ p1 s1, s.readTile die first (n - p.buf.length / p.size) p = .wait p1 s1 →
              s.deliverPort die port k = (s1.keepPattern die p1))))
        ∧ (∀ p1 p2 s1 s2, p.port < 8 → len = 4096 / p.size →
            s.readTile die first (n - p.buf.length / p.size) p = .ok p1 s1 →
            s1.writeTile die ((p.dst.toNat + first * p.size) % 2 ^ 64) (n - p1.elem) p1 = .ok p2 s2 →
            s.deliverPort die port k = (s2.tileDone die p2)))
      ∧ (p.ending = none → p.posting = false → 16 ≤ p.port →
        (∀ c, s.targetRing p = some (c, none) → s.deliverPort die port k = (s.endPattern die p jobUNSET))
        ∧ (s.targetRing p = none → s.deliverPort die port k = s))
      ∧ (∀ t s1, s.donePost die p.tag (.pattern p.lcore p.port) p.tick p.scope p.done (BitVec.ofNat 64 (p.bytes % 2 ^ 48))
            = .ok () t s1 → p.total * p.size ≤ p.bytes →
          s.postTile die p = s1.endPattern die { p with posting := false, tick := t } (if p.regionErr then 1 else 0))

/-- A streamer goes on with a job that stands, or takes the nearest ready job; one that is over leaves the table, and its tick
is kept (R287, R349, R350). -/
def Spec.JobsStartAndComplete : Prop :=
  ∀ (s : State) (die quad tag : Nat) (num : Word),
    (∀ j, s.standingJob die = some j → exec (.jobStart die quad) s = .next (s.runJob die j))
    ∧ (s.standingJob die = none →
      (s.nextJobFor die quad = none → exec (.jobStart die quad) s = .next s)
      ∧ ∀ j, s.nextJobFor die quad = some j →
        j ∈ (s.die die).jobs ∧ s.jobReady die j = true ∧ j.op ≠ 3
        ∧ (∀ k r q, k ∈ (s.die die).jobs → s.jobReady die k = true → k.op ≠ 3 → k.reach quad = some r →
            j.reach quad = some q → q ≤ 2 → r ≤ 2 → q ≤ r)
        ∧ exec (.jobStart die quad) s = .next (s.startJob die quad j))
    ∧ (∀ j, (s.die die).jobs.find? (fun j => j.tag == tag && j.num == num.toNat) = some j →
      (∀ q s1 c, j.running = true → j.op < 2 → j.performed = true → j.ending = none → s.residentOn tag die = true →
        s.isParked die tag (.job j.num) = false →
        s.donePost die j.tag (.job j.num) j.tick j.scope j.done (doneWord 0) = .ok () q s1 → s1.ctx tag = some c →
        ∃ t c', exec (.jobComplete die tag num) s = .next t
          ∧ (∀ k ∈ (t.die die).jobs, ¬(k.tag = tag ∧ k.num = num.toNat))
          ∧ t.ctx tag = some c' ∧ Tab.get? c'.jobDone num.toNat = some q)
      ∧ (j.outcome = none ∨ s.residentOn tag die = false ∨ s.isParked die tag (.job j.num) = true →
        exec (.jobComplete die tag num) s = .next s)
      ∧ (j.ending = none → ¬(j.running = true ∧ j.op < 2 ∧ j.performed = true) → j.outcome = none))

/-- A collective's round moves when every member has submitted it and is ready, and waits else; members that disagree end with
GROUP_MISMATCH (R288, R351). That one with a misaligned element ends FAULTED before any of it moves is the model's reading
(log 75). -/
def Spec.RoundsWaitForTheirMembers : Prop :=
  ∀ (s : State) (tag group : Nat) (c : Ctx) (g : Group),
    (s.ctx tag = none → exec (.collectiveRound tag group) s = .next s)
    ∧ (s.ctx tag = some c → Tab.get? c.groups group = none → exec (.collectiveRound tag group) s = .next s)
    ∧ (s.ctx tag = some c → Tab.get? c.groups group = some g →
      ((s.roundJobs tag group g.rounds).length ≠ g.members.length
          ∨ (∃ m ∈ s.roundJobs tag group g.rounds, s.jobReady m.1 m.2 = false ∨ s.isParked m.1 tag (.job m.2.num) = true) →
        exec (.collectiveRound tag group) s = .next s)
      ∧ ((s.roundJobs tag group g.rounds).length = g.members.length →
        (∀ m ∈ s.roundJobs tag group g.rounds,
          s.jobReady m.1 m.2 = true ∧ s.isParked m.1 tag (.job m.2.num) = false) →
        (mismatched (s.roundJobs tag group g.rounds) = true →
          exec (.collectiveRound tag group) s
            = .next (s.endRound tag (s.roundJobs tag group g.rounds) (fun _ => jobMISMATCH)))
        ∧ (mismatched (s.roundJobs tag group g.rounds) = false →
          (s.roundJobs tag group g.rounds).any (fun m => m.2.misaligned) = true →
          exec (.collectiveRound tag group) s
            = .next (s.endRound tag (s.roundJobs tag group g.rounds) (fun _ => jobFAULTED)))
        ∧ (mismatched (s.roundJobs tag group g.rounds) = false →
          (s.roundJobs tag group g.rounds).any (fun m => m.2.misaligned) = false →
          exec (.collectiveRound tag group) s = .next (s.runRound tag (s.roundJobs tag group g.rounds)))))

/-- A copy reads read region 0 by lines, then writes each byte at its offset of write region 0; a fill writes byte o mod 8 of
its pattern at each offset o of each write region; a fault that cannot be serviced ends it FAULTED (R285, R347). -/
def Spec.JobsMoveTheirBytes : Prop :=
  (∀ (j : Job) (r : Region) (l : List Region), j.reads = r :: l → j.image = [] →
    (∀ a, (∃ e ∈ j.source, e.1 ≤ a ∧ a < e.1 + e.2) ↔ r.base.toNat ≤ a ∧ a < r.base.toNat + r.len)
    ∧ ∀ e ∈ j.source, 0 < e.2 ∧ (e.1 + e.2 - 1) / 128 = e.1 / 128)
  ∧ (∀ (j : Job), j.next = 0 →
    (∀ a o, (∃ e ∈ j.target, e.1 ≤ a ∧ a < e.1 + e.2.1 ∧ o = e.2.2 + (a - e.1)) ↔
      ∃ r ∈ (if j.op = 0 then j.writes.take 1 else j.writes), r.base.toNat ≤ a ∧ a < r.base.toNat + r.len ∧ o = a - r.base.toNat)
    ∧ ∀ e ∈ j.target, 0 < e.2.1 ∧ (e.1 + e.2.1 - 1) / 128 = e.1 / 128)
  ∧ (∀ (j : Job) (off n k : Nat), k < n →
    (j.op = 0 → (j.data off n)[k]? = j.image[off + k]?)
    ∧ (j.op = 1 → (j.data off n)[k]? = some (j.param.extractLsb' (8 * ((off + k) % 8)) 8)))
  ∧ (∀ (s s1 : State) (die : Nat) (j : Job) (e : Nat × Nat) (l : List (Nat × Nat)) (bs : List Byte) (t : Tick),
    s.engRead die j.tag (.job j.num) j.tick e.1 e.2 = .ok bs t s1 →
      jobRead die j (e :: l) s = jobRead die { j with image := j.image ++ bs, tick := t } l s1)
  ∧ (∀ (s s1 : State) (die : Nat) (j : Job) (e : Nat × Nat × Nat) (l : List (Nat × Nat × Nat)) (u : Unit) (t : Tick),
    s.engWrite die j.tag (.job j.num) j.tick e.1 (j.data e.2.2 e.2.1) = .ok u t s1 →
      jobWrite die Job.data j (e :: l) s = jobWrite die Job.data { j with next := j.next + 1, tick := t } l s1)
  ∧ ∀ (s s1 s2 : State) (die : Nat) (j j1 j2 : Job),
    (j.op = 0 → jobRead die j j.source s = .done j1 s1) → (j.op = 1 → j1 = j ∧ s1 = s) → j.op < 2 →
    (jobWrite die Job.data j1 j1.target s1 = .done j2 s2 →
      s.runJob die j = (s2.onDie die (fun d => d.setJob j2)).post (.jobComplete die j2.tag (BitVec.ofNat 64 j2.num)))
    ∧ (jobWrite die Job.data j1 j1.target s1 = .dead j2 s2 →
      s.runJob die j = (s2.onDie die (fun d => d.setJob j2)).finishJob die j2.tag j2.num jobFAULTED j2.tick)

/-- A collective combines its members' elements in ascending rank order, and gives each member all of them, its rank's part,
or every input; its round ends when all is written, or FAULTED (R288, R351). -/
def Spec.CollectivesCombineTheirInputs : Prop :=
  (∀ (c : Collective) (inputs : List (List Byte)) (rank e part : Nat), collectiveFmt c.fmt = true → part = c.count / inputs.length →
    (c.kind = 0 → (collectiveOutput c inputs rank).length = c.count * c.size
      ∧ (e < c.count → at_ (collectiveOutput c inputs rank) (e * c.size) c.size
          = reduceElem c (inputs.map (fun b => at_ b (e * c.size) c.size)) % 2 ^ (8 * c.size)))
    ∧ (c.kind = 1 → (collectiveOutput c inputs rank).length = part * c.size
      ∧ (e < part → at_ (collectiveOutput c inputs rank) (e * c.size) c.size
          = reduceElem c (inputs.map (fun b => at_ b ((part * rank + e) * c.size) c.size)) % 2 ^ (8 * c.size)))
    ∧ (c.kind = 2 → collectiveOutput c inputs rank = inputs.flatten))
  ∧ (∀ (c : Collective) (f : Fmt) (l : List Nat) (x y : Nat), Fmt.ofCode c.fmt = some f →
    reduceElem c [x] = x
    ∧ (l ≠ [] → reduceElem c (l ++ [y])
        = ((if c.op = 0 then addOp else if c.op = 1 then minOp else maxOp) f .rne (reduceElem c l) y).1))
  ∧ (∀ (c : Collective) (sg : Bool) (w : Nat) (l : List Nat), Fmt.ofCode c.fmt = some (.int sg w) → l ≠ [] → (∀ x ∈ l, x < 2 ^ w) →
    (c.op = 0 → reduceElem c l = l.sum % 2 ^ w)
    ∧ (c.op = 1 → reduceElem c l ∈ l ∧ ∀ x ∈ l, intVal sg w (reduceElem c l) ≤ intVal sg w x)
    ∧ (c.op = 2 → reduceElem c l ∈ l ∧ ∀ x ∈ l, intVal sg w x ≤ intVal sg w (reduceElem c l)))
  ∧ ∀ (s s1 s2 : State) (tag : Nat) (l l1 l2 : List (Nat × Job)), mismatched l = false →
    l.any (fun m => m.2.misaligned) = false →
    (eachMember (fun die j s => s.readInput die j) l s = .dead s1 →
      s.runRound tag l = s1.endRound tag l (fun _ => jobFAULTED))
    ∧ (eachMember (fun die j s => s.readInput die j) l s = .done l1 s1 →
      (eachMember (writeOutput (l1.map (fun m => m.2.image))) l1 s1 = .done l2 s2 →
        s.runRound tag l = s2.endRound tag l2 (fun j => if j.supp then jobOUT else jobDONE))
      ∧ (eachMember (writeOutput (l1.map (fun m => m.2.image))) l1 s1 = .dead s2 →
        s.runRound tag l = s2.endRound tag l (fun _ => jobFAULTED)))

/-- The oldest fault that a die's units wait for, of a context whose residence lets it move, is serviced as PAGE would, when
no access by the old translation is left: the unit goes on, or ends FAULTED (R352, R392, R393). -/
def Spec.EngineFaultsAreServiced : Prop :=
  ∀ (s s0 s1 : State) (die : Nat) (p : Parked) (r : PageReply),
    ((s.die die).parked.find? (s.mayService die) = none → exec (.engineFaultService die) s = .next s)
    ∧ ((s.die die).parked.find? (s.mayService die) = some p →
      (∀ w, s.quietAt p.tag p.va.toNat = .wait w → exec (.engineFaultService die) s = .next w)
      ∧ (s.quietAt p.tag p.va.toNat = .ok () s0 →
        (s0.onDie die (fun d => { d with parked := d.parked.erase p })).service p.tag (if p.store then .store else .load)
          p.va.toNat p.priv die = (r, s1) →
        (r = .ok → exec (.engineFaultService die) s = .next (s1.unpark die p))
        ∧ (r ≠ .ok → exec (.engineFaultService die) s = .next (s1.endParked die p))))

/-! Rendering, rays, launches and queues (R260, R298, R300, R305, R356, R358, R360, R408, R409). -/

/-- A search of a control context that finds a task and can write its record at x[a]: the state with the record written, and
the task taken and bound to the address (R273, R305, R306). -/
def takesTask (s : State) (a : Reg) (t : State) : Prop :=
  s.idle ∧ s.cur.h = 0 ∧ (s.x a).toNat % 64 = 0
    ∧ ∃ (pl : Place) (s1 s2 : State) (k : Task), s.dataPlace .store (s.x a) 64 = .ok pl s1 ∧ s1.cur = s.cur
      ∧ s1.myImg.qsel ≠ 0 ∧ s1.myImg.taken.length < 4 ∧ s1.search s1.myTag s.cur.core 0 s1.myImg.qsel = some k
      ∧ (s1.badCore ++ s1.soft).any (CoreCell.isQueued s1.myTag k.seq) = false ∧ s1.writeDwords (s.x a) k.tr.bytes = .ok () s2 ∧ s2.cur = s.cur
      ∧ t = (s2.unqueue s2.myTag k).onMyImg (fun m => { m with taken := m.taken ++ [{ addr := s.x a, task := k }] })

/-- A hardware context that stands at a qtake, or at a vst that submits a record, executes it again when a task is eligible
or it can go on: the qtake takes the task that its search finds, and the pass takes the record; otherwise the step does
nothing (R305, R356). -/
def Spec.WaitingInstructionsAreTriedAgain : Prop :=
  ∀ (s s1 s2 : State) (h : HartId), s1 = { s with cur := h } →
    (∀ l d a, s.queueReady h.core = true → s.controlReady h.core = true → s1.nextInstr = .ok (.qtake l d a) s2 →
      exec (.qtakeWake h) s = exec (.qtake l d a) s2
      ∧ ∀ t, takesTask s2 a t → exec (.qtakeWake h) s = .next (t.wroteLong l d 0))
    ∧ (s.queueReady h.core = false → exec (.qtakeWake h) s = .next s)
    ∧ (∀ o, s.stands h = true → s1.nextInstr = .ok (.vst o) s2 → (s2.submitsTo o).isSome = true →
      exec (.primitiveAccept h) s = exec (.vst o) s2
      ∧ ∀ n tag c p, submission s2 o n tag c p →
        ∃ t, exec (.primitiveAccept h) s = .next t ∧ submitted s2 t o n tag p)
    ∧ (s.stands h = false → exec (.primitiveAccept h) s = .next s)

/-- A running ray visits its nearest node: the node's work stands before the rest, and the ray moves again; a ray that is
not running, or that a fault parks, does not move (R260, R262, R265). That a node with any bad reference, an empty one too,
ends the ray FAULTED when the node is read is the model's reading (log 52). -/
def Spec.RaysVisitTheirNodes : Prop :=
  ∀ (s s1 : State) (h : HartId) (slot tag : Nat) (r : Ray), Tab.get? (s.hart h).rays slot = some r →
    s.tagOf h.core = some tag →
    (r.phase ≠ .running ∨ s.isParked (dieOf h.core) tag (.ray (s.core h.core).lcore h.h slot r.uid) = true →
      exec (.rayTraversal h slot) s = .next s)
    ∧ (r.phase = .running → s.isParked (dieOf h.core) tag (.ray (s.core h.core).lcore h.h slot r.uid) = false →
      ∀ a inst l bs, r.cand = none → r.stopAll = false → r.work = .node a inst :: l → a.toNat % 128 = 0 →
        s.rayReads h a 128 = .ok bs s1 → Tab.get? (s1.hart h).rays slot = some r →
        (nodeBad bs = false → nodeWork bs (r.frame inst) inst ++ l ≠ r.work →
          ∃ t, exec (.rayTraversal h slot) s = .next t
            ∧ Tab.get? (t.hart h).rays slot = some { r with work := nodeWork bs (r.frame inst) inst ++ l }
            ∧ t.agenda = s1.agenda ++ [.rayTraversal h slot])
        ∧ (nodeBad bs = true →
          ∃ t r1, exec (.rayTraversal h slot) s = .next t ∧ Tab.get? (t.hart h).rays slot = some r1
            ∧ r1.phase = .complete ∧ r1.status = rayFAULTED))

/-- An owner's inbox releases its lowest record into its ring once every lower ticket has been accepted and the ring's write
slot is free, and keeps it else; an inbox in uncorrectable data faults its context (R358, R438, R440; log 67). -/
def Spec.InboxesReleaseInTicketOrder : Prop :=
  ∀ (s : State) (tag pass owner c : Nat) (p : Pass) (u : OwnerUnit) (g : Ring) (r : Prim) (l : List Prim),
    (s.residentCore tag owner = none →
      exec (.inboxRelease tag pass owner) s = .next s ∧ exec (.commitLogPoll tag pass owner) s = .next s)
    ∧ (s.pass tag pass = some p → s.residentCore tag owner = some c → p.unit owner = some u →
      Tab.get? (s.img c).rings p.ring = some g → u.inbox = r :: l →
      (s.badCore.any (CoreCell.isInbox c) = true → exec (.inboxRelease tag pass owner) s = .next (s.unitFault tag owner 2)) ∧
      ((s.badCore ++ s.soft).any (CoreCell.isInbox c) = false →
      (p.closure ≤ r.ticket ∨ g.room = none → exec (.inboxRelease tag pass owner) s = .next s)
      ∧ (r.ticket < p.closure → g.room.isSome = true →
        ∃ t p', exec (.inboxRelease tag pass owner) s = .next t ∧ t.pass tag pass = some p'
          ∧ p'.unit owner = some { u with inbox := l }
          ∧ (∀ a, a < g.desc + 8 ∨ g.desc + 12 ≤ a → t.scratchByte c a
              = if g.base + g.slotsz * g.wptr ≤ a ∧ a < g.base + g.slotsz * g.wptr + r.data.length then
                  r.data.getD (a - (g.base + g.slotsz * g.wptr)) 0
                else s.scratchByte c a))))

/-- A store of an owner to its scratchpad that writes an entry of its log between lrp and lwp, or that lets lwp run more than
logn beyond lrp, spoils the pass (R359). -/
def Spec.BrokenLogsAreSeen : Prop :=
  ∀ (s : State) (k off tag l n lrp : Nat) (data : List Byte) (c : Ctx) (p : Pass) (u : OwnerUnit),
    (s.core k).serving = some (tag, l) → s.ctx tag = some c → Tab.get? c.passes n = some p → u ∈ p.owners → u.lcore = l →
    0 < p.logn → lrp = natLE (Memory.read (s.img k).scratch (p.loff + 4) 4) →
    (∃ j, j < (natLE (Memory.read (s.img k).scratch p.loff 4) + 2 ^ 32 - lrp) % 2 ^ 32
        ∧ off < p.loff + 128 + 16 * ((lrp + j) % p.logn) + 16 ∧ p.loff + 128 + 16 * ((lrp + j) % p.logn) < off + data.length)
      ∨ (off = p.loff ∧ data.length = 4 ∧ p.logn < (natLE data + 2 ^ 32 - lrp) % 2 ^ 32) →
    ∃ p', (s.putScratch k off data).pass tag n = some p' ∧ p'.spoiled = true

/-- A resident owner's commit unit takes what its log has published: with nothing published it takes nothing, and one
entry that is no void and in order joins its live entries under its log number; a log that was broken leaves the pass's
colour undefined (R359, R360). An entry or a header with a reserved bit set (R15; log 18), and a unit in uncorrectable data
(R438, R440; log 67), faults the context, and nothing is taken. -/
def Spec.CommitLogsAreTaken : Prop :=
  ∀ (s : State) (tag pass owner c k : Nat) (p : Pass) (u : OwnerUnit) (m : Img) (bs : List Byte), s.pass tag pass = some p →
    s.residentCore tag owner = some c → p.unit owner = some u → s.logicalImg tag owner = some m → u.voids = [] →
    k = (s.ownerWord tag owner p.loff + 2 ^ 32 - u.pos % 2 ^ 32) % 2 ^ 32 →
    bs = Memory.read m.scratch (p.loff + 128 + 16 * (u.pos % p.logn)) 16 →
    (s.badCore.any (CoreCell.isUnit c) = true → exec (.commitLogPoll tag pass owner) s = .next (s.unitFault tag owner 2))
    ∧ (s.badCore = [] → s.headerReserved tag owner p.loff = true →
      exec (.commitLogPoll tag pass owner) s = .next (s.unitFault tag owner 6))
    ∧ (s.errorFree → s.headerReserved tag owner p.loff = false →
      (p.spoiled = false → k = 0 → exec (.commitLogPoll tag pass owner) s = .next s)
      ∧ (p.filled = false → p.spoiled = true →
        ∃ t p', exec (.commitLogPoll tag pass owner) s = .next t ∧ t.pass tag pass = some p' ∧ p'.spoiled = true
          ∧ p'.filled = true)
      ∧ (p.spoiled = false → k = 1 → 1 ≤ p.logn → (2 ≤ at_ bs 6 2 ∨ at_ bs 12 4 ≠ 0) →
        exec (.commitLogPoll tag pass owner) s = .next (s.unitFault tag owner 6))
      ∧ (p.spoiled = false → k = 1 → 1 ≤ p.logn → at_ bs 6 2 = 0 → at_ bs 12 4 = 0 →
        (∀ e ∈ u.live, e.block = at_ bs 4 2 → e.ticket < at_ bs 0 4) →
        (∀ e ∈ u.blended, e.2 = at_ bs 4 2 → e.1 < at_ bs 0 4) →
        ∃ t p', exec (.commitLogPoll tag pass owner) s = .next t ∧ t.pass tag pass = some p' ∧ t.cores = s.cores
          ∧ p'.unit owner = some { u with
              pos := u.pos + 1
              live := u.live ++ [{ num := u.pos, ticket := at_ bs 0 4, block := at_ bs 4 2,
                                   cover := p.clip u.region (at_ bs 4 2) (BitVec.ofNat 32 (at_ bs 8 4)) }] }))

/-- The delivery of a launch queues its next root, unless the partition of the root's die is full; with none left its LAUNCH
completes with the launch's number; a launch whose count has returned to zero after close completes once, with an event
(R298, R300, R408, R409). A root whose kernel's entry cannot be taken at its delivery counts as a placement error: the model's
choice (log 49). -/
def Spec.LaunchesAreDeliveredAndComplete : Prop :=
  ∀ (s : State) (tag n : Nat) (x : Ctx) (l : Launch), s.ctx tag = some x → Tab.get? x.launches n = some l →
    (∀ r f die q rest, l.undelivered = (r, f, die, q) :: rest →
      (x.partFull die false = true → exec (.launchDelivery tag n) s = .next s)
      ∧ (∀ s1, x.partFull die false = false → s1 = s.onLaunch tag n (fun l => { l with undelivered := rest }) →
        ((s1.deliveryFacts die tag r f).isSome = true →
          ∃ t x' l', exec (.launchDelivery tag n) s = .next t ∧ t.ctx tag = some x' ∧ Tab.get? x'.launches n = some l'
            ∧ l'.undelivered = rest ∧ l'.tasks = l.tasks + 1 ∧ x'.nextSeq = x.nextSeq + 1
            ∧ .launchDelivery tag n ∈ t.agenda)
        ∧ (s1.deliveryFacts die tag r f = none → n ≠ 0 →
          ∃ t x' l', exec (.launchDelivery tag n) s = .next t ∧ t.ctx tag = some x' ∧ Tab.get? x'.launches n = some l'
            ∧ l'.undelivered = rest ∧ l'.tasks = l.tasks ∧ l'.perr = l.perr + 1 ∧ x'.tasks = x.tasks
            ∧ .launchDelivery tag n ∈ t.agenda)))
    ∧ (l.undelivered = [] → l.pendingCmd = none → exec (.launchDelivery tag n) s = .next s)
    ∧ (∀ c, l.undelivered = [] → l.pendingCmd = some c → c.path = .host →
      ∃ t x' l', exec (.launchDelivery tag n) s = .next t ∧ t.ctx tag = some x' ∧ Tab.get? x'.launches n = some l'
        ∧ l'.pendingCmd = none ∧ l'.closed = (l.closed || l.closing)
        ∧ ((s.mgmt.waiting.isEmpty && s.mgmt.ringOpen) = false → t.mgmt.waiting = s.mgmt.waiting
            ++ [{ seq := c.seq, cmd := 0x03, tag := c.tag, status := 0, value := BitVec.ofNat 64 n, detail := 0 }]))
    ∧ (n ≠ 0 ∧ l.closed = true ∧ l.outstanding = 0 ∧ l.completed = false →
      (∃ s1, s.performAll tag (Tab.keys s.cores) = .ok () s1 ∧ s1 = s) → s.mgmt.events.length < 4096 →
      ∃ t x' l', exec (.launchComplete tag n) s = .next t ∧ t.ctx tag = some x' ∧ Tab.get? x'.launches n = some l'
        ∧ l'.completed = true ∧ x'.lastDone = n
        ∧ t.mgmt.events = s.mgmt.events ++ [{ seq := 0, cmd := 0x80, tag := tag, status := (l.fail.map Prod.snd).getD 0,
                                              value := BitVec.ofNat 64 n, detail := BitVec.ofNat 64 l.perr }])
    ∧ (¬(n ≠ 0 ∧ l.closed = true ∧ l.outstanding = 0 ∧ l.completed = false) →
      exec (.launchComplete tag n) s = .next s)

/-! The context sequencer (R399 to R405, R440). -/

/-- What a pre-emption saves of a hardware context: every register and control as it stood, its instructions in flight to
be run again or, with none in flight, its chain record as held, and no reservation (R45, R46, R48, R123, R404). -/
def Spec.SavingKeepsAHardwareContext : Prop :=
  ∀ t : Hart,
    t.preempt.pc = t.pc ∧ t.preempt.x = t.x ∧ t.preempt.v = t.v ∧ t.preempt.d = t.d ∧ t.preempt.dtag = t.dtag
    ∧ t.preempt.mode = t.mode ∧ t.preempt.vl = t.vl ∧ t.preempt.vcfgst = t.vcfgst ∧ t.preempt.mstatus = t.mstatus
    ∧ t.preempt.task = t.task ∧ t.preempt.rays = t.rays ∧ t.preempt.pending = t.pending ∧ t.preempt.resv = none
    ∧ (t.chain = [] → t.preempt.chain = [] ∧ t.preempt.chainRec = t.chainRec)
    ∧ (t.chain.length ≤ 4 → t.preempt.chain.map (fun f => (f.id, f.instr, f.pc, f.idx))
        = t.chain.map (fun f => (f.id, f.instr, f.pc, f.idx)))

/-- A saved core keeps its scratchpad, its rings, its queued commands and its taken tasks, and the accumulators of tiles in use,
or that a queued command has still to act on, alone (R215, R404). -/
def Spec.SavingKeepsACore : Prop :=
  ∀ m : Img,
    m.saved.scratch = m.scratch ∧ m.saved.rings = m.rings ∧ m.saved.taken = m.taken ∧ m.saved.qsel = m.qsel
    ∧ m.saved.stvec = m.stvec ∧ m.saved.inUse = m.inUse
    ∧ m.saved.mq = m.mq
    ∧ (∀ e, e ∈ m.saved.acc ↔ e ∈ m.acc ∧ (m.inUse.getLsbD (e.1 / 64) = true ∨ ∃ q ∈ m.mq, q.tile = some (e.1 / 64)))
    ∧ ∀ h, Tab.get? m.saved.harts h = (Tab.get? m.harts h).map Hart.preempt

/-- A cluster at the end of its slice goes to the waiting context of no lower priority that fits it, its image saved, or
begins a new slice (that the priority is no lower is the model's reading, log 76); a cluster whose matrix class has been
fenced, or that has lost a class its image needs, is saved; an idle one goes to a waiting context that fits it; before the end
nothing happens, and while a save has to wait, only what stands inside a group moves next (R45, R328, R400, R401, R434). -/
def Spec.SlicesEnd : Prop :=
  ∀ (s : State) (die k : Nat) (cl : Cluster),
    (Tab.get? (s.die die).clusters k = none →
      exec (.sliceEnd die k) s = .next s ∧ exec (.clusterIdle die k) s = .next s)
    ∧ (Tab.get? (s.die die).clusters k = some cl →
      (s.misfits die k = true → (s.canSave die k = false → exec (.sliceEnd die k) s = .next (s.finishCluster die k))
        ∧ (s.canSave die k = true → ∃ t, exec (.sliceEnd die k) s = .next t ∧ Tab.get? (t.die die).clusters k = none
          ∧ .contextRunnable cl.tag die ∈ t.agenda))
      ∧ (s.misfits die k = false → cl.slice < s.sliceCc cl.tag → exec (.sliceEnd die k) s = .next s)
      ∧ (s.misfits die k = false → s.sliceCc cl.tag ≤ cl.slice →
        (∀ e, s.successor die k cl = some e →
          s.prioOfCtx cl.tag ≤ s.prioOfCtx e.1 ∧ e ∈ s.waitingContexts die
          ∧ exec (.sliceEnd die k) s = .next (s.replaceImage die k e.1 e.2))
        ∧ (s.successor die k cl = none →
          ∃ t, exec (.sliceEnd die k) s = .next t ∧ Tab.get? (t.die die).clusters k = some { cl with slice := 0 }
            ∧ t.cores = s.cores ∧ t.mem = s.mem))
      ∧ (cl.idle < 4096 ∨ s.keepsIdle die cl = true → exec (.clusterIdle die k) s = .next s)
      ∧ (cl.evict = true → s.misfits die k = true)
      ∧ (4096 ≤ cl.idle → s.keepsIdle die cl = false → ∀ e c, (s.waitingContexts die).head? = some e → s.ctx e.1 = some c →
          s.clusterFits c e.2 die k = true →
          exec (.clusterIdle die k) s = .next (s.replaceImage die k e.1 e.2))
      ∧ ∀ t g, (s.canSave die k = false → s.replaceImage die k t g = s.finishCluster die k)
        ∧ (s.canSave die k = true → Tab.get? ((s.replaceImage die k t g).die die).clusters k = none
            ∧ .imageRestore t g die k ∈ (s.replaceImage die k t g).agenda))

/-- The runnable contexts of a die wait in order of priority, and among equals of how long they have gone unserved; the first
that a free cluster fits gets it, and where none does, the first that may takes one of strictly lower priority, whose image is
saved; a context that is not runnable gets nothing (R400, R401). -/
def Spec.RunnableContextsGetClusters : Prop :=
  ∀ (s : State) (tag die t g k : Nat),
    (s.runnable tag die = false → exec (.contextRunnable tag die) s = .next s)
    ∧ (s.waitingContexts die).Pairwise (fun a b => s.prioOfCtx b.1 ≤ s.prioOfCtx a.1
        ∧ (s.prioOfCtx a.1 = s.prioOfCtx b.1 → s.servedAt a.1 die ≤ s.servedAt b.1 die))
    ∧ (∀ e ∈ s.waitingContexts die, s.runnable e.1 die = true ∧ s.imageResident e.1 e.2 die = false)
    ∧ (s.runnable tag die = true →
      (s.freePlace die = some (t, g, k) →
        (t, g) ∈ s.waitingContexts die ∧ (∃ c, s.ctx t = some c ∧ s.freeCluster c g die = some k)
        ∧ exec (.contextRunnable tag die) s = .next (s.post (.imageRestore t g die k)))
      ∧ (s.freePlace die = none → s.takenPlace die = none → exec (.contextRunnable tag die) s = .next s)
      ∧ (s.freePlace die = none → s.takenPlace die = some (t, g, k) →
        (t, g) ∈ s.waitingContexts die ∧ s.victim t g die = some k
        ∧ (∃ cl, Tab.get? (s.die die).clusters k = some cl ∧ s.prioOfCtx cl.tag < s.prioOfCtx t)
        ∧ exec (.contextRunnable tag die) s = .next (s.replaceImage die k t g)))

/-- An image goes to a free cluster that it fits: each of its cores serves its logical core there, and is in turn; at its
first placement its control context starts at rt in S-mode with the context's argument, its logical number and its tag
(R402, R403). -/
def Spec.ImagesArePlaced : Prop :=
  ∀ (s : State) (tag g die k : Nat) (c : Ctx), s.ctx tag = some c →
    (Tab.get? (s.die die).clusters k).isNone = true → c.imageDie g = some die → s.imageResident tag g die = false →
    c.fault = none → k < 2048 → s.clusterFits c g die k = true →
    ∃ t, exec (.imageRestore tag g die k) s = .next t ∧ t.mem = s.mem
      ∧ Tab.get? (t.die die).clusters k = some { tag := tag, image := g, slice := 0, idle := 0, evict := false }
      ∧ ∀ j ∈ c.imageIndices g, (t.core (coreAt die k j)).serving = some (tag, 8 * g + j) ∧ coreAt die k j ∈ t.running
        ∧ (Tab.get? c.images g = none →
          (t.hart { core := coreAt die k j, h := 0 }).pc = c.rt ∧ (t.hart { core := coreAt die k j, h := 0 }).mode = .s
          ∧ (t.hart { core := coreAt die k j, h := 0 }).get 10 = c.rtarg
          ∧ (t.hart { core := coreAt die k j, h := 0 }).get 11 = BitVec.ofNat 64 (8 * g + j)
          ∧ (t.hart { core := coreAt die k j, h := 0 }).get 12 = BitVec.ofNat 64 tag
          ∧ (t.img (coreAt die k j)).stvec = c.rt)

/-- An image for which there is no free cluster, no context, or no such place goes nowhere (R402). -/
def Spec.ImagesStayAway : Prop :=
  ∀ (s : State) (tag g die k : Nat) (c : Ctx),
    (s.ctx tag = none → exec (.imageRestore tag g die k) s = .next s)
    ∧ (s.ctx tag = some c → (Tab.get? (s.die die).clusters k).isSome = true →
      exec (.imageRestore tag g die k) s = .next s)

/-- A context fault takes every cluster from its context, for good, and tells the host once; the inventory keeps the last
sixteen (R440, R451). -/
def Spec.ContextFaultsStopTheContext : Prop :=
  ∀ (s : State) (tag kind die lcore : Nat) (value : Word) (c : Ctx),
    (s.ctx tag = none → exec (.contextFault tag kind die lcore value) s = .next s)
    ∧ (s.ctx tag = some c →
      (c.fault.isSome = true → exec (.contextFault tag kind die lcore value) s = .next s)
      ∧ (c.fault = none →
        ∃ t c' st, exec (.contextFault tag kind die lcore value) s = .next t ∧ t.ctx tag = some c'
          ∧ c'.fault = some (faultDetail kind die lcore) ∧ (∀ d, t.runnable tag d = false)
          ∧ (∀ d k cl, Tab.get? (t.die d).clusters k = some cl → cl.tag ≠ tag)
          ∧ t.mgmt.faults.length ≤ 16
          ∧ (s.mgmt.events.length < 4096 → t.mgmt.events = s.mgmt.events ++
              [{ seq := 0, cmd := 0x82, tag := tag, status := st, value := value, detail := faultDetail kind die lcore }])
          ∧ (4096 ≤ s.mgmt.events.length → t.mgmt.events = s.mgmt.events ∧ t.mgmt.lost = s.mgmt.lost + 1)))

/-! Fencing and repair (R432 to R441). -/

/-- A failure of a class's sentinel fences it, for good where it was fenced before; a pass of a fenced class is counted, and a
pass of a class that runs changes nothing; a class comes back unless it is fenced for good, and its count begins anew
(R434). -/
def Spec.SentinelsFenceAndRestore : Prop :=
  ∀ (r : CoreRec) (c : Nat), c < 64 →
    ((r.sentinelFail (classMask c)).caps.getLsbD c = false
      ∧ (∀ k, k ≠ c → (r.sentinelFail (classMask c)).caps.getLsbD k = r.caps.getLsbD k)
      ∧ (r.caps.getLsbD c = true → (r.sentinelFail (classMask c)).fences = r.fences + 1
          ∧ (r.sentinelFail (classMask c)).perm.getLsbD c = (r.perm.getLsbD c || r.fenced.getLsbD c)
          ∧ (r.sentinelFail (classMask c)).fenced.getLsbD c = true)
      ∧ Tab.getD (r.sentinelFail (classMask c)).streak c 0 = 0)
    ∧ (r.caps.getLsbD c = true ∨ r.perm.getLsbD c = true → r.sentinelPass c = r)
    ∧ (r.caps.getLsbD c = false → r.perm.getLsbD c = false →
      (r.sentinelPass c).caps = r.caps ∧ Tab.getD (r.sentinelPass c).streak c 0 = min 3 (Tab.getD r.streak c 0 + 1))
    ∧ (∀ k, (r.restore (classMask c)).caps.getLsbD k = (r.caps.getLsbD k || (k == c && !r.perm.getLsbD k)))
    ∧ (r.perm.getLsbD c = false → Tab.getD (r.restore (classMask c)).streak c 0 = 0)

/-- A core's record with the date of a change of caps or quar, in seconds of the module's life (R432). -/
def dated (s : State) (old new : CoreRec) : CoreRec :=
  { new with when_ := if old.caps = new.caps ∧ old.quar = new.quar then old.when_ else s.devStore.life }

/-- A sentinel's finding goes into its core's record, and capmask follows it: a failure fences the class, a matrix class on
the eight cores of the cluster; a pass brings a fenced class back after three in a row, a matrix class when it may come back
to all eight; a quarantine is lifted by a pass, and ends in a fence by a failure; a core that has failed serves nothing, and
its image moves (R431, R433 to R435; the eight cores' three passes are the model's reading, log 68). -/
def Spec.RecordsFollowFindings : Prop :=
  ∀ (s : State) (core c : Nat) (r : CoreRec), c < 64 → r = (s.core core).crec →
    (∃ t, exec (.sentinelRun core c false) s = .next t ∧ (t.core core).crec = dated s r (r.sentinelFail (classMask c))
      ∧ (t.core core).capmask = (t.core core).crec.running
      ∧ (matrixClasses.getLsbD c = true → ∀ k, k < 8 →
          (t.core (core / 8 * 8 + k)).crec.caps.getLsbD c = false ∧ (t.core (core / 8 * 8 + k)).capmask.getLsbD c = false))
    ∧ (∃ t, exec (.sentinelRun core c true) s = .next t ∧ (t.core core).capmask = (t.core core).crec.running
      ∧ (r.caps.getLsbD c = true → (t.core core).crec = r)
      ∧ (∀ k, k ≠ c → (t.core core).crec.caps.getLsbD k = r.caps.getLsbD k)
      ∧ (r.caps.getLsbD c = false → (t.core core).crec.caps.getLsbD c
          = (!r.perm.getLsbD c && decide (2 ≤ Tab.getD r.streak c 0)
            && (!matrixClasses.getLsbD c || (List.range 8).all (fun k => core / 8 * 8 + k == core
              || (s.core (core / 8 * 8 + k)).crec.state != 0 || (s.core (core / 8 * 8 + k)).crec.mayRestore c)))))
    ∧ (r.quar.getLsbD c = false → ∀ passed, exec (.quarantineSentinel core c passed) s = .next s)
    ∧ (r.quar.getLsbD c = true → ∀ passed,
      ∃ t, exec (.quarantineSentinel core c passed) s = .next t
        ∧ (t.core core).crec = dated s r ((if passed then r else r.sentinelFail (classMask c)).lift (classMask c))
        ∧ (t.core core).crec.quar.getLsbD c = false
        ∧ (∀ k, k ≠ c → (t.core core).crec.quar.getLsbD k = r.quar.getLsbD k)
        ∧ (t.core core).capmask = (t.core core).crec.running)
    ∧ (r.state ≠ 0 → exec (.coreFailed core) s = .next s)
    ∧ (r.state = 0 → (∀ k ∈ clusterCores (dieOf core) (clusterOf core), (s.img k).stores = []) →
      s.insideCluster (dieOf core) (clusterOf core) = false →
      ∃ t, exec (.coreFailed core) s = .next t ∧ (t.core core).crec = { r with state := 1 }
        ∧ Tab.get? (t.die (dieOf core)).clusters (clusterOf core) = none)

/-- At the end of an hour each core's count of corrected errors starts anew, and a core that reached sixteen has failed
(R432, R438). -/
def Spec.HoursCountErrors : Prop :=
  ∀ s : State, ∃ t, exec .corrHourEnd s = .next t
    ∧ (∀ c k, Tab.get? t.cores c = some k → k.crec.corr = 0)
    ∧ (∀ c k, (c, k) ∈ s.cores → 16 ≤ k.crec.corr → .coreFailed c ∈ t.agenda) ∧ t.mem = s.mem

/-- A shadow copy that has waited too long is dropped and no other is; a new seed selects other tasks (R437). -/
def Spec.ShadowsAreDropped : Prop :=
  ∀ (s : State) (die seed : Nat),
    (∃ t, exec (.shadowDrop die) s = .next t ∧ t.mem = s.mem
      ∧ ∀ tag c, s.ctx tag = some c → ∃ c', t.ctx tag = some c'
        ∧ ∀ r, r ∈ c'.shadows ↔ r ∈ c.shadows ∧ c.staleShadow die r = false)
    ∧ ∃ t, exec (.shadowSeedChange die seed) s = .next t ∧ (t.die die).seed = seed % 2 ^ 20 ∧ t.mem = s.mem

/-- Scrubs count what they correct; uncorrectable data faults the context that claimed its frame, or withdraws the frame
(whose frame it is, the frames that creation claimed say: the model's reading, log 38); an L2 scrub discards copies that cannot
be corrected (R438, R440). -/
def Spec.ScrubsCountAndWithdraw : Prop :=
  ∀ (s : State) (die n : Nat),
    (s.bad = [] → ∃ t, exec (.hbmScrub die n) s = .next t ∧ (t.die die).corrected = (s.die die).corrected + n ∧ t.mem = s.mem
      ∧ t.agenda = s.agenda)
    ∧ (∀ ln, s.bad = [ln] → ln * 128 < 2 ^ 42 → homeDie (ln * 128) = die →
      ∃ t, exec (.hbmScrub die n) s = .next t ∧ (t.die die).corrected = (s.die die).corrected + n
        ∧ ((∀ e ∈ s.ctxs, e.2.held.any (fun h => h.2.contains (ln * 128 / 2 ^ 21 * 2 ^ 21)) = false) →
            ln * 128 / 2 ^ 21 * 2 ^ 21 ∈ (t.die die).withdrawn ∧ ln * 128 / 2 ^ 21 * 2 ^ 21 ∉ (t.die die).freed)
        ∧ ∀ e, s.ctxs = [e] → e.2.held.any (fun h => h.2.contains (ln * 128 / 2 ^ 21 * 2 ^ 21)) = true →
            .contextFault e.1 5 die 0xFFFFF (BitVec.ofNat 64 (ln * 128)) ∈ t.agenda)
    ∧ ∃ t, exec (.l2Scrub die n) s = .next t ∧ (t.die die).corrected = (s.die die).corrected + n
      ∧ (t.die die).loans = (s.die die).loans.filter (fun e => !s.bad.contains e.1) ∧ t.mem = s.mem

/-- A retried flit is counted, and the sixteenth retry of one takes its link down (what makes retries one flit's is the
model's reading, log 69); a link that goes down stays out of use; a CXL link that goes down is reported (R438, R441). -/
def Spec.LinksFail : Prop :=
  ∀ (s : State) (link : Nat),
    (∃ t, exec (.linkRetry link) s = .next t ∧ t.retries = s.retries + 1
      ∧ t = { s with retries := t.retries, tries := t.tries, agenda := t.agenda }
      ∧ (∀ k, Tab.getD t.tries k 0 = if k = link then Tab.getD s.tries k 0 + 1 else Tab.getD s.tries k 0)
      ∧ t.agenda = s.agenda ++ (if 15 ≤ Tab.getD s.tries link 0 then [.linkDown link] else []))
    ∧ (∃ t, exec (.linkDown link) s = .next t ∧ (∀ p, p ∈ t.linksDown ↔ p ∈ s.linksDown ∨ p = link)
      ∧ t = { s with linksDown := t.linksDown, tries := t.tries } ∧ Tab.get? t.tries link = none)
    ∧ exec .cxlLinkDown s = .next { s with cxlDown := true }

/-! Commands (R374 to R382, R395 to R398, R407, R408). -/

/-- The commands of a context's part: the command, its code, whether the host and whether the window may carry it, and
whether its context must exist (R377). -/
def commandOf (i : Instr) : Option (Cmd × Nat × Bool × Bool × Bool) :=
  match i with
  | .create c => some (c, 0x01, true, false, false)
  | .destroy c => some (c, 0x02, true, false, true)
  | .launch c => some (c, 0x03, true, false, true)
  | .setsched c => some (c, 0x05, true, false, true)
  | .openPass c => some (c, 0x08, true, true, true)
  | .closePass c => some (c, 0x09, true, true, true)
  | .allocDomain c => some (c, 0x0A, true, true, true)
  | .freeDomain c => some (c, 0x0B, true, true, true)
  | .allocGroup c => some (c, 0x0C, true, false, true)
  | .freeGroup c => some (c, 0x0D, true, false, true)
  | .map c => some (c, 0x10, true, true, true)
  | .unmap c => some (c, 0x11, true, true, true)
  | .protect c => some (c, 0x12, true, true, true)
  | .page c => some (c, 0x13, false, true, true)
  | .notify c => some (c, 0x14, false, true, true)
  | .templateMake c => some (c, 0x20, true, false, false)
  | .templateDrop c => some (c, 0x21, true, false, false)
  | _ => none

/-- Whether a command is permitted: its path may carry it, and the module is Provisioned or Deployed (R377, R447). -/
def permitted (s : State) (c : Cmd) (host window : Bool) : Prop :=
  s.inService = true ∧ (c.path = .host → host = true) ∧ (c.path = .window → window = true)

/-- A command that is not permitted is answered NOT_PERMITTED, one of a missing context NO_CONTEXT (R376, R377). -/
def Spec.CommandsAreChecked : Prop :=
  ∀ (i : Instr) (s : State) (c : Cmd) (code : Nat) (host window ofCtx : Bool),
    commandOf i = some (c, code, host, window, ofCtx) →
    (¬permitted s c host window → exec i s = .next (s.answer c code stNOTPERM 0 0))
    ∧ (permitted s c host window → ofCtx = true → s.ctx c.tag = none → exec i s = .next (s.answer c code stNOCTX 0 0))

/-- The host's answer is a completion record, written where the ring's tail stands, which moves on, or waiting behind those
that wait; the window's is written at its reply address, and lost where that cannot be. Nothing else of a context changes
(R375, R376, R448). -/
def Spec.AnswersReachTheSubmitter : Prop :=
  ∀ (s : State) (c : Cmd) (code st : Nat) (v d : Word) (r : Completion),
    r = { seq := c.seq, cmd := code, tag := c.tag, status := st, value := v, detail := d } →
    (c.path = .host → (s.mgmt.waiting.isEmpty && s.mgmt.ringOpen) = false →
      s.answer c code st v d = { s with mgmt := { s.mgmt with waiting := s.mgmt.waiting ++ [r] } })
    ∧ (c.path = .host → (s.mgmt.waiting.isEmpty && s.mgmt.ringOpen) = true →
      (s.answer c code st v d).ctxs = s.ctxs
      ∧ (s.answer c code st v d).mgmt = { s.mgmt with cplqTail := s.mgmt.cplqTail + 1, msix := s.mgmt.msix + 1 }
      ∧ (s.mgmt.cplqBase.toNat % 4096 = 0 → s.mgmt.cplqBase.toNat + 32 * s.mgmt.cplqSize.toNat ≤ 2 ^ 55 →
          Memory.read (s.answer c code st v d).mem
            (2 ^ 55 + s.mgmt.cplqBase.toNat + 32 * (s.mgmt.cplqTail.toNat % s.mgmt.cplqSize.toNat)) 32 = r.bytes))
    ∧ (c.path = .window → ∀ w, w = (s.flush c.src.core).state.engineWrite (dieOf c.src.core) c.tag
        (s.core c.src.core).ptick c.seq.toNat (bytesLE 8 (2 ^ 63 + st)) →
      (∀ p s1, w = some (p, s1) → s.answer c code st v d = s1) ∧ (w = none → s.answer c code st v d = s))

/-- CREATE makes a context of its block, template and tables, under the lowest free tag, with claimed frames on its dies, a
root table of its own over its template's tables, no work, and launch 0 open; without a page for the root it answers BUSY: the
model's choice (log 78) (R379 to R381, R395, R396). -/
def Spec.CreateMakesAContext : Prop :=
  ∀ (s s1 s2 s3 s4 : State) (c : Cmd) (bs : List Byte) (t : Template) (ctab : Tab Nat) (self : Nat × Nat × Nat)
    (routes : List Route) (tag : Nat) (pool : Tab (List Nat)),
    permitted s c true false → s.cmdRead c (c.arg 16 8) 64 = some (bs, s1) → createError bs true = none →
    Tab.get? s1.templates (at_ bs 0 1) = some t → s1.createCores bs t = .ok (ctab, s2) →
    s2.createRoutes bs t = .ok ((self, routes), s3) → s3.freeTag = some tag →
    (∀ d ∈ diesOf ctab, s3.partSum d + at_ bs 8 4 ≤ 262144 ∧ saveFrames ctab d ≤ at_ bs 12 4) →
    s3.claimAll (at_ bs 12 4) (diesOf ctab) = some (pool, s4) →
    1 ≤ tag ∧ tag ≤ 4095 ∧ s3.ctx tag = none
    ∧ ∃ x : Ctx, ((s4.setCtx tag x).plantTables tag t.root = none →
        exec (.create c) s = .next (s3.answer c 0x01 stBUSY 0 0))
      ∧ (∀ u, (s4.setCtx tag x).plantTables tag t.root = some u →
        exec (.create c) s = .next (u.answer c 0x01 stOK (BitVec.ofNat 64 tag) 0)
        ∧ ∃ y, u.ctx tag = some y ∧ y = { x with root := y.root, tables := [y.root] })
      ∧ x.prio = at_ bs 2 1 ∧ x.slice = (if at_ bs 4 4 = 0 then 2000 else at_ bs 4 4) ∧ x.qpart = at_ bs 8 4
      ∧ x.scratch = at_ bs 1 1 * 8192 ∧ x.ctab = ctab ∧ x.self = self ∧ x.routes = routes ∧ x.leaves = t.leaves
      ∧ x.rt = BitVec.ofNat 64 (at_ bs 40 8) ∧ x.rtarg = BitVec.ofNat 64 (at_ bs 48 8) ∧ x.held = pool
      ∧ x.tasks = [] ∧ x.launches = [(0, Launch.init 0)] ∧ x.domains = [] ∧ x.groups = [] ∧ x.passes = [] ∧ x.fault = none

/-- DESTROY leaves no context of its tag, and no core serves it; SETSCHED gives a context its priority and slice (R377,
R382). -/
def Spec.DestroyAndSetsched : Prop :=
  ∀ (s : State) (c : Cmd) (x : Ctx), permitted s c true false → s.ctx c.tag = some x →
    (exec (.destroy c) s = .next ((s.destroyCtx c.tag [] []).answer c 0x02 stOK 0 0)
      ∧ (s.destroyCtx c.tag [] []).ctx c.tag = none ∧ ∀ k, (s.destroyCtx c.tag [] []).tagOf k ≠ some c.tag)
    ∧ (7 < c.arg 16 4 → exec (.setsched c) s = .next (s.answer c 0x05 stBAD 0 16))
    ∧ (c.arg 16 4 ≤ 7 → c.arg 20 4 = 0 ∨ (100 ≤ c.arg 20 4 ∧ c.arg 20 4 ≤ 100000) →
      exec (.setsched c) s = .next ((s.setCtx c.tag
        { x with prio := c.arg 16 4, slice := if c.arg 20 4 = 0 then x.slice else c.arg 20 4 }).answer c 0x05 stOK 0 0))
    ∧ (c.arg 16 4 ≤ 7 → c.arg 20 4 ≠ 0 → c.arg 20 4 < 100 ∨ 100000 < c.arg 20 4 →
      exec (.setsched c) s = .next (s.answer c 0x05 stBAD 0 20))

/-- LAUNCH opens the launch of the next number, or takes an open one, for its roots, which wait for delivery, which answers
it; one that is closed, or whose LAUNCH_DONE was posted, is in use; one never opened, and a place that names no logical core,
is a bad field. The roots go where the places say (R407, R408). The done address counts at the open: the model's reading (log
57). -/
def Spec.LaunchOpens : Prop :=
  ∀ (s s1 : State) (c : Cmd) (x : Ctx) (bs : List Byte) (old : Nat),
    permitted s c true false → s.ctx c.tag = some x → s.cmdRead c (c.arg 16 8) 64 = some (bs, s1) → old = at_ bs 16 8 →
    (old ≠ 0 → Tab.get? x.launches old = none → launchError bs true = none →
      exec (.launch c) s = .next (s.answer c 0x03 stBAD 0 (badAt 1 16)))
    ∧ (∀ l, old ≠ 0 → Tab.get? x.launches old = some l → launchError bs true = none → l.closed = true ∨ l.completed = true →
      exec (.launch c) s = .next (s.answer c 0x03 stINUSE 0 0))
    ∧ ∀ (s2 s3 s4 : State) (rb pb : List Byte) (roots : List (TaskRec × KernelFacts)) (ps : List Nat) (y : Ctx), launchError bs true = none →
      (∀ l, old ≠ 0 → Tab.get? x.launches old = some l → l.closed = false ∧ l.completed = false) →
      old = 0 ∨ (Tab.get? x.launches old).isSome = true →
      s1.cmdRead c (at_ bs 0 8) (64 * at_ bs 8 4) = some (rb, s2) →
      s2.readRoots c.tag 0 (chunksOf 64 rb (at_ bs 8 4)) = .ok (roots, s3) →
      (at_ bs 24 8 = 0 → ps = [] ∧ s4 = s3) →
      (at_ bs 24 8 ≠ 0 → s3.cmdRead c (at_ bs 24 8) (4 * at_ bs 8 4) = some (pb, s4)
        ∧ ps = (chunksOf 4 pb (at_ bs 8 4)).map natLE) →
      (∀ o, x.placeError ps = some o → exec (.launch c) s = .next (s.answer c 0x03 stBAD 0 (badAt 3 o)))
      ∧ (x.placeError ps = none → s4.ctx c.tag = some y →
        ∃ (t : State) (z : Ctx) (l : Launch) (n : Nat), exec (.launch c) s = .next t ∧ t.ctx c.tag = some z
          ∧ Tab.get? z.launches n = some l ∧ l.pendingCmd = some c ∧ l.closing = (at_ bs 12 4 % 2 == 1)
          ∧ .launchDelivery c.tag n ∈ t.agenda
          ∧ (old = 0 → n = y.nextLaunch ∧ z.nextLaunch = y.nextLaunch + 1
            ∧ (Tab.get? y.launches n = none → l.completed = false ∧ l.done = BitVec.ofNat 64 (at_ bs 32 8)
              ∧ l.undelivered = roots.mapIdx (fun i r => (r.1, r.2, y.rootQueue i ((ps[i]?).bind placeOf)))))
          ∧ (old ≠ 0 → n = old ∧ z.nextLaunch = y.nextLaunch
            ∧ ∀ m, Tab.get? y.launches old = some m → l.done = m.done ∧ l.outstanding = m.outstanding
              ∧ l.undelivered = m.undelivered ++ roots.mapIdx (fun i r => (r.1, r.2, y.rootQueue i ((ps[i]?).bind placeOf)))))

/-- OPEN_PASS opens its descriptor's pass, with the owners listed in region order and no ticket accepted; an open number is in
use; CLOSE_PASS ends a pass with nothing live and gives its discards (R353, R356, R358, R377). -/
def Spec.PassesOpenAndClose : Prop :=
  ∀ (s s1 s2 : State) (c : Cmd) (x : Ctx) (bs ob : List Byte), permitted s c true true → s.ctx c.tag = some x →
    (∀ p, c.arg 16 8 ≤ 15 → Tab.get? x.passes (c.arg 16 8) = some p →
      exec (.openPass c) s = .next (s.answer c 0x08 stINUSE 0 0))
    ∧ (c.arg 16 8 ≤ 15 → Tab.get? x.passes (c.arg 16 8) = none → c.arg 24 8 % 64 = 0 →
      s.cmdRead c (c.arg 24 8) 64 = some (bs, s1) → passError bs x.scratch = none →
      s1.cmdRead c (at_ bs 24 8) (4 * passRegions bs) = some (ob, s2) →
      x.ownersOk ((chunksOf 4 ob (passRegions bs)).map natLE) = true → s2.ctx c.tag = some x →
      ∃ (t : State) (p : Pass), exec (.openPass c) s = .next (t.answer c 0x08 stOK 0 0) ∧ t.pass c.tag (c.arg 16 8) = some p
        ∧ p.owners.map (fun u => (u.lcore, u.region))
            = ((chunksOf 4 ob (passRegions bs)).map natLE).mapIdx (fun k o => (o, k))
        ∧ p.tickets = at_ bs 0 4 ∧ p.width = at_ bs 4 2 ∧ p.height = at_ bs 6 2 ∧ p.closure = 0 ∧ p.accepted = []
        ∧ p.discards = 0 ∧ ∀ u ∈ p.owners, u.inbox = [] ∧ u.live = [] ∧ u.store = [] ∧ u.pos = 0)
    ∧ (Tab.get? x.passes (c.arg 16 8) = none → exec (.closePass c) s = .next (s.answer c 0x09 stBAD 0 16))
    ∧ ∀ p, Tab.get? x.passes (c.arg 16 8) = some p →
      ((∃ u ∈ p.owners, u.live ≠ [] ∨ u.inbox ≠ []) → exec (.closePass c) s = .next (s.answer c 0x09 stINUSE 0 0))
      ∧ ((∀ u ∈ p.owners, u.live = [] ∧ u.inbox = []) →
        ∃ t : State, exec (.closePass c) s = .next (t.answer c 0x09 stOK (BitVec.ofNat 64 p.discards) 0)
          ∧ t.pass c.tag (c.arg 16 8) = none ∧ ∀ k, k ≠ c.arg 16 8 → t.pass c.tag k = s.pass c.tag k)

/-- ALLOC_DOMAIN gives a context a domain of N arrivals, none made, unless it is taken; FREE_DOMAIN takes back a domain
without arrivals (R276, R308, R377). -/
def Spec.DomainsAreAllocated : Prop :=
  ∀ (s : State) (c : Cmd) (x : Ctx) (scope : BitVec 3) (n d : Nat), permitted s c true true → s.ctx c.tag = some x →
    s.domainArgs c x = .ok (scope, n, d) →
    (1 ≤ c.arg 20 4 → c.arg 20 4 ≤ 2 ^ 24 →
      (s.domainTaken x scope n d = true → exec (.allocDomain c) s = .next (s.answer c 0x0A stINUSE 0 0))
      ∧ (s.domainTaken x scope n d = false →
        ∃ (y : Ctx) (e : Domain), exec (.allocDomain c) s = .next ((s.setCtx c.tag y).answer c 0x0A stOK 0 0)
          ∧ y.domainAt scope n d = some e ∧ e.n = c.arg 20 4 ∧ e.count = 0 ∧ e.phase = 0))
    ∧ (∀ e, x.domainAt scope n d = some e →
      (e.count ≠ 0 → exec (.freeDomain c) s = .next (s.answer c 0x0B stINUSE 0 0))
      ∧ (e.count = 0 → ∃ y : Ctx, exec (.freeDomain c) s = .next ((s.setCtx c.tag y).answer c 0x0B stOK 0 0)
          ∧ y.holdsDomain scope n d = false
          ∧ ∀ f, f ∈ y.domains ↔ f ∈ x.domains ∧ ¬(f.scope = scope ∧ f.inst = n ∧ f.dom = d)))

/-- ALLOC_GROUP gives a group of the members listed, in rank order; an own member that does not exist faults the context (R14,
R440), after an answer of OK (the model's choice, log 34); FREE_GROUP takes back a group with no collective on it; NOTIFY sets
a logical core's software interrupt (R290, R377, R398). -/
def Spec.GroupsAndNotify : Prop :=
  ∀ (s s1 : State) (c : Cmd) (x : Ctx) (bs : List Byte), s.ctx c.tag = some x → s.inService = true →
    (c.path = .host →
      (c.arg 16 4 ≤ 255 → 2 ≤ c.arg 20 4 → c.arg 20 4 ≤ 65536 → Tab.get? x.groups (c.arg 16 4) = none →
        s.cmdRead c (c.arg 24 8) (8 * c.arg 20 4) = some (bs, s1) → memberError bs (c.arg 20 4) = none →
        s1.ctx c.tag = some x →
        ∃ (y : Ctx) (g : Group), exec (.allocGroup c) s
            = .next ((if x.ownMembersExist g.members then s1.setCtx c.tag y
                else (s1.setCtx c.tag y).post (.contextFault c.tag 6 0 0xFFFFF 0)).answer c 0x0C stOK 0 0)
          ∧ Tab.get? y.groups (c.arg 16 4) = some g ∧ g.rounds = 0 ∧ g.members.length = c.arg 20 4
          ∧ ∀ k, k < c.arg 20 4 → g.members[k]?
              = some (at_ bs (8 * k) 1, at_ bs (8 * k + 1) 1, at_ bs (8 * k + 2) 1, at_ bs (8 * k + 4) 4))
      ∧ (Tab.get? x.groups (c.arg 16 8) = none → exec (.freeGroup c) s = .next (s.answer c 0x0D stBAD 0 16))
      ∧ (∀ g, Tab.get? x.groups (c.arg 16 8) = some g →
        (∀ d ∈ s.dies, ∀ j ∈ d.2.jobs, ¬(j.tag = c.tag ∧ j.op = 3 ∧ j.collective.group = c.arg 16 8)) →
        exec (.freeGroup c) s
          = .next ((s.setCtx c.tag { x with groups := Tab.erase x.groups (c.arg 16 8) }).answer c 0x0D stOK 0 0)))
    ∧ (c.path = .window →
      (x.coreOf (c.arg 16 4) = none → exec (.notify c) s = .next (s.answer c 0x14 stBAD 0 16))
      ∧ ∀ p, s.residentCore c.tag (c.arg 16 4) = some p →
        ∃ t : State, exec (.notify c) s = .next (t.answer c 0x14 stOK 0 0)
          ∧ (t.img p).mip = setBit (s.img p).mip 1 true ∧ t.mem = s.mem)

/-- TEMPLATE_MAKE turns an idle context into a template under the lowest free number, with its shared leaves and their tables;
one with work is in use. No free number is NO_TAG, too few frames or page-table pages BUSY: the model's choices (log 64).
TEMPLATE_DROP takes back a template that no context was made of (R379). -/
def Spec.TemplatesAreMade : Prop :=
  ∀ (s s1 : State) (c : Cmd) (x : Ctx) (t : Template) (n : Nat) (pool : Tab (List Nat)), permitted s c true false →
    (s.ctx (c.arg 16 4) = none → exec (.templateMake c) s = .next (s.answer c 0x20 stNOCTX 0 0))
    ∧ (s.ctx (c.arg 16 4) = some x → 1 ≤ c.arg 20 4 → c.arg 20 4 ≤ 2048 →
      (s.ctxBusy (c.arg 16 4) x = true → exec (.templateMake c) s = .next (s.answer c 0x20 stINUSE 0 0))
      ∧ (s.ctxBusy (c.arg 16 4) x = false →
        (∀ m, 1 ≤ m → m ≤ 255 → (Tab.get? s.templates m).isSome = true) →
        exec (.templateMake c) s = .next (s.answer c 0x20 stNOTAG 0 0))
      ∧ (s.ctxBusy (c.arg 16 4) x = false →
        ((List.range 255).map (fun j => j + 1)).find? (fun m => (Tab.get? s.templates m).isNone) = some n →
        (s.claimAll (c.arg 20 4) (diesOf x.ctab) = none → exec (.templateMake c) s = .next (s.answer c 0x20 stBUSY 0 0))
        ∧ (s.claimAll (c.arg 20 4) (diesOf x.ctab) = some (pool, s1) →
          (s1.makeTemplate (c.arg 16 4) n x pool = none → exec (.templateMake c) s = .next (s.answer c 0x20 stBUSY 0 0))
          ∧ ∀ u, s1.makeTemplate (c.arg 16 4) n x pool = some u →
            exec (.templateMake c) s = .next (u.answer c 0x20 stOK (BitVec.ofNat 64 n) 0)
            ∧ u.ctx (c.arg 16 4) = none
            ∧ ∃ t : Template, Tab.get? u.templates n = some t ∧ t.ctab = x.ctab ∧ t.routes = x.routes
              ∧ t.ncores = x.ncores ∧ t.pool = pool ∧ t.leaves = (x.leaves.filter (fun l => l.share)).map Leaf.shared
              ∧ (∀ p ∈ t.tables, p ∉ u.freeTables ∨ p ∈ s1.freeTables))))
    ∧ (Tab.get? s.templates (c.arg 16 8) = none → exec (.templateDrop c) s = .next (s.answer c 0x21 stBAD 0 16))
    ∧ (Tab.get? s.templates (c.arg 16 8) = some t →
      ((∃ e ∈ s.ctxs, e.2.template = c.arg 16 8) → exec (.templateDrop c) s = .next (s.answer c 0x21 stINUSE 0 0))
      ∧ ((∀ e ∈ s.ctxs, e.2.template ≠ c.arg 16 8) →
        ∃ u : State, exec (.templateDrop c) s = .next (u.answer c 0x21 stOK 0 0) ∧ Tab.get? u.templates (c.arg 16 8) = none
          ∧ ∀ e ∈ t.frames ++ t.pool, ∀ f ∈ e.2, ∀ j, j < 2 ^ 21 → Memory.get u.mem (f + j) = 0))

/-! Pages, custody and the life of the device (R385 to R393, R443 to R457). -/

/-- MAP adds leaves of its size over its whole range, with A = 1 and D = W, at consecutive addresses from a physical one
that it gives, or unbacked; an argument in error is named; without a page-table page for them it is answered NO_MEMORY, with
nothing changed (R385, R388; how many pages there are is the model's choice, log 10). -/
def Spec.MapAddsLeaves : Prop :=
  ∀ (s : State) (c : Cmd) (x : Ctx), permitted s c true true → s.ctx c.tag = some x →
    (∀ o, mapError c x = some o → exec (.map c) s = .next (s.answer c 0x10 stBAD 0 (BitVec.ofNat 64 o)))
    ∧ (mapError c x = none → s.setLeaves c.tag (x.leaves ++ mapLeaves c) = none →
      exec (.map c) s = .next (s.answer c 0x10 stNOMEM 0 0))
    ∧ (mapError c x = none → mapAttr c 7 = false ∨ c.arg 32 8 ≠ 0 →
      (s.setLeaves c.tag (x.leaves ++ mapLeaves c)).isSome = true →
      ∃ (t : State) (y : Ctx), exec (.map c) s = .next (t.answer c 0x10 stOK 0 0) ∧ t.ctx c.tag = some y
        ∧ y.leaves = x.leaves ++ mapLeaves c ∧ (mapLeaves c).length = c.arg 24 8 / mapSize c
        ∧ (∀ l ∈ mapLeaves c, l.size = mapSize c ∧ l.pte.getLsbD 6 = true
            ∧ l.pte.getLsbD 7 = l.pte.getLsbD 2 ∧ l.pte.getLsbD 5 = false ∧ l.pte.getLsbD 0 = decide (c.arg 32 8 ≠ 0)
            ∧ l.pte.getLsbD 1 = mapAttr c 0 ∧ l.pte.getLsbD 2 = mapAttr c 1 ∧ l.pte.getLsbD 3 = mapAttr c 2
            ∧ l.pte.getLsbD 4 = mapAttr c 3)
        ∧ ∀ (k : Nat) (l : Leaf), (mapLeaves c)[k]? = some l → l.va = c.arg 16 8 + k * mapSize c
            ∧ (c.arg 32 8 ≠ 0 → c.arg 32 8 + k * mapSize c < 2 ^ 56 → c.arg 32 8 % 4096 = 0 →
                field l.pte 10 44 * 4096 = c.arg 32 8 + k * mapSize c))

/-- UNMAP takes the leaves of its range away, and PROTECT gives them its permissions, with D = W; both drop every cached
translation of the range; neither changes a leaf outside. Both wait for the accesses under translations of the range, and act
on the state that these leave (R185, R388, R389, R393). -/
def Spec.UnmapAndProtect : Prop :=
  ∀ (s : State) (c : Cmd) (x : Ctx), permitted s c true true → s.ctx c.tag = some x →
    (∀ o, rangeError c x = some o →
      exec (.unmap c) s = .next (s.answer c 0x11 stBAD 0 (BitVec.ofNat 64 o))
      ∧ exec (.protect c) s = .next (s.answer c 0x12 stBAD 0 (BitVec.ofNat 64 o)))
    ∧ (rangeError c x = none → c.arg 32 1 / 2 % 2 = 1 →
      (∃ l ∈ x.leaves, l.within (c.arg 16 8) (c.arg 24 8) = true ∧ (pteC l.pte = true ∨ pteG l.pte = true)) →
      exec (.protect c) s = .next (s.answer c 0x12 stBAD 0 32))
    ∧ (rangeError c x = none → ∀ w, s.rangeQuiet c.tag (c.arg 16 8) (c.arg 24 8) = .wait w →
      exec (.unmap c) s = .next (w.defer c.tag (.unmap c))
      ∧ (c.arg 32 1 / 2 % 2 = 0 → exec (.protect c) s = .next (w.defer c.tag (.protect c))))
    ∧ (rangeError c x = none → ∀ q, s.rangeQuiet c.tag (c.arg 16 8) (c.arg 24 8) = .ok () q → q.ctx c.tag = some x →
      ((q.setLeaves c.tag (x.leaves.filter (fun l => !l.within (c.arg 16 8) (c.arg 24 8)))).isSome = true → ∃ (t : State) (y : Ctx), exec (.unmap c) s = .next (t.answer c 0x11 stOK 0 0) ∧ t.ctx c.tag = some y
        ∧ y.leaves = x.leaves.filter (fun l => !l.within (c.arg 16 8) (c.arg 24 8))
        ∧ (∀ d, ∀ e ∈ (t.die d).lastTlb, e.tag = c.tag →
            e.va + e.size ≤ c.arg 16 8 ∨ c.arg 16 8 + c.arg 24 8 ≤ e.va))
      ∧ ((∀ l ∈ x.leaves, l.within (c.arg 16 8) (c.arg 24 8) = true → c.arg 32 1 / 2 % 2 = 1 →
            pteC l.pte = false ∧ pteG l.pte = false) →
        (q.setLeaves c.tag (x.leaves.map (fun l =>
          if l.within (c.arg 16 8) (c.arg 24 8) then { l with pte := protectPte c l.pte } else l))).isSome = true →
        ∃ (t : State) (y : Ctx), exec (.protect c) s = .next (t.answer c 0x12 stOK 0 0) ∧ t.ctx c.tag = some y
          ∧ y.leaves.length = x.leaves.length
          ∧ (∀ (k : Nat) (l m : Leaf), x.leaves[k]? = some l → y.leaves[k]? = some m →
              if l.within (c.arg 16 8) (c.arg 24 8) then
                m = { l with pte := m.pte } ∧ m.pte.getLsbD 1 = (c.arg 32 1 % 2 == 1)
                  ∧ m.pte.getLsbD 2 = (c.arg 32 1 / 2 % 2 == 1) ∧ m.pte.getLsbD 3 = (c.arg 32 1 / 4 % 2 == 1)
                  ∧ m.pte.getLsbD 4 = (c.arg 32 1 / 8 % 2 == 1) ∧ m.pte.getLsbD 7 = m.pte.getLsbD 2
                  ∧ field m.pte 10 44 = field l.pte 10 44
              else m = l)
          ∧ (∀ d, ∀ e ∈ (t.die d).lastTlb, e.tag = c.tag →
              e.va + e.size ≤ c.arg 16 8 ∨ c.arg 16 8 + c.arg 24 8 ≤ e.va)))

/-- PAGE waits for the accesses under the page's translation, services the fault and answers with what came of it: an address
that nothing maps is fatal, a backed page that permits the access is well, an unbacked leaf is backed from the pool of its die,
and no frame there, or no page-table page, is NO_MEMORY. A helper whose PAGE failed must end its task, and is marked so (R14, R185, R389 to R391). -/
def Spec.PageServicesFaults : Prop :=
  ∀ (s s1 : State) (c : Cmd) (x : Ctx) (k : AccKind), s.ctx c.tag = some x →
    (permitted s c false true → 2 < c.arg 24 8 → exec (.page c) s = .next (s.answer c 0x13 stBAD 0 24))
    ∧ (pageKind (c.arg 24 8) = some k →
      (permitted s c false true → ∀ w, s.quietAt c.tag (c.arg 16 8) = .wait w →
        exec (.page c) s = .next (w.defer c.tag (.page c)))
      ∧ (permitted s c false true → ∀ q r, s.quietAt c.tag (c.arg 16 8) = .ok () q →
        q.service c.tag k (c.arg 16 8) (faultPriv c) (dieOf c.src.core) = (r, s1) →
        exec (.page c) s = .next ((s1.answer c 0x13 r.status 0 0).noteFailure c r)
        ∧ (r = .ok ∨ c.src.h = 0 → exec (.page c) s = .next (s1.answer c 0x13 r.status 0 0)))
      ∧ (2 ^ 56 ≤ c.arg 16 8 ∨ inWindows (c.arg 16 8) = true ∨ x.leafOf (c.arg 16 8) = none →
        s.service c.tag k (c.arg 16 8) (faultPriv c) (dieOf c.src.core) = (.fatal, s))
      ∧ ∀ l, c.arg 16 8 < 2 ^ 56 → inWindows (c.arg 16 8) = false → x.leafOf (c.arg 16 8) = some l →
        l.permits k (faultPriv c) = true → k ≠ .store →
        (l.unbacked = false → s.service c.tag k (c.arg 16 8) (faultPriv c) (dieOf c.src.core) = (.ok, s))
        ∧ (l.unbacked = true →
          (s.back c.tag l (dieOf c.src.core) = none →
            s.service c.tag k (c.arg 16 8) (faultPriv c) (dieOf c.src.core) = (.noMemory, s))
          ∧ (s.back c.tag l (dieOf c.src.core) = some s1 →
            s.service c.tag k (c.arg 16 8) (faultPriv c) (dieOf c.src.core) = (.ok, s1))))

/-- ATTEST writes its report for the host and gives a new challenge; FW_STAGE keeps an image that is whole and signed and whose
security version is not older; both are the module's, of the host alone (R377, R447, R454, R455; what a signature and an image's
version are of its bytes, the spec leaves free, and SHA-384 is the public standard's, log 14). -/
def Spec.AttestAndStage : Prop :=
  ∀ (s s1 : State) (c : Cmd) (bs : List Byte),
    (c.path = .window →
      exec (.attest c) s = .next (s.answer c 0x30 stNOTPERM 0 0) ∧ exec (.fwStage c) s = .next (s.answer c 0x31 stNOTPERM 0 0))
    ∧ (c.path = .host → c.tag ≠ 0 →
      exec (.attest c) s = .next (s.answer c 0x30 stBAD 0 2) ∧ exec (.fwStage c) s = .next (s.answer c 0x31 stBAD 0 2))
    ∧ (c.path = .host → c.tag = 0 →
      (c.arg 16 8 % 8 ≠ 0 → exec (.attest c) s = .next (s.answer c 0x30 stBAD 0 16))
      ∧ (c.arg 16 8 % 8 = 0 → 2 ^ 55 ≤ c.arg 16 8 → c.arg 16 8 + 392 ≤ 2 ^ 56 →
        ∃ t : State, exec (.attest c) s = .next (t.answer c 0x30 stOK 0 0) ∧ t.challenge = some s.fresh ∧ t.fresh = s.fresh + 1
          ∧ natLE (Memory.read t.mem (c.arg 16 8) 4) = 1 ∧ natLE (Memory.read t.mem (c.arg 16 8 + 4) 4) = s.mgmt.lcs % 2 ^ 32
          ∧ Memory.read t.mem (c.arg 16 8 + 32) 48 = sha384 s.devStore.running
          ∧ Memory.read t.mem (c.arg 16 8 + 232) 32 = (List.range 32).map (fun j => BitVec.ofNat 8 (c.arg (24 + j) 1)))
      ∧ (s.inService = false → exec (.fwStage c) s = .next (s.answer c 0x31 stNOTPERM 0 0))
      ∧ (s.inService = true → s.cmdRead c (c.arg 16 8) (c.arg 24 8) = none →
        exec (.fwStage c) s = .next (s.answer c 0x31 stBAD 0 16))
      ∧ (s.inService = true → s.cmdRead c (c.arg 16 8) (c.arg 24 8) = some (bs, s1) →
        (imageOk bs = false → exec (.fwStage c) s = .next (s.answer c 0x31 stBAD 0 16))
        ∧ (imageOk bs = true →
          ((Config.imageSvn bs).toNat < s.devStore.svn.toNat →
            exec (.fwStage c) s = .next (s.answer c 0x31 stNOTPERM 0 0))
          ∧ (s.devStore.svn.toNat ≤ (Config.imageSvn bs).toNat →
            exec (.fwStage c) s = .next (({ s1 with devStore := { s1.devStore with
              staged := some (bs, Config.imageVersion bs, Config.imageSvn bs) } } : State).answer c 0x31 stOK 0 0)))))

/-- LIFECYCLE crosses from one state of custody to another of the six that R452 lists, when no context and no template is
left and a challenge was given; two of them need an authorisation over that challenge; the module is reset, in the new state,
and posts nothing; crossing into Returned destroys the identity key, and out of Blank begins the counters of the core records anew; any other transition, or one with a context left, is not
permitted; every one clears the challenge (R446, R452; which field an absent challenge is the fault of is the model's choice,
log 35). -/
def Spec.LifecycleCrosses : Prop :=
  ∀ (s s1 : State) (c : Cmd) (target ch : Nat) (bs : List Byte), c.path = .host → c.tag = 0 → target = c.arg 16 1 →
    (transition s.mgmt.lcs target = none →
      exec (.lifecycle c) s = .next ({ s with challenge := none }.answer c 0x32 stNOTPERM 0 0))
    ∧ (∀ a, transition s.mgmt.lcs target = some a → s.ctxs ≠ [] ∨ s.templates ≠ [] →
      exec (.lifecycle c) s = .next ({ s with challenge := none }.answer c 0x32 stNOTPERM 0 0))
    ∧ (∀ a, transition s.mgmt.lcs target = some a → s.ctxs = [] → s.templates = [] → s.mgmt.rsb = false →
      (s.challenge = none → exec (.lifecycle c) s = .next (s.answer c 0x32 stBAD 0 24))
      ∧ (s.challenge = some ch → a = true →
        ({ s with challenge := none } : State).cmdRead c (c.arg 24 8) 128 = some (bs, s1) →
        (∀ o, authError ch target bs = some o →
          exec (.lifecycle c) s
            = .next ({ s with challenge := none }.answer c 0x32 stBAD 0 (BitVec.ofNat 64 (2 ^ 32 + o))))
        ∧ (authError ch target bs = none →
          ∃ t : State, exec (.lifecycle c) s = .next t ∧ t.mgmt.lcs = target ∧ t.mgmt.ready = false ∧ t.mgmt.waiting = []
            ∧ (∀ x, isDevice x = true → Memory.get t.mem x = 0) ∧ t.challenge = none))
      ∧ (s.challenge = some ch → a = false →
        ∃ t : State, exec (.lifecycle c) s = .next t ∧ t.mgmt.lcs = target ∧ t.mgmt.ready = false ∧ t.mgmt.waiting = []
          ∧ (∀ x, isDevice x = true → Memory.get t.mem x = 0)
          ∧ (∀ x, isDevice x = false → Memory.get t.mem x = Memory.get s.mem x)
          ∧ t.challenge = none ∧ (target = 3 → t.devStore.key = none)))
    ∧ (s.mgmt.lcs = 0 → s.devStore.staged = none → (s.crossTo 1).devStore.life = 0 ∧ (s.crossTo 1).devStore.key = some s.fresh
      ∧ ∀ k q, Tab.get? s.cores k = some q → ((s.crossTo 1).core k).crec = { q.crec with uncorr := 0, fences := 0, when_ := 0 })

/-! Reset, the registers, power and heat (R7, R443 to R457). -/

/-- What every reset leaves: no context, template, pod map or mapping; the module's memory reads 0 and the host's as before;
READY clear; every core serving nothing, with its record kept and capmask 0; the counts of errors as they were; and the cause
in STATUS (R7, R431, R432, R446). -/
def isReset (s t : State) (cause : Nat) : Prop :=
  t.ctxs = [] ∧ t.templates = [] ∧ t.podmap = none
  ∧ (∀ a, Memory.get t.mem a = if isDevice a then 0 else Memory.get s.mem a) ∧ t.mgmt.ready = false
  ∧ t.mgmt.started = false ∧ t.mgmt.qen = false ∧ t.mgmt.therm = false ∧ t.mgmt.lcs = s.mgmt.lcs
  ∧ t.mgmt.rcause = (if s.mgmt.therm then 5 else cause) ∧ t.mgmt.events = [] ∧ t.mgmt.waiting = []
  ∧ t.retries = s.retries ∧ t.uncorrected = s.uncorrected ∧ t.agenda = [.resetComplete]
  ∧ (∀ c k, Tab.get? s.cores c = some k → (t.core c).crec = k.crec ∧ (t.core c).capmask = 0
      ∧ (t.core c).serving = none ∧ (t.core c).img = Img.init)
  ∧ (∀ d, (t.die d).jobs = [] ∧ (t.die d).patterns = [] ∧ (t.die d).clusters = [] ∧ (t.die d).temp = (s.die d).temp
      ∧ (t.die d).corrected = (s.die d).corrected)

/-- Power-on, a reset by CONTROL and a CXL reset reset the module, with the causes 1, 2 and 3; under a thermal stop the last
two take effect only once every die is below 70 °C; the reset is complete when self test has run, capmask follows the
records and READY is set (R434, R435, R444, R446, R457). What self test finds, State.defects holds, class 64 for a scalar
pipeline that fails: the model's choice (log 39). -/
def Spec.ResetsReset : Prop :=
  ∀ s : State,
    (∃ t : State, exec .powerOn s = .next t ∧ isReset s t 1)
    ∧ (s.mgmt.therm = false ∨ (∀ d ∈ s.dies, d.2.temp < 70 * 16) →
      (∃ t : State, exec .reset s = .next t ∧ isReset s t 2) ∧ ∃ t : State, exec .cxlReset s = .next t ∧ isReset s t 3)
    ∧ (s.mgmt.therm = true → (∃ d ∈ s.dies, 70 * 16 ≤ d.2.temp) →
      exec .reset s = .next s ∧ exec .cxlReset s = .next s)
    ∧ (s.mgmt.ready = true → exec .resetComplete s = .next s)
    ∧ (s.mgmt.ready = false → ∃ t : State, exec .resetComplete s = .next t ∧ t.mgmt = { s.mgmt with ready := true }
      ∧ (∀ c k, Tab.get? t.cores c = some k → k.capmask = k.crec.running) ∧ t.mem = s.mem
      ∧ (s.defects = [] → ∀ c k, Tab.get? s.cores c = some k → (t.core c).crec = k.crec)
      ∧ (∀ e, s.defects = [e] → e.2 < 64 → (t.core e.1).crec.caps.getLsbD e.2 = false)
      ∧ ∀ e, s.defects = [e] → 64 ≤ e.2 → (t.core e.1).crec.state ≠ 0)

/-- START, once the module is ready, sets FEAT_SET to what was asked for and is offered, without the feature of the pod where
no pod map was read; QEN, POWERCAP and the other registers take effect only after it, and POWERCAP is held between 5,000 and
30,000 W; a write of CONTROL acts by its bits, by the others too where its RESET is not let through; a base keeps its low bits
zero (R443, R445 to R449, R457; the order of the bits, and a base's low bits, are the model's choice, log 40). -/
def Spec.RegistersAreWritten : Prop :=
  ∀ (s : State) (off : Nat) (v : Word) (on : Bool),
    (s.mgmt.ready = false ∨ s.mgmt.started = true → exec .start s = .next s)
    ∧ (s.mgmt.ready = true → s.mgmt.started = false →
      ∃ t : State, exec .start s = .next t ∧ t.mgmt.started = true
        ∧ (s.mgmt.podmap = 0 → t.podmap = none ∧ t.mem = s.mem
            ∧ t.mgmt.featSet = setBit (s.mgmt.featReq &&& s.featOffer) 7 false)
        ∧ (t.podmap = none → t.mgmt.featSet.getLsbD 7 = false)
        ∧ ∀ k, k ≠ 7 → t.mgmt.featSet.getLsbD k = (s.mgmt.featReq &&& s.featOffer).getLsbD k)
    ∧ (s.mgmt.started = false → exec (.qen on) s = .next s ∧ exec (.powercap v) s = .next s
        ∧ (off ≠ 0x010 → off ≠ 0x020 → off ≠ 0x080 → exec (.registerWrite off v) s = .next s))
    ∧ (v.getLsbD 3 = true → s.resetAllowed = true → exec (.registerWrite 0x010 v) s = exec .reset s)
    ∧ (s.resetAllowed = false ↔ s.mgmt.therm = true ∧ ∃ d ∈ s.dies, 70 * 16 ≤ d.2.temp)
    ∧ (v.getLsbD 3 = false ∨ s.resetAllowed = false → s.mgmt.started = false →
      exec (.registerWrite 0x010 v) s = if v.getLsbD 0 then exec .start s else .next s)
    ∧ (v.getLsbD 3 = false ∨ s.resetAllowed = false → s.mgmt.started = true →
      exec (.registerWrite 0x010 v) s
        = if v.getLsbD 2 then exec .resync { s with mgmt := { s.mgmt with qen := v.getLsbD 1 } }
          else .next { s with mgmt := { s.mgmt with qen := v.getLsbD 1 } })
    ∧ exec (.registerWrite 0x088 v) s = exec (.powercap v) s
    ∧ exec (.registerWrite 0x020 v) s = .next { s with mgmt := { s.mgmt with featReq := v } }
    ∧ exec (.registerWrite 0x080 v) s = .next { s with mgmt := { s.mgmt with podmap := v } }
    ∧ (s.mgmt.started = true →
      exec (.qen on) s = .next { s with mgmt := { s.mgmt with qen := on } }
      ∧ (∃ t : State, exec (.powercap v) s = .next t ∧ 50 ≤ t.mgmt.powercap ∧ t.mgmt.powercap ≤ 300
          ∧ (50 ≤ field v 0 16 → field v 0 16 ≤ 300 → t.mgmt.powercap = field v 0 16)
          ∧ t = { s with mgmt := { s.mgmt with powercap := t.mgmt.powercap } })
      ∧ exec (.registerWrite 0x040 v) s = .next { s with mgmt := { s.mgmt with cmdqTail := v.setWidth 32 } }
      ∧ exec (.registerWrite 0x060 v) s = .next { s with mgmt := { s.mgmt with cplqHead := v.setWidth 32 } }
      ∧ (s.mgmt.qen = true → exec (.registerWrite 0x030 v) s = .next s ∧ exec (.registerWrite 0x038 v) s = .next s
          ∧ exec (.registerWrite 0x050 v) s = .next s ∧ exec (.registerWrite 0x058 v) s = .next s)
      ∧ (s.mgmt.qen = false →
        exec (.registerWrite 0x030 v) s = .next { s with mgmt := { s.mgmt with cmdqBase := v &&& ~~~0xFFF#64 } }))

/-- What the management block reads: IDENT, STATUS by its fields, the features asked for; before START nothing else; after it
CONTROL, the rings, the hottest die (of several the lowest, the model's choice, log 80) and the firmware's version; what is not
listed reads 0 (R443 to R446). -/
def Spec.RegistersAreRead : Prop :=
  ∀ (s : State) (off : Nat),
    s.readRegister 0x000 = 1 ∧ s.readRegister 0x018 = s.featOffer ∧ s.readRegister 0x020 = s.mgmt.featReq
    ∧ s.readRegister 0x080 = s.mgmt.podmap
    ∧ (s.inService = false → s.featOffer = 0)
    ∧ (s.mgmt.lcs < 8 → s.mgmt.rcause < 256 →
      field (s.readRegister 0x008) 0 3 = s.mgmt.lcs ∧ (s.readRegister 0x008).getLsbD 3 = false
      ∧ (s.readRegister 0x008).getLsbD 4 = s.mgmt.ready ∧ (s.readRegister 0x008).getLsbD 5 = s.mgmt.started
      ∧ (s.readRegister 0x008).getLsbD 6 = s.mgmt.rsb ∧ (s.readRegister 0x008).getLsbD 7 = s.mgmt.therm
      ∧ field (s.readRegister 0x008) 8 8 = s.mgmt.rcause ∧ field (s.readRegister 0x008) 16 48 = 0)
    ∧ (s.mgmt.started = false → off ∉ [0x000, 0x008, 0x018, 0x020, 0x080] → s.readRegister off = 0)
    ∧ (s.mgmt.started = true →
      (s.readRegister 0x010).getLsbD 0 = true ∧ (s.readRegister 0x010).getLsbD 1 = s.mgmt.qen
      ∧ (s.readRegister 0x010).getLsbD 2 = s.mgmt.rsb ∧ field (s.readRegister 0x010) 3 61 = 0
      ∧ s.readRegister 0x028 = s.mgmt.featSet ∧ s.readRegister 0x030 = s.mgmt.cmdqBase ∧ s.readRegister 0x050 = s.mgmt.cplqBase
      ∧ s.readRegister 0x0A8 = s.devStore.errata
      ∧ (0x400 ≤ off → s.readRegister off = 0)
      ∧ ∃ d, d < 64 ∧ field (s.readRegister 0x0A0) 16 48 = d ∧ (∀ e, e < 64 → (s.die e).temp ≤ (s.die d).temp)
          ∧ (∀ e, e < d → (s.die e).temp < (s.die d).temp) ∧ field (s.readRegister 0x0A0) 0 16 = (s.die d).temp % 2 ^ 16)

/-- RESYNC closes the queue, and, once no command that was read is left to perform, writes the inventory where one is asked
for and empties both rings, the waiting records and the events; a second one, and one before START, does nothing (R446,
R450). -/
def Spec.ResyncEmptiesTheQueues : Prop :=
  ∀ s : State,
    (s.mgmt.rsb = true ∨ s.mgmt.started = false → exec .resync s = .next s)
    ∧ (s.mgmt.rsb = false → s.mgmt.started = true →
      (s.commandsOpen = true →
        exec .resync s = .next { s with mgmt := { s.mgmt with rsb := true, qen := false } })
      ∧ (s.commandsOpen = false →
        ∃ t : State, exec .resync s = .next t ∧ t.mgmt.rsb = false ∧ t.mgmt.qen = false ∧ t.mgmt.waiting = []
          ∧ t.mgmt.events = [] ∧ t.mgmt.lost = 0 ∧ t.mgmt.cmdqHead = 0 ∧ t.mgmt.cmdqTail = 0 ∧ t.mgmt.cplqHead = 0
          ∧ t.mgmt.cplqTail = 0 ∧ t.ctxs = s.ctxs ∧ (s.mgmt.invAddr = 0 → t.mem = s.mem)))

/-- The operating point falls by one above the power cap, and rises by one, up to 17, 500 W or more below it, and OPPOINT shows
its clock and the highest supply of a die; a die above 105 °C stops the module and faults every context; throttling begins above
95 °C and ends below 90 °C, and changes nothing else (R443, R456, R457). -/
def Spec.PowerAndHeat : Prop :=
  ∀ (s : State) (die temp draw : Nat),
    (∃ t : State, exec (.powerControl draw) s = .next t ∧ t.mgmt.power = draw % 2 ^ 16 ∧ t.mem = s.mem ∧ t.cores = s.cores
      ∧ (s.mgmt.powercap * 100 < draw * 10 → t.mgmt.point = s.mgmt.point - 1)
      ∧ (draw * 10 + 500 ≤ s.mgmt.powercap * 100 → s.mgmt.point < 17 → t.mgmt.point = s.mgmt.point + 1)
      ∧ (draw * 10 ≤ s.mgmt.powercap * 100 → s.mgmt.powercap * 100 < draw * 10 + 500 ∨ 17 ≤ s.mgmt.point →
          t.mgmt.point = s.mgmt.point)
      ∧ t.mgmt.oppoint % 2 ^ 16 = (425 + 25 * t.mgmt.point) % 2 ^ 16
      ∧ (s.mgmt.point ≤ 17 → (∀ d, d < 64 → t.supplyOf d ≤ t.mgmt.oppoint / 2 ^ 16)
          ∧ ∃ d, d < 64 ∧ t.supplyOf d = t.mgmt.oppoint / 2 ^ 16))
    ∧ ∀ i, i ∈ [Instr.thermalStop die temp, .thermalThrottle die temp, .dieTemperatureFall die temp] →
      ∃ t : State, exec i s = .next t ∧ (t.die die).temp = temp ∧ t.mem = s.mem
        ∧ (t.die die).throttled = (decide (95 * 16 < temp) || ((s.die die).throttled && decide (90 * 16 ≤ temp)))
        ∧ (105 * 16 < temp → t.mgmt.therm = true
            ∧ (s.mgmt.therm = false → ∀ e ∈ s.ctxs, .contextFault e.1 7 die 0xFFFFF 0 ∈ t.agenda))
        ∧ (temp ≤ 105 * 16 ∨ s.mgmt.therm = true → t = { s with dies := t.dies })

end Sys2Proof

/-! The statements, in the order of the sections above. -/

open Sys2Proof Sys2Proof.Machine Sys2Proof.Spec

/-- Every instruction that computes writes its value to x[d] and changes nothing else but the pc, which moves past
it, and minstret (R18, R116, R117; compressed forms by R86, R120). A write of x0 is discarded (R18). -/
def Obligations.ComputeWritesItsValue : Prop :=
  ∀ (i : Instr) (s : State) (d : Reg) (v : Word), computed (expand i s.ir).1 s = some (d, v) → s.idle →
    ∃ t, exec i s = .next t ∧ s.writesX t d v ∧ t.pc = s.pc + BitVec.ofNat 64 (expand i s.ir).2
      ∧ t.me.minstret = s.me.minstret + 1 ∧ s.me.sameButX t.me ∧ s.sameElse t

/-- A branch goes to the pc plus its offset where its condition holds, and else past itself; no register changes
(R116). -/
def Obligations.BranchGoesWhereItsConditionSays : Prop :=
  ∀ (i : Instr) (s : State) (off : Word) (taken : Bool), branchOf (expand i s.ir).1 s = some (off, taken) → s.idle →
    ∃ t, exec i s = .next t ∧ t.pc = s.pc + (if taken then off else BitVec.ofNat 64 (expand i s.ir).2)
      ∧ (∀ r, t.x r = s.x r) ∧ s.me.sameButX t.me ∧ s.sameElse t

/-- bsubnz writes the difference to x[xs] and branches where it is positive (R133). -/
def Obligations.BsubnzSubtractsAndBranchesWhilePositive : Prop :=
  ∀ (a b : Reg) (off : BitVec 12) (s : State), s.idle →
    ∃ t, exec (.bsubnz a b off) s = .next t ∧ s.writesX t a (s.x a - s.x b)
      ∧ t.pc = s.pc + (if 0 < (s.x a - s.x b).toInt then (off ++ (0 : BitVec 1)).signExtend 64 else 4)
      ∧ s.me.sameButX t.me ∧ s.sameElse t

/-- A jump goes to its target and links the address behind it (R116, R117). -/
def Obligations.JumpLinksAndGoes : Prop :=
  ∀ (i : Instr) (s : State) (d : Reg) (target : Word), jumpOf (expand i s.ir).1 s = some (d, target) → s.idle →
    ∃ t, exec i s = .next t ∧ t.pc = target ∧ s.writesX t d (s.pc + BitVec.ofNat 64 (expand i s.ir).2)
      ∧ s.me.sameButX t.me ∧ s.sameElse t



/-- A load reads its bytes and writes them, extended, to x[d]; a load to x0 performs its access too (R117). What the
access leaves is `s1`; what it may change is stated by LoadChangesNoByte. -/
def Obligations.LoadWritesWhatItReads : Prop :=
  ∀ (i : Instr) (s s1 : State) (d : Reg) (va : Word) (n : Nat) (sg : Bool) (bs : List Byte),
    loadOf (expand i s.ir).1 s = some (d, va, n, sg) → s.idle → s.read va n = .ok bs s1 →
      exec i s = .next (s1.wrote d
        (if sg then ((BitVec.ofNat (8 * bs.length) (natLE bs)).signExtend 64) else BitVec.ofNat 64 (natLE bs))
        (expand i s.ir).2)

/-- A store hands the low bytes of x[rs2] to memory at its address; a dword store to the control window of a serving core
submits a command (R117, R375). -/
def Obligations.StoresWriteTheirRegister : Prop := Spec.StoreWritesItsRegister ∧ Spec.StoreToTheControlWindowSubmits

/-- A load of plain memory reads the bytes there, and no load changes a byte or a register (R317, R318, R325, R327). -/
def Obligations.LoadsReadMemoryAndChangeNothing : Prop := Spec.LocalLoadReadsMemory ∧ Spec.LoadChangesNoByte

/-- An exception of an instruction on a core that serves a context, unless its control context still stands at rt: S-mode
at stvec, with sepc the instruction's address, scause and stval; nothing of the hardware context is in flight any more, its
reservation is gone, and it stands in no mwait (R49, R123, R214, R289). -/
def Obligations.TrapEntersSupervisorMode : Prop :=
  ∀ (s : State) (cause : Nat) (tval : Word) (tag l : Nat),
    s.myCore.serving = some (tag, l) → cause ≠ 19 → (cause = 31 → s.cur.h = 0) → ¬ (s.cur.h = 0 ∧ s.atRt tag = true) →
    ∃ t, s.trap cause tval = .next t ∧ t.me.sepc = s.pc ∧ t.me.scause = BitVec.ofNat 64 cause ∧ t.me.stval = tval
      ∧ t.me.mode = .s ∧ t.pc = s.myCore.img.stvec &&& ~~~3#64 ∧ statusEntersS s.me t.me
      ∧ (∀ r, t.x r = s.x r) ∧ t.me.v = s.me.v ∧ t.me.d = s.me.d ∧ t.me.vexc = s.me.vexc ∧ t.me.vl = s.me.vl
      ∧ t.me.vtype = s.me.vtype ∧ t.me.chain = [] ∧ t.me.windows = [] ∧ t.me.resv = none ∧ s.leaveMwait.sameElse t

/-- An exception on a core that serves no context: M-mode at mtvec with mepc, mcause and mtval, or S-mode where medeleg
delegates the cause from below M-mode (R137); a machine check stops the hardware context, is counted, and is told in mepc,
mcause and mtval (R289, R432, R439; that mtval is used is the model's choice, log 67). -/
def Obligations.TrapOnAManagerCoreEntersMachineMode : Prop :=
  ∀ (s : State) (cause : Nat) (tval : Word), s.myCore.serving = none →
    (cause = 19 → ∃ t, s.trap 19 tval = .next t ∧ t.me.stopped = true ∧ t.me.mepc = s.pc ∧ t.me.mcause = 19
      ∧ t.me.mtval = tval ∧ t.me.mode = s.me.mode ∧ t.pc = s.pc ∧ t.me.chain = [] ∧ (∀ r, t.x r = s.x r) ∧ t.mem = s.mem
      ∧ t.myCore.crec.uncorr = s.myCore.crec.uncorr + 1)
    ∧ (cause ≠ 19 →
    ∃ t, s.trap cause tval = .next t ∧ (∀ r, t.x r = s.x r) ∧ t.me.chain = [] ∧ t.me.resv = none ∧ s.leaveMwait.sameElse t
      ∧ (if s.me.mode ≠ .m ∧ s.myCore.medeleg.getLsbD cause = true then
          t.me.mode = .s ∧ t.me.sepc = s.pc ∧ t.me.scause = BitVec.ofNat 64 cause ∧ t.me.stval = tval
            ∧ t.pc = s.myCore.img.stvec &&& ~~~3#64 ∧ statusEntersS s.me t.me
         else
          t.me.mode = .m ∧ t.me.mepc = s.pc ∧ t.me.mcause = BitVec.ofNat 64 cause ∧ t.me.mtval = tval
            ∧ t.pc = s.myCore.mtvec &&& ~~~3#64 ∧ t.me.mstatus.getLsbD stMPIE = s.me.mstatus.getLsbD stMIE
            ∧ t.me.mstatus.getLsbD stMIE = false ∧ field t.me.mstatus stMPP 2 = s.me.mode.code))

/-- What a trap makes of instructions in flight, and of a control context that still stands at rt (R46, R49, R403, R440). -/
def Obligations.TrapsStopWhatIsInFlight : Prop := Spec.TrapAtRtStopsTheControlContext ∧ Spec.TrapRecordsWhatIsInFlight

/-- ecall takes the environment-call trap of its mode with xtval 0, ebreak and c.ebreak the breakpoint trap with
xtval the pc, and an encoding that decodes to nothing the illegal-instruction trap with its bits in xtval; the entry is
their effect (R82, R101, R119). -/
def Obligations.SystemTrapsAreTaken : Prop :=
  ∀ s : State,
    (s.idle → exec .ecall s
      = .next (s.takeAt { cause := match s.me.mode with | .u => 8 | .s => 9 | .m => 11, tval := 0 } s.pc))
    ∧ (s.idle → exec .ebreak s = .next (s.takeAt { cause := 3, tval := s.pc } s.pc))
    ∧ (s.idle → exec .cEbreak s = .next (s.takeAt { cause := 3, tval := s.pc } s.pc))
    ∧ exec .illegalInstruction s = .next (s.takeAt { cause := 2, tval := s.ir.setWidth 64 } s.pc)

/-- sret and mret in a mode that may use them (R49, R119, R137); an sret of a hardware context whose PAGE has answered FATAL
or NO_MEMORY, where the runtime must end the task, faults the context (R14, R391). -/
def Obligations.ReturnsRestoreModeStatusAndPc : Prop :=
  ∀ s : State, s.idle →
    (s.me.mode ≠ .u → ¬ (s.me.mode = .s ∧ s.me.mstatus.getLsbD stTSR = true) → s.me.endTask = true →
      exec .sret s = .next (s.post (.contextFault s.myTag 6 (dieOf s.cur.core) s.myCore.lcore 0)))
    ∧ (s.me.mode ≠ .u → ¬ (s.me.mode = .s ∧ s.me.mstatus.getLsbD stTSR = true) → s.me.endTask = false →
      ∃ t, exec .sret s = .next t ∧ returnsFromS s.me t.me ∧ resumesAt s.me t.me s.me.sepc
        ∧ (∀ r, t.x r = s.x r) ∧ t.me.v = s.me.v ∧ t.me.sepc = s.me.sepc ∧ t.me.scause = s.me.scause ∧ s.sameElse t)
    ∧ (s.me.mode = .m →
      ∃ t, exec .mret s = .next t ∧ returnsFromM s.me t.me ∧ resumesAt s.me t.me s.me.mepc
        ∧ (∀ r, t.x r = s.x r) ∧ t.me.v = s.me.v ∧ t.me.mepc = s.me.mepc ∧ t.me.mcause = s.me.mcause ∧ s.sameElse t)

/-- The instructions of R119 below their privilege take an illegal-instruction trap (R119). -/
def Obligations.SystemInstructionsBelowTheirPrivilegeTrap : Prop :=
  ∀ (s : State) (a b : Reg),
    (s.me.mode = .u → exec .sret s = s.illegal ∧ exec .wfi s = s.illegal ∧ exec (.sfenceVma a b) s = s.illegal)
    ∧ (s.me.mode ≠ .m → exec .mret s = s.illegal)

/-- wfi goes on where one of its events is there, and waits else; sfence.vma discards the entries of the core's
micro-TLB and lane banks that match, and keeps the others (R119). -/
def Obligations.WfiWaitsAndSfenceDiscards : Prop :=
  ∀ s : State, s.idle → s.me.mode ≠ .u →
    (¬ (s.me.mode = .s ∧ s.me.mstatus.getLsbD stTW = true) →
      exec .wfi s = .next (if s.wfiEnds then s.passed 4 else s))
    ∧ ∀ (a b : Reg) (s1 : State), ¬ (s.me.mode = .s ∧ s.me.mstatus.getLsbD stTVM = true) →
      s.performed → s.flush s.cur.core = .ok () s1 →
      ∃ t, exec (.sfenceVma a b) s = .next t ∧ t.pc = s1.pc + 4 ∧ (∀ r, t.x r = s1.x r) ∧ t.mem = s1.mem
        ∧ t.cur = s1.cur
        ∧ ∀ e, e ∈ t.myCore.microTlb ↔ e ∈ s1.myCore.microTlb
            ∧ ¬ ((a = 0 ∨ (e.va ≤ (s1.x a).toNat ∧ (s1.x a).toNat < e.va + e.size))
                  ∧ (b = 0 ∨ e.tag = (s1.x b).toNat % 4096))

/-- CSR instructions where the access may be, and where it may not (R20, R102, R135). -/
def Obligations.CsrInstructionsReadAndWrite : Prop := Spec.CsrReadsThenWrites ∧ Spec.CsrAccessThatMayNotBeTraps

/-- What CSRs read after a write (R20 to R23, R25, R67, R197, R290, R301, R323, R384). -/
def Obligations.CsrsReadAsWritten : Prop :=
  Spec.VectorControlsReadAsWritten ∧ Spec.CoreControlsReadAsWritten ∧ Spec.SharesReadAsWritten
    ∧ Spec.ChainRecordReadsAsWritten ∧ Spec.PendingBitsReadAsWritten

/-- The AMOs and amocas (R121, R122, R124). -/
def Obligations.AtomicsReadModifyAndWrite : Prop := Spec.AmoReadsModifiesAndWrites ∧ Spec.AmocasWritesOnAMatch

/-- A store, or an atomic, to memory or to a scratchpad changes the bytes it stores and no other (R122, R124, R315, R318,
R326, R334). -/
def Obligations.StoresChangeTheirBytesAlone : Prop :=
  Spec.StoreChangesItsBytesAlone ∧ Spec.ScratchStoreChangesItsBytesAlone ∧ Spec.AtomicOnScratchChangesItsBytesAlone
    ∧ Spec.AtomicOnMemoryChangesItsBytesAlone

/-- lr reads, and holds the reservation on the line of its place; sc with a reservation that holds stores and gives 0, any
other gives 1 and stores nothing, and the reservation is gone either way (R123, R334). That lr translates as a load, and that
an sc without a reservation translates as a store too, is the model's reading (log 24). -/
def Obligations.LrReservesAndScConsumes : Prop :=
  ∀ (s s1 s2 s3 : State) (d a b : Reg) (aq rl : Bool) (pl : Place) (bs : List Byte),
    s.idle → (aq || rl) = false ∨ s.performed →
    (∀ n, n = 4 ∨ n = 8 → (s.x a).toNat % n = 0 → s.dataPlace .load (s.x a) n = .ok pl s1 →
      s1.flush s1.cur.core = .ok () s2 → s2.reserve pl n aq = .ok bs s3 →
        exec (if n = 4 then .lrW d a aq rl else .lrD d a aq rl) s = .next (s3.wrote d (extend true bs) 4)
        ∧ s3.me.resv = some { line := pl.loc.line })
    ∧ (∀ n, n = 4 ∨ n = 8 → (s.x a).toNat % n = 0 → s.dataPlace .store (s.x a) n = .ok pl s1 →
      s1.flush s1.cur.core = .ok () s2 →
        (s2.scHolds pl = true → s2.scStore pl rl (lowBytes n (s.x b)) = .ok () s3 →
          exec (if n = 4 then .scW d a b aq rl else .scD d a b aq rl) s
            = .next ((s3.onMe (fun t => { t with resv := none })).wrote d 0 4))
        ∧ (s2.scHolds pl = false →
          exec (if n = 4 then .scW d a b aq rl else .scD d a b aq rl) s
            = .next ((s2.onMe (fun t => { t with resv := none })).wrote d 1 4)))

/-- A misaligned scalar load takes cause 4, a misaligned scalar store and a misaligned atomic cause 6, with the address in xtval
(R117, R121). -/
def Obligations.MisalignedAccessTraps : Prop := Spec.MisalignedScalarAccessTraps ∧ Spec.MisalignedAtomicTraps

/-- ldacq reads as an acquire at its scope and writes x[d], sign-extended, and opens its window; strel stores as a
release at its scope once every earlier access is performed (R125 to R127, R130). -/
def Obligations.AcquireLoadsAndReleaseStores : Prop :=
  ∀ (s s1 : State) (l : BitVec 4) (d a : Reg) (w : BitVec 2) (scope : BitVec 3), s.idle →
    (∀ bs, s.acquireLoad (s.x a) (2 ^ w.toNat) scope = .ok bs s1 →
      ∃ t, exec (.ldacq l d a w scope) s = .next t ∧ s1.writesX t d (extend true bs) ∧ t.pc = s1.pc + 4
        ∧ t.mem = s1.mem ∧ s1.sameElse t
        ∧ (l ≠ 0 → s1.hold = false → s1.me.windows = [] →
            ∃ id, t.me.windows = [{ id := id, left := l.toNat, reads := [], writes := xs [d], masked := false }]))
    ∧ (s.performed → s.releaseStore (s.x a) (lowBytes (2 ^ w.toNat) (s.x d)) scope = .ok () s1 →
      exec (.strel l d a w scope) s = .next (s1.passedLong l [] []))

/-- fence, fence.i and ofence, and the drain of those at .mod and wider (R118, R129, R332, R333). -/
def Obligations.FencesComplete : Prop :=
  Spec.FenceIsAnOfenceAtSys ∧ Spec.OfencePerformsItsPredecessors ∧ Spec.DrainLeavesNoOldDirtyLine

/-- vcfg by its grant (R24, R27, R28, R134). -/
def Obligations.VcfgConfiguresOrTraps : Prop := Spec.GrantIsThatOfTheShare ∧ Spec.VcfgConfiguresAndClears ∧ Spec.VcfgThatDoesNotFitTraps

/-- vsetl: the strip it grants, and the traps it takes (R131, R132). -/
def Obligations.VsetlGrantsOrTraps : Prop := Spec.VsetlGrantsTheStrip ∧ Spec.VsetlTakesItsTrapsInOrder

/-- Elementwise instructions run group by group (R22, R36, R38, R39, R138 to R166), and their integer operations are those of
the integers that the elements stand for (R52, R144 to R149). -/
def Obligations.ElementwiseInstructionsActElementByElement : Prop :=
  Spec.ElementwiseRunsGroupByGroup ∧ Spec.IntegerElementsWrapAndSaturate

/-- vid names no source, and writes vd[i] := i mod 2^SEW into each active element (R164). -/
def Obligations.VidNumbersTheActiveElements : Prop :=
  ∀ (s : State) (o : VuArgs) (f : Fmt), Instr.wf (.vid o) = true → s.fmt = some f → f.isInt = true →
    vectorReady s f.arithClass → s.me.lengthFits → s.me.fmtFits f = true →
    o.vs2 = 0 ∧ ∃ t, exec (.vid o) s = .next t ∧ vectorDone s t
      ∧ (∀ i, i < s.me.vl.toNat → (!o.m || (s.me.v.get 0).getLsbD i) = true →
          elemAt (t.me.vget o.vd) f.sew i = i % 2 ^ f.sew)
      ∧ (∀ r, r ≠ o.vd → t.me.vget r = s.me.vget r) ∧ t.me.d = s.me.d ∧ t.me.vexc = s.me.vexc

/-- Reductions and the scan (R76 to R78, R191 to R193). -/
def Obligations.ReductionsAndScansFoldInOrder : Prop := Spec.ReductionsFoldInTheirOrder ∧ Spec.ScanSumsInElementOrder

/-- vcompress, vmpop, vmfirst, vmvxs and vmvsx (R158, R165, R166). -/
def Obligations.CompressionAndMaskCounts : Prop := Spec.CompressPacksTheSelected ∧ Spec.MaskCountsAndScalarMoves

/-- vcvt converts each active element (R68, R70 to R74, R167, R168), and the rounding that it and the arithmetic of elements
use is the one of the format's grid (R53, R62 to R65). -/
def Obligations.ConvertConvertsEachElement : Prop :=
  Spec.ConvertWritesItsElements ∧ Spec.RoundingTakesANeighbour ∧ Spec.ArithmeticRoundsTheExactResult

/-- vbexp, vbpack and vbdot (R170 to R173). -/
def Obligations.BlockInstructionsActBlockByBlock : Prop :=
  Spec.VbexpWritesScaleCodes ∧ Spec.VbpackQuantisesBlocks ∧ Spec.VbdotAddsBlocks

/-- Vector loads, stores and atomics run to their end, and a store and an atomic are the accesses of their elements, at their
addresses and of their widths, one after another (R45, R174 to R189; a store's progress word is written after each group). -/
def Obligations.VectorMemoryRunsElementByElement : Prop :=
  Spec.VectorMemoryRunsToItsEnd ∧ Spec.VectorStoresStoreTheirElements ∧ Spec.NibblesAreMerged
    ∧ Spec.VectorAtomicsActOnTheirElements

/-- A vector load of plain memory, of any mode: each active element is what memory holds at its address, a pad element is
zero, an inactive one and the tail keep their values (R60, R176 to R180). -/
def Obligations.VectorLoadReadsItsElements : Prop :=
  ∀ (s : State) (o : VmArgs) (mode : VmMode) (f : Fmt), s.fmt = some f → mode.fmtOk f = true →
    flightReady s 0 → s.me.lengthFits → s.me.fmtFits f = true → (o.m = true → o.d ≠ 0) →
    s.myCore.serving = none → s.me.dataPriv.mode = .m → s.myCore.img.stores = [] → s.unshadowed →
    (∀ i, i < s.me.vl.toNat - s.me.vpad.toNat → (!o.m || (s.me.v.get 0).getLsbD i) = true →
      plainAt s (addressOf s.me (s.x o.a) mode o.b f.sew i).toNat (max 1 (f.sew / 8))) →
    ∃ t, exec (match mode with | .unit => .vld o | .strided => .vldSt o | .indexed => .vldIx o) s = .next t ∧ t.pc = s.pc + 4 ∧ t.mem = s.mem
      ∧ (∀ r, t.x r = s.x r) ∧ (∀ r, r ≠ o.d → t.me.vget r = s.me.vget r) ∧ t.me.vexc = s.me.vexc ∧ t.me.chain = []
      ∧ ∀ i, i < 16384 / f.sew → elemAt (t.me.vget o.d) f.sew i =
          if s.me.vl.toNat ≤ i ∨ (!o.m || (s.me.v.get 0).getLsbD i) = false then elemAt (s.me.vget o.d) f.sew i
          else if s.me.vl.toNat - s.me.vpad.toNat ≤ i then 0
          else fixI3g f (loadedElem s.mem f.sew (addressOf s.me (s.x o.a) mode o.b f.sew i).toNat i)

/-- A distribution instruction on registers acts on the elements below vl in ascending order, each written whole, with the
tag set written at issue, and opens its window; x, memory and every register it does not write keep their values (R219,
R220, R223 to R233, R237). -/
def Obligations.DistributionInstructionsActOnEachElement : Prop :=
  ∀ (i : Instr) (s : State) (l : BitVec 4) (ds : List DReg8) (xa xb : Word) (also : Hart → Hart)
    (act : Flight → Nat → Hart → Hart),
    distOf i s = some (l, ds, xa, xb, also, act) → flightReady s 60 → s.me.vl.toNat ≤ 512 → vtFmt s.me.vtype = 0x0A →
    s.me.fmtFits (.fp .fp32) = true → ds.all (fun d => decide (d.val < cfgNd s.me.vcfgst)) = true →
    ∃ t u, exec i s = .next t ∧ u = (List.range s.me.vl.toNat).foldl (fun h k => act (flightOf s i xa xb) k h) (also s.me)
      ∧ t.me.d = u.d ∧ t.me.v = u.v ∧ t.me.dtag = u.dtag ∧ t.pc = s.pc + 4 ∧ t.me.chain = [] ∧ (∀ r, t.x r = s.x r)
      ∧ t.me.windows.length = 1 ∧ t.me.vexc = s.me.vexc ∧ t.me.vl = s.me.vl ∧ t.me.vtype = s.me.vtype
      ∧ t.me.vcfgst = s.me.vcfgst ∧ t.me.mstatus = s.me.mstatus ∧ s.sameElse t

/-- dtag is LX funct3 0b010, f3b 0b000, with b zero; it writes dd's tag set := x[xa][15:0], whatever the bits above are,
and changes no element, whatever vl is (R228). -/
def Obligations.DtagWritesItsTagSet : Prop :=
  ∀ (s : State) (l : BitVec 4) (d : DReg8) (a : Reg),
    encode32 (.dtag l d a) = some (l ++ 0b000#3 ++ 0b00000#5 ++ BitVec.ofNat 5 a.val ++ 0b010#3 ++ BitVec.ofNat 5 d.val
      ++ 0b1011011#7)
    ∧ decode (bytesLE 4 (l ++ 0b000#3 ++ 0b00000#5 ++ BitVec.ofNat 5 a.val ++ 0b010#3 ++ BitVec.ofNat 5 d.val
        ++ 0b1011011#7).toNat)
      = .ok { instr := .dtag l d a, len := 4,
              bits := l ++ 0b000#3 ++ 0b00000#5 ++ BitVec.ofNat 5 a.val ++ 0b010#3 ++ BitVec.ofNat 5 d.val ++ 0b1011011#7 }
    ∧ (flightReady s 60 → vtFmt s.me.vtype = 0x0A → s.me.fmtFits (.fp .fp32) = true → d.val < cfgNd s.me.vcfgst →
      ∃ t, exec (.dtag l d a) s = .next t ∧ t.me.tags d = (s.x a).extractLsb' 0 16
        ∧ (∀ q, q ≠ d → t.me.tags q = s.me.tags q) ∧ t.me.d = s.me.d ∧ t.me.v = s.me.v ∧ t.pc = s.pc + 4
        ∧ (∀ r, t.x r = s.x r) ∧ t.me.vexc = s.me.vexc ∧ s.sameElse t)

/-- dld and dst, and the bytes of an element (R234 to R236). -/
def Obligations.DistributionTransfersCarryTheirElements : Prop := Spec.DistributionTransfersRunOrTrap ∧ Spec.ElementBytesRoundTrip


/-- vst and vst.st: their progress words, checked at issue and written after each group, and a primitive's submission (R186,
R187, R355, R356). -/
def Obligations.VectorStoresNotifyAndSubmit : Prop :=
  Spec.ProgressWordIsCheckedAtIssue ∧ Spec.ProgressFollowsTheElements ∧ Spec.NotifyingStoresAndSubmissionsComplete

/-- The graphics instructions on registers (R239 to R246, R251). -/
def Obligations.GraphicsRecordsAreComputed : Prop :=
  Spec.RecordsActInOrder ∧ Spec.XedgeCoversWhatLiesInside ∧ Spec.VdedupCollectsEqualIds

/-- tfetch, gfeat and zcommit: their descriptors, and what their records come to (R239, R247 to R256). -/
def Obligations.DescribedGraphicsRunOrFault : Prop :=
  Spec.DescriptorsAreChecked ∧ Spec.DescribedRecordsAreCarriedOut ∧ Spec.TexelsLieInRows

/-- mcfg, mwexp, mzero, mrelease and mwait: what each leaves of the configuration, the in-use bits and the tiles (R198,
R200, R206, R209). -/
def Obligations.MatrixConfigurationAndTiles : Prop :=
  ∀ (s : State) (l : BitVec 4) (a b : Reg) (n : TileNo),
    (matrixReady s (matClass ((s.x a).getLsbD 3) (field (s.x a) 4 6) (field (s.x a) 10 6)) → s.myCore.img.inUse = 0 →
      field (s.x a) 16 48 = 0 → field (s.x a) 0 3 ≤ 4 →
      matPair ((s.x a).getLsbD 3) (field (s.x a) 4 6) (field (s.x a) 10 6) = true →
      ∃ t, exec (.mcfg l a) s = .next t ∧ matrixDone s t ∧ t.myCore.img.acc = s.myCore.img.acc
        ∧ t.myCore.img.inUse = 0
        ∧ t.myCore.img.mcfg = { nt := field (s.x a) 0 3, iacc := (s.x a).getLsbD 3, afmt := (s.x a).extractLsb' 4 6,
                                bfmt := (s.x a).extractLsb' 10 6, ablk := 0, bblk := 0, soff := 512 })
    ∧ (matrixReady s s.myCore.img.mcfg.cls → field (s.x a) 0 3 ≤ 4 → field (s.x a) 3 3 ≤ 4 → field (s.x a) 6 58 = 0 →
      (s.x b).toNat % 64 = 0 → 512 ≤ (s.x b).toNat → (s.x b).toNat ≤ 24064 →
      ∃ t, exec (.mwexp l a b) s = .next t ∧ matrixDone s t ∧ t.myCore.img.acc = s.myCore.img.acc
        ∧ t.myCore.img.inUse = s.myCore.img.inUse
        ∧ t.myCore.img.mcfg = { s.myCore.img.mcfg with ablk := (s.x a).extractLsb' 0 3, bblk := (s.x a).extractLsb' 3 3,
                                                       soff := (s.x b).toNat })
    ∧ (matrixReady s s.myCore.img.mcfg.cls → n.val < s.myCore.img.mcfg.nt →
      (∃ t, exec (.mzero l n) s = .next t ∧ matrixDone s t ∧ t.myCore.img.mcfg = s.myCore.img.mcfg
        ∧ t.myCore.img.inUse = s.myCore.img.inUse
        ∧ ∀ m x y, x < 8 → y < 8 → t.myCore.img.cell m x y = if m = n.val then 0 else s.myCore.img.cell m x y)
      ∧ (∃ t, exec (.mrelease l n) s = .next t ∧ matrixDone s t ∧ t.myCore.img.mcfg = s.myCore.img.mcfg
        ∧ (∀ k, k < 4 → t.myCore.img.inUse.getLsbD k = (k != n.val && s.myCore.img.inUse.getLsbD k))
        ∧ ∀ m x y, x < 8 → y < 8 → t.myCore.img.cell m x y = if m = n.val then 0 else s.myCore.img.cell m x y)
      ∧ ∃ t, exec (.mwait l n) s = .next t ∧ matrixDone s t ∧ t.myCore.img.mcfg = s.myCore.img.mcfg
        ∧ t.myCore.img.inUse = s.myCore.img.inUse ∧ t.myCore.img.acc = s.myCore.img.acc)

/-- mopa adds the product of its panels to each cell of its tile; mld reads the tile's rows from scratchpad, and mst writes
them there, where mst.rel also frees the tile; other tiles and bytes keep their values (R201 to R208, R211). -/
def Obligations.MatrixProductsAndTransfers : Prop :=
  ∀ (s : State) (l : BitVec 4) (a b : Reg) (n : TileNo) (g : MatCfg), g = s.myCore.img.mcfg → matrixReady s g.cls →
    n.val < g.nt →
    (∀ pa pb : Nat × Nat, g.noBlock = false → (s.x a).toNat % 64 = 0 → (s.x b).toNat % 64 = 0 →
      s.scratchAt s.cur.core (s.x a) (g.extent (matFmt g.afmt)) = some pa →
      s.scratchAt s.cur.core (s.x b) (g.extent (matFmt g.bfmt)) = some pb →
      ∃ t, exec (.mopa l n a b) s = .next t ∧ matrixDone s t ∧ t.myCore.img.mcfg = g
        ∧ (∀ k, k < 4 → t.myCore.img.inUse.getLsbD k = (k == n.val || s.myCore.img.inUse.getLsbD k))
        ∧ (∀ c o, t.scratchByte c o = s.scratchByte c o)
        ∧ ∀ m x y, x < 8 → y < 8 → t.myCore.img.cell m x y =
            if m = n.val then
              productCell g (s.myCore.img.cell m x y) (s.scratchBytes pa.1 pa.2 (g.extent (matFmt g.afmt)))
                (s.scratchBytes pb.1 pb.2 (g.extent (matFmt g.bfmt))) x y
            else s.myCore.img.cell m x y)
    ∧ (∀ rows : Nat → Nat × Nat, (s.x a).toNat % 4 = 0 → (s.x b).toNat % 4 = 0 →
      (∀ i, i < 8 → s.scratchAt s.cur.core (s.x a + BitVec.ofNat 64 i * s.x b) 32 = some (rows i)) →
      (∃ t, exec (.mld l n a b) s = .next t ∧ matrixDone s t ∧ t.myCore.img.mcfg = g
        ∧ (∀ k, k < 4 → t.myCore.img.inUse.getLsbD k = (k == n.val || s.myCore.img.inUse.getLsbD k))
        ∧ (∀ c o, t.scratchByte c o = s.scratchByte c o)
        ∧ ∀ m x y, x < 8 → y < 8 → t.myCore.img.cell m x y =
            if m = n.val then BitVec.ofNat 32 (natLE (s.scratchBytes (rows x).1 ((rows x).2 + 4 * y) 4))
            else s.myCore.img.cell m x y)
      ∧ (∃ t, exec (.mst l n a b) s = .next t ∧ t.pc = s.pc + 4 ∧ (∀ r, t.x r = s.x r) ∧ t.mem = s.mem
        ∧ t.myCore.img.acc = s.myCore.img.acc ∧ t.myCore.img.inUse = s.myCore.img.inUse
        ∧ ∀ c o, t.scratchByte c o = rowsStored s n.val rows c o)
      ∧ ∃ t, exec (.mstRel l n a b) s = .next t ∧ t.pc = s.pc + 4 ∧ (∀ r, t.x r = s.x r) ∧ t.mem = s.mem
        ∧ (∀ c o, t.scratchByte c o = rowsStored s n.val rows c o)
        ∧ (∀ k, k < 4 → t.myCore.img.inUse.getLsbD k = (k != n.val && s.myCore.img.inUse.getLsbD k))
        ∧ ∀ m x y, x < 8 → y < 8 → t.myCore.img.cell m x y = if m = n.val then 0 else s.myCore.img.cell m x y)

/-- The ray instructions (R258 to R264). -/
def Obligations.RayInstructionsWorkOnTheirSlots : Prop := Spec.TraceFillsASlot ∧ Spec.RaySlotsAreReturned

/-- The task, helper and queue instructions (R266 to R275, R296 to R310). -/
def Obligations.TasksStartEndAndQueue : Prop :=
  Spec.HelpersStartAndJoin ∧ Spec.HelpersEndAndYield ∧ Spec.QueuesGiveAndTake

/-- Barriers and rings (R276 to R282). -/
def Obligations.BarriersAndRingsSynchronise : Prop :=
  Spec.ArrivalsCompleteAPhase ∧ Spec.BarriersArriveAndWait ∧ Spec.RingsFillAndRelease

/-- sbind queues the pattern of its descriptor at its port, and waits while four are queued there; sjob and scoll enter
their card in the die's table with the next number of the context, which x[d] gets; swait goes on once no job it names is
live, and waits else (R284, R286 to R288). -/
def Obligations.StreamsAndJobsAreSubmitted : Prop :=
  ∀ (s s1 : State) (l : BitVec 4) (d a b : Reg) (bs : List Byte), s.quiet →
    (∀ port p, port = field (s.x a) 0 5 →
      (4 ≤ (((s.die (dieOf s.cur.core)).portQueue s.myTag s.myCore.lcore port).filter (fun p => !p.running)).length →
        exec (.sbind l a b) s = .next s)
      ∧ ((((s.die (dieOf s.cur.core)).portQueue s.myTag s.myCore.lcore port).filter (fun p => !p.running)).length < 4 →
        s.readPattern (s.x b) port none = .ok p s1 → s1.quiet → s1.cur = s.cur →
        ∃ t, exec (.sbind l a b) s = .next t ∧ t.pc = s1.pc + 4 ∧ (∀ r, t.x r = s1.x r) ∧ t.mem = s1.mem
          ∧ (t.die (dieOf s.cur.core)).patterns
              = (s1.die (dieOf s.cur.core)).patterns ++ [{ p with tick := s1.myCore.ptick, num := (s1.die (dieOf s.cur.core)).nextPattern }]))
    ∧ (4096 ≤ (s.die (dieOf s.cur.core)).jobs.length →
      exec (.sjob l d a) s = .next s ∧ exec (.scoll l d a) s = .next s)
    ∧ ((s.die (dieOf s.cur.core)).jobs.length < 4096 → s.readRecord (s.x a) 64 192 = .ok bs s1 → s1.quiet → s1.cur = s.cur →
      (∀ o, cardError bs false (fun _ => false) = some o →
        exec (.sjob l d a) s = s1.trap 29 (s.x a + BitVec.ofNat 64 o))
      ∧ (cardError bs false (fun _ => false) = none → at_ bs 0 1 ≠ 2 →
        ∃ t j, exec (.sjob l d a) s = .next t ∧ s1.writesX t d (BitVec.ofNat 64 (s1.jobNumber s1.myTag)) ∧ t.pc = s1.pc + 4
          ∧ (t.die (dieOf s.cur.core)).jobs = (s1.die (dieOf s.cur.core)).jobs ++ [j] ∧ j.num = s1.jobNumber s1.myTag
          ∧ j.op = at_ bs 0 1 ∧ j.running = false ∧ j.tag = s1.myTag
          ∧ (∀ n, n ∈ j.waits ↔ ∃ k, k ∈ (s1.die (dieOf s.cur.core)).jobs ∧ k.num = n ∧ j.dependsOn k = true))
      ∧ (cardError bs true (fun g => (s1.rankIn g).isSome) = none →
        ∃ t j, exec (.scoll l d a) s = .next t ∧ s1.writesX t d (BitVec.ofNat 64 (s1.jobNumber s1.myTag)) ∧ t.pc = s1.pc + 4
          ∧ (t.die (dieOf s.cur.core)).jobs = (s1.die (dieOf s.cur.core)).jobs ++ [j] ∧ j.op = 3
          ∧ j.num = s1.jobNumber s1.myTag ∧ some j.rank = s1.rankIn (at_ bs 20 4)))
    ∧ (∀ ns, ns = (if s.x a = 0 then s.me.jobs
          else if s.jobNumber s.myTag ≤ (s.x a).toNat then [] else [(s.x a).toNat]) →
      (ns.any (s.jobLive s.myTag) = true → exec (.swait l a) s = .next s)
      ∧ (ns.any (s.jobLive s.myTag) = false → ns.all (fun n => (s.jobTick s.myTag n).isNone) = true →
          exec (.swait l a) s = .next (s.passed 4))
      ∧ ∀ n p, ns = [n] → s.jobLive s.myTag n = false → s.jobTick s.myTag n = some p → s.acquireTick true false p = some s1 →
          exec (.swait l a) s = .next (s1.passed 4))

/-- A step runs the decoded instruction (R81, R82, R101). -/
def Obligations.StepRunsTheDecodedInstruction : Prop := Spec.StepRunsWhatIsDue ∧ Spec.FetchReadsTheBytesAtThePc

/-- Words written out from the encodings of the spec decode to the instructions they stand for (R84 to R100, R115). -/
def Obligations.DecodeReadsTheWordsOfTheSpec : Prop :=
  (∀ (w : Nat) (i : Instr),
    (w, i) ∈ ([(0xFFF10093, .addi 1 2 0xFFF), (0x0253020B, .vadd { m := true, agn := false, vd := 4, vs2 := 5, s := .vv 6 }),
      (0x2005802B, .vld { l := 2, ovt := false, ord := false, m := false, b := 0, a := 11, d := 0 }),
      (0x12B5015B, .mopa 1 2 10 11), (0x298512FB, .vsetl 5 10 0x0A 3 0), (0x29F512FB, .vsetl 5 10 0x0A 3 7),
      (0xFE5508FB, .bsubnz 10 5 0xFF8), (0x0945D2FB, .ldacq 0 5 11 2 4), (0x0C4651FB, .ofence 0 3 12 4),
      (0x0001207B, .vcfg 0 2 0 0 0)] : List (Nat × Instr)) →
    decode (bytesLE 4 w) = .ok { instr := i, len := 4, bits := BitVec.ofNat 32 w })
  ∧ (∀ d, decode (bytesLE 4 0x0010207B) ≠ .ok d) ∧ (∀ d, decode (bytesLE 4 0x298512FF) ≠ .ok d)

/-- Every well-formed instruction of 32 bits decodes from its encoding as itself, at every value of its operands; and what
decodes is well formed, and, where it is 32 bits long, its word is its encoding: no bit is dropped (R81 to R101). A
compressed row carries no operands, and a step of another agent has no encoding. -/
def Obligations.DecodingAnEncodedInstructionGivesItBack : Prop :=
  (∀ i : Instr, i.wf = true →
    (∃ w, encode32 i = some w ∧ decode (bytesLE 4 w.toNat) = .ok { instr := i, len := 4, bits := w })
    ∨ i.isCompressed = true ∨ i = .illegalInstruction ∨ ∃ e, isStepOf e i)
  ∧ ∀ bs d, decode bs = .ok d →
    d.instr.wf = true ∧ d.len = d.instr.len ∧ (d.len = 4 → encode32 d.instr = some d.bits)
      ∧ (d.len = 2 → d.instr.isCompressed = true ∧ decode16 (d.bits.setWidth 16) = .ok d.instr)

/-- Every step of the machine, from every state, has a next state: no instruction and no step of another agent is refused
or stops it. That what the spec calls an error is a trap, a status, a wait or a context fault is the model's reading of R8,
R9, R376 and R440. -/
def Obligations.EveryStepHasANextState : Prop := ∀ s : State, ∃ t, step s = .next t

/-- The memory keeps its canonical form in every step: addresses strictly rising, and no byte listed that reads as an
unlisted one (the model's own form of R313 and R314; log 5). -/
def Obligations.EveryStepKeepsTheMemoryCanonical : Prop :=
  ∀ s t : State, Memory.wf s.mem = true → step s = .next t → Memory.wf t.mem = true

/-- Memory gives back what was written and nothing else changes; two canonical memories that read alike are equal; and so
with the bytes of a line (R10, R313; log 5). -/
def Obligations.MemoryReadsAsItWasWritten : Prop :=
  (∀ (m : Memory) (a b : Nat) (bs : List Byte), Memory.wf m = true →
    Memory.wf (Memory.write m a bs) = true
    ∧ Memory.get (Memory.write m a bs) b = if a ≤ b ∧ b < a + bs.length then bs.getD (b - a) 0 else Memory.get m b)
  ∧ (∀ m n : Memory, Memory.wf m = true → Memory.wf n = true → (∀ a, Memory.get m a = Memory.get n a) → m = n)
  ∧ (∀ (v : Line) (i j : Nat) (bs : List Byte), i + bs.length ≤ 128 → j < 128 →
    lineByte (lineWrite v i bs) j = if i ≤ j ∧ j < i + bs.length then bs.getD (j - i) 0 else lineByte v j)
  ∧ ∀ (m : Memory) (a : Nat), lineRead (lineOf (Memory.read m a 128)) 0 128 = Memory.read m a 128

/-- The state right after reset: every context, template, pass and mapping is gone, the module's memory is wiped (R446), READY
and START are clear, and vsrng, qsel, mweight, lease and hctrl have their stated values. The model's choices: that host memory
reads 0 (log 5), that x registers read 0 (log 3), that the first die manager core has the first step (log 1), and that it stands
at 0 in M-mode (log 2). -/
def Obligations.ResetState : Prop :=
  State.reset.ctxs = [] ∧ State.reset.templates = [] ∧ Memory.wf State.reset.mem = true
    ∧ (∀ a, Memory.get State.reset.mem a = 0)
    ∧ State.reset.mgmt.ready = false ∧ State.reset.mgmt.started = false ∧ State.reset.mgmt.qen = false
    ∧ State.reset.mgmt.rcause = 1 ∧ State.reset.horizon = 0 ∧ State.reset.agenda = []
    ∧ (∀ c h, (State.reset.hart { core := c, h := h }).vsrng = 0x9E3779B97F4A7C15
        ∧ (State.reset.hart { core := c, h := h }).vl = 0 ∧ (State.reset.hart { core := c, h := h }).vcfgst = 0
        ∧ (State.reset.hart { core := c, h := h }).live = false ∧ (∀ r, (State.reset.hart { core := c, h := h }).get r = 0))
    ∧ (∀ c, (State.reset.img c).qsel = 0xF ∧ (State.reset.img c).mweight = 1 ∧ (State.reset.img c).lease = 10
        ∧ (State.reset.img c).hctrl = 0 ∧ (State.reset.img c).inUse = 0 ∧ (State.reset.core c).serving = none
        ∧ (State.reset.core c).ptick = 0)
    ∧ State.reset.pc = 0 ∧ State.reset.me.mode = .m ∧ State.reset.coherent

/-- The steps of a core's units (R30, R39, R196, R237, R241, R256, R290, R318). -/
def Obligations.UnitsMoveTheirWork : Prop :=
  Spec.UnitsMoveTheFlightsOfTheirKind ∧ Spec.AnnexSwapsKeepValues ∧ Spec.MatrixCommandsRunInOrder
    ∧ Spec.InterruptsEnterTheHandler ∧ Spec.StoresArePerformedInOrder

/-- The steps of memory itself (R322, R326 to R329, R332, R335, R338, R339, R438 to R440). -/
def Obligations.MemoryStepsMoveLinesAndTicks : Prop :=
  Spec.WriteBacksGiveLinesHome ∧ Spec.DrainsWriteBackWhatIsOld ∧ Spec.TicksAdvance ∧ Spec.HostAccessesReachMemory
    ∧ Spec.OutsideAccessesArrive

/-- A die's engines (R284 to R288, R340 to R352, R392). -/
def Obligations.EngineStepsMovePatternsAndJobs : Prop :=
  Spec.PortsMoveApart ∧ Spec.PatternsStart ∧ Spec.ElementsOfATile ∧ Spec.FillsGoToTheWriteSlot ∧ Spec.TilesAreDelivered
    ∧ Spec.JobsStartAndComplete ∧ Spec.JobsMoveTheirBytes ∧ Spec.RoundsWaitForTheirMembers
    ∧ Spec.CollectivesCombineTheirInputs ∧ Spec.EngineFaultsAreServiced

/-- The steps of rendering, of rays, of launches and of queues (R260, R298, R300, R305, R356, R358, R360, R408, R409). -/
def Obligations.TasksAndRecordsMoveOn : Prop :=
  Spec.WaitingInstructionsAreTriedAgain ∧ Spec.RaysVisitTheirNodes ∧ Spec.InboxesReleaseInTicketOrder
    ∧ Spec.BrokenLogsAreSeen ∧ Spec.CommitLogsAreTaken ∧ Spec.LaunchesAreDeliveredAndComplete

/-- The context sequencer and context faults (R399 to R405, R440). -/
def Obligations.SequencerStepsPlaceImages : Prop :=
  Spec.SavingKeepsAHardwareContext ∧ Spec.SavingKeepsACore ∧ Spec.SlicesEnd ∧ Spec.RunnableContextsGetClusters
    ∧ Spec.ImagesArePlaced ∧ Spec.ImagesStayAway ∧ Spec.ContextFaultsStopTheContext

/-- Fencing and repair (R431 to R441). -/
def Obligations.RepairStepsFenceAndCount : Prop :=
  Spec.SentinelsFenceAndRestore ∧ Spec.RecordsFollowFindings ∧ Spec.HoursCountErrors ∧ Spec.ShadowsAreDropped
    ∧ Spec.ScrubsCountAndWithdraw ∧ Spec.LinksFail

/-- The context commands (R374 to R382, R395 to R398, R407, R408). -/
def Obligations.ContextCommandsActAsTheyAreDescribed : Prop :=
  Spec.CommandsAreChecked ∧ Spec.AnswersReachTheSubmitter ∧ Spec.CreateMakesAContext ∧ Spec.DestroyAndSetsched
    ∧ Spec.LaunchOpens ∧ Spec.PassesOpenAndClose ∧ Spec.DomainsAreAllocated ∧ Spec.GroupsAndNotify ∧ Spec.TemplatesAreMade

/-- The steps of page tables and of custody (R385 to R393, R452 to R455). -/
def Obligations.PagesAndCustodyChangeAsCommanded : Prop :=
  Spec.MapAddsLeaves ∧ Spec.UnmapAndProtect ∧ Spec.PageServicesFaults ∧ Spec.AttestAndStage ∧ Spec.LifecycleCrosses

/-- Reset, the registers, re-synchronisation, power and heat (R7, R443 to R450, R456, R457). -/
def Obligations.DeviceStepsActAsTheyAreDescribed : Prop :=
  Spec.ResetsReset ∧ Spec.RegistersAreWritten ∧ Spec.RegistersAreRead ∧ Spec.ResyncEmptiesTheQueues ∧ Spec.PowerAndHeat
end

