-- ==== Sys2Proof/Laws/Tab.lean ====
section
/-! SUPPORT. What reading, setting and erasing an entry of a table do, and that the canonical form is kept. -/

namespace Sys2Proof

theorem Tab.get?_set_self {α : Type} (t : Tab α) (n : Nat) (a : α) : Tab.get? (Tab.set t n a) n = some a := by
  induction t with
  | nil => simp [Tab.set, Tab.get?]
  | cons e t ih =>
    obtain ⟨k, b⟩ := e
    simp only [Tab.set]
    split
    · simp [Tab.get?]
    · split
      · simp [Tab.get?]
      · rename_i h; simp [Tab.get?, h, ih]

theorem Tab.get?_set_ne {α : Type} (t : Tab α) {n m : Nat} (a : α) (h : m ≠ n) :
    Tab.get? (Tab.set t n a) m = Tab.get? t m := by
  induction t with
  | nil => simp [Tab.set, Tab.get?, h]
  | cons e t ih =>
    obtain ⟨k, b⟩ := e
    simp only [Tab.set]
    split
    · simp [Tab.get?, h]
    · split
      · rename_i hk; subst hk; simp [Tab.get?, h]
      · simp only [Tab.get?]; split <;> simp_all

theorem Tab.get?_set {α : Type} (t : Tab α) (n m : Nat) (a : α) :
    Tab.get? (Tab.set t n a) m = if m = n then some a else Tab.get? t m := by
  split
  · rename_i h; subst h; exact Tab.get?_set_self t m a
  · rename_i h; exact Tab.get?_set_ne t a h

@[simp] theorem Tab.getD_set_self {α : Type} (t : Tab α) (n : Nat) (a d : α) : Tab.getD (Tab.set t n a) n d = a := by
  simp [Tab.getD, Tab.get?_set_self]

theorem Tab.getD_set_ne {α : Type} (t : Tab α) {n m : Nat} (a d : α) (h : m ≠ n) :
    Tab.getD (Tab.set t n a) m d = Tab.getD t m d := by
  simp [Tab.getD, Tab.get?_set_ne t a h]

@[simp] theorem Tab.set_set {α : Type} (t : Tab α) (n : Nat) (a b : α) :
    Tab.set (Tab.set t n a) n b = Tab.set t n b := by
  induction t with
  | nil => simp [Tab.set]
  | cons e t ih =>
    obtain ⟨k, c⟩ := e
    simp only [Tab.set]
    split
    · simp [Tab.set]
    · split
      · simp [Tab.set]
      · rename_i h1 h2; simp [Tab.set, h1, h2, ih]

theorem Tab.get?_erase_self {α : Type} (t : Tab α) (n : Nat) : Tab.get? (Tab.erase t n) n = none := by
  induction t with
  | nil => rfl
  | cons e t ih =>
    obtain ⟨k, b⟩ := e
    simp only [Tab.erase]
    split
    · exact ih
    · rename_i h; simp [Tab.get?, h, ih]

theorem Tab.get?_erase_ne {α : Type} (t : Tab α) {n m : Nat} (h : m ≠ n) :
    Tab.get? (Tab.erase t n) m = Tab.get? t m := by
  induction t with
  | nil => rfl
  | cons e t ih =>
    obtain ⟨k, b⟩ := e
    simp only [Tab.erase]
    split
    · rename_i hk; subst hk; simp [Tab.get?, h, ih]
    · simp only [Tab.get?, ih]

/-- An entry comes from the table set or is the one set. -/
theorem Tab.mem_set {α : Type} (t : Tab α) (n : Nat) (a : α) (e : Nat × α) (h : e ∈ Tab.set t n a) :
    e = (n, a) ∨ e ∈ t := by
  induction t with
  | nil => simpa [Tab.set] using h
  | cons f t ih =>
    obtain ⟨k, b⟩ := f
    simp only [Tab.set] at h
    split at h
    · simpa using h
    · split at h
      · rcases List.mem_cons.mp h with h | h
        · exact .inl h
        · exact .inr (List.mem_cons_of_mem _ h)
      · rcases List.mem_cons.mp h with h | h
        · exact .inr (h ▸ List.mem_cons_self)
        · rcases ih h with h | h
          · exact .inl h
          · exact .inr (List.mem_cons_of_mem _ h)

/-- An entry of a table with a key erased is one of the table. -/
theorem Tab.mem_erase {α : Type} (t : Tab α) (n : Nat) (e : Nat × α) (h : e ∈ Tab.erase t n) : e ∈ t := by
  induction t with
  | nil => exact h
  | cons f t ih =>
    obtain ⟨k, b⟩ := f
    simp only [Tab.erase] at h
    split at h
    · exact List.mem_cons_of_mem _ (ih h)
    · rcases List.mem_cons.mp h with h | h
      · exact h ▸ List.mem_cons_self
      · exact List.mem_cons_of_mem _ (ih h)

/-- The canonical form as a sorted list of keys. -/
theorem Tab.wf_iff {α : Type} (t : Tab α) : Tab.wf t = true ↔ t.Pairwise (fun a b => a.1 < b.1) := by
  induction t with
  | nil => simp [Tab.wf]
  | cons e t ih =>
    obtain ⟨k, a⟩ := e
    cases t with
    | nil => simp [Tab.wf]
    | cons f t =>
      obtain ⟨l, b⟩ := f
      simp only [Tab.wf, Bool.and_eq_true, decide_eq_true_eq, ih]
      constructor
      · rintro ⟨h, hp⟩
        refine List.Pairwise.cons ?_ hp
        intro x hx
        rcases List.mem_cons.mp hx with hx | hx
        · subst hx; exact h
        · exact lt_trans h ((List.pairwise_cons.mp hp).1 x hx)
      · intro hp
        exact ⟨(List.pairwise_cons.mp hp).1 (l, b) List.mem_cons_self, (List.pairwise_cons.mp hp).2⟩

theorem Tab.wf_set {α : Type} (t : Tab α) (n : Nat) (a : α) (h : Tab.wf t = true) : Tab.wf (Tab.set t n a) = true := by
  rw [Tab.wf_iff] at h ⊢
  induction t with
  | nil => simp [Tab.set]
  | cons e t ih =>
    obtain ⟨k, b⟩ := e
    have hp := List.pairwise_cons.mp h
    simp only [Tab.set]
    split
    · rename_i hn
      refine List.Pairwise.cons ?_ h
      intro x hx
      rcases List.mem_cons.mp hx with hx | hx
      · subst hx; exact hn
      · exact lt_trans hn (hp.1 x hx)
    · split
      · rename_i hk; subst hk
        exact List.Pairwise.cons (fun x hx => hp.1 x hx) hp.2
      · rename_i h1 h2
        refine List.Pairwise.cons ?_ (ih hp.2)
        intro x hx
        rcases Tab.mem_set t n a x hx with hx | hx
        · subst hx; simp only; omega
        · exact hp.1 x hx

theorem Tab.wf_erase {α : Type} (t : Tab α) (n : Nat) (h : Tab.wf t = true) : Tab.wf (Tab.erase t n) = true := by
  rw [Tab.wf_iff] at h ⊢
  induction t with
  | nil => exact h
  | cons e t ih =>
    obtain ⟨k, b⟩ := e
    have hp := List.pairwise_cons.mp h
    simp only [Tab.erase]
    split
    · exact ih hp.2
    · exact List.Pairwise.cons (fun x hx => hp.1 x (Tab.mem_erase t n x hx)) (ih hp.2)

end Sys2Proof
end

