-- ==== Sys2Proof/Laws/State.lean ====
section
/-! SUPPORT. What each update of the state leaves: one lemma per field per update, and reading a unit after writing it. -/

namespace Sys2Proof.Machine

/-! setCore changes cores alone. -/

@[simp] theorem State.setCore_mem (s : State) (c : Nat) (k : Core) : (s.setCore c k).mem = s.mem := rfl
@[simp] theorem State.setCore_home (s : State) (c : Nat) (k : Core) : (s.setCore c k).home = s.home := rfl
@[simp] theorem State.setCore_hostCache (s : State) (c : Nat) (k : Core) : (s.setCore c k).hostCache = s.hostCache := rfl
@[simp] theorem State.setCore_dies (s : State) (c : Nat) (k : Core) : (s.setCore c k).dies = s.dies := rfl
@[simp] theorem State.setCore_ctxs (s : State) (c : Nat) (k : Core) : (s.setCore c k).ctxs = s.ctxs := rfl
@[simp] theorem State.setCore_templates (s : State) (c : Nat) (k : Core) : (s.setCore c k).templates = s.templates := rfl
@[simp] theorem State.setCore_mgmt (s : State) (c : Nat) (k : Core) : (s.setCore c k).mgmt = s.mgmt := rfl
@[simp] theorem State.setCore_podmap (s : State) (c : Nat) (k : Core) : (s.setCore c k).podmap = s.podmap := rfl
@[simp] theorem State.setCore_linksDown (s : State) (c : Nat) (k : Core) : (s.setCore c k).linksDown = s.linksDown := rfl
@[simp] theorem State.setCore_retries (s : State) (c : Nat) (k : Core) : (s.setCore c k).retries = s.retries := rfl
@[simp] theorem State.setCore_uncorrected (s : State) (c : Nat) (k : Core) : (s.setCore c k).uncorrected = s.uncorrected := rfl
@[simp] theorem State.setCore_devStore (s : State) (c : Nat) (k : Core) : (s.setCore c k).devStore = s.devStore := rfl
@[simp] theorem State.setCore_challenge (s : State) (c : Nat) (k : Core) : (s.setCore c k).challenge = s.challenge := rfl
@[simp] theorem State.setCore_horizon (s : State) (c : Nat) (k : Core) : (s.setCore c k).horizon = s.horizon := rfl
@[simp] theorem State.setCore_floor (s : State) (c : Nat) (k : Core) : (s.setCore c k).floor = s.floor := rfl
@[simp] theorem State.setCore_hostTick (s : State) (c : Nat) (k : Core) : (s.setCore c k).hostTick = s.hostTick := rfl
@[simp] theorem State.setCore_podTick (s : State) (c : Nat) (k : Core) : (s.setCore c k).podTick = s.podTick := rfl
@[simp] theorem State.setCore_cc (s : State) (c : Nat) (k : Core) : (s.setCore c k).cc = s.cc := rfl
@[simp] theorem State.setCore_bad (s : State) (c : Nat) (k : Core) : (s.setCore c k).bad = s.bad := rfl
@[simp] theorem State.setCore_badCore (s : State) (c : Nat) (k : Core) : (s.setCore c k).badCore = s.badCore := rfl
@[simp] theorem State.setCore_soft (s : State) (c : Nat) (k : Core) : (s.setCore c k).soft = s.soft := rfl
@[simp] theorem State.setCore_faulty (s : State) (c : Nat) (k : Core) : (s.setCore c k).faulty = s.faulty := rfl
@[simp] theorem State.setCore_defects (s : State) (c : Nat) (k : Core) : (s.setCore c k).defects = s.defects := rfl
@[simp] theorem State.setCore_wiped (s : State) (c : Nat) (k : Core) : (s.setCore c k).wiped = s.wiped := rfl
@[simp] theorem State.setCore_tries (s : State) (c : Nat) (k : Core) : (s.setCore c k).tries = s.tries := rfl
@[simp] theorem State.setCore_nextTable (s : State) (c : Nat) (k : Core) : (s.setCore c k).nextTable = s.nextTable := rfl
@[simp] theorem State.setCore_freeTables (s : State) (c : Nat) (k : Core) : (s.setCore c k).freeTables = s.freeTables := rfl
@[simp] theorem State.setCore_podOut (s : State) (c : Nat) (k : Core) : (s.setCore c k).podOut = s.podOut := rfl
@[simp] theorem State.setCore_agenda (s : State) (c : Nat) (k : Core) : (s.setCore c k).agenda = s.agenda := rfl
@[simp] theorem State.setCore_running (s : State) (c : Nat) (k : Core) : (s.setCore c k).running = s.running := rfl
@[simp] theorem State.setCore_slot (s : State) (c : Nat) (k : Core) : (s.setCore c k).slot = s.slot := rfl
@[simp] theorem State.setCore_tried (s : State) (c : Nat) (k : Core) : (s.setCore c k).tried = s.tried := rfl
@[simp] theorem State.setCore_cur (s : State) (c : Nat) (k : Core) : (s.setCore c k).cur = s.cur := rfl
@[simp] theorem State.setCore_ir (s : State) (c : Nat) (k : Core) : (s.setCore c k).ir = s.ir := rfl
@[simp] theorem State.setCore_hold (s : State) (c : Nat) (k : Core) : (s.setCore c k).hold = s.hold := rfl
@[simp] theorem State.setCore_fresh (s : State) (c : Nat) (k : Core) : (s.setCore c k).fresh = s.fresh := rfl
@[simp] theorem State.setCore_hostReply (s : State) (c : Nat) (k : Core) : (s.setCore c k).hostReply = s.hostReply := rfl
@[simp] theorem State.setCore_cxlDown (s : State) (c : Nat) (k : Core) : (s.setCore c k).cxlDown = s.cxlDown := rfl

/-! onCore changes cores alone. -/

@[simp] theorem State.onCore_mem (s : State) (c : Nat) (f : Core → Core) : (s.onCore c f).mem = s.mem := rfl
@[simp] theorem State.onCore_home (s : State) (c : Nat) (f : Core → Core) : (s.onCore c f).home = s.home := rfl
@[simp] theorem State.onCore_hostCache (s : State) (c : Nat) (f : Core → Core) : (s.onCore c f).hostCache = s.hostCache := rfl
@[simp] theorem State.onCore_dies (s : State) (c : Nat) (f : Core → Core) : (s.onCore c f).dies = s.dies := rfl
@[simp] theorem State.onCore_ctxs (s : State) (c : Nat) (f : Core → Core) : (s.onCore c f).ctxs = s.ctxs := rfl
@[simp] theorem State.onCore_templates (s : State) (c : Nat) (f : Core → Core) : (s.onCore c f).templates = s.templates := rfl
@[simp] theorem State.onCore_mgmt (s : State) (c : Nat) (f : Core → Core) : (s.onCore c f).mgmt = s.mgmt := rfl
@[simp] theorem State.onCore_podmap (s : State) (c : Nat) (f : Core → Core) : (s.onCore c f).podmap = s.podmap := rfl
@[simp] theorem State.onCore_linksDown (s : State) (c : Nat) (f : Core → Core) : (s.onCore c f).linksDown = s.linksDown := rfl
@[simp] theorem State.onCore_retries (s : State) (c : Nat) (f : Core → Core) : (s.onCore c f).retries = s.retries := rfl
@[simp] theorem State.onCore_uncorrected (s : State) (c : Nat) (f : Core → Core) : (s.onCore c f).uncorrected = s.uncorrected := rfl
@[simp] theorem State.onCore_devStore (s : State) (c : Nat) (f : Core → Core) : (s.onCore c f).devStore = s.devStore := rfl
@[simp] theorem State.onCore_challenge (s : State) (c : Nat) (f : Core → Core) : (s.onCore c f).challenge = s.challenge := rfl
@[simp] theorem State.onCore_horizon (s : State) (c : Nat) (f : Core → Core) : (s.onCore c f).horizon = s.horizon := rfl
@[simp] theorem State.onCore_floor (s : State) (c : Nat) (f : Core → Core) : (s.onCore c f).floor = s.floor := rfl
@[simp] theorem State.onCore_hostTick (s : State) (c : Nat) (f : Core → Core) : (s.onCore c f).hostTick = s.hostTick := rfl
@[simp] theorem State.onCore_podTick (s : State) (c : Nat) (f : Core → Core) : (s.onCore c f).podTick = s.podTick := rfl
@[simp] theorem State.onCore_cc (s : State) (c : Nat) (f : Core → Core) : (s.onCore c f).cc = s.cc := rfl
@[simp] theorem State.onCore_bad (s : State) (c : Nat) (f : Core → Core) : (s.onCore c f).bad = s.bad := rfl
@[simp] theorem State.onCore_badCore (s : State) (c : Nat) (f : Core → Core) : (s.onCore c f).badCore = s.badCore := rfl
@[simp] theorem State.onCore_soft (s : State) (c : Nat) (f : Core → Core) : (s.onCore c f).soft = s.soft := rfl
@[simp] theorem State.onCore_faulty (s : State) (c : Nat) (f : Core → Core) : (s.onCore c f).faulty = s.faulty := rfl
@[simp] theorem State.onCore_defects (s : State) (c : Nat) (f : Core → Core) : (s.onCore c f).defects = s.defects := rfl
@[simp] theorem State.onCore_wiped (s : State) (c : Nat) (f : Core → Core) : (s.onCore c f).wiped = s.wiped := rfl
@[simp] theorem State.onCore_tries (s : State) (c : Nat) (f : Core → Core) : (s.onCore c f).tries = s.tries := rfl
@[simp] theorem State.onCore_nextTable (s : State) (c : Nat) (f : Core → Core) : (s.onCore c f).nextTable = s.nextTable := rfl
@[simp] theorem State.onCore_freeTables (s : State) (c : Nat) (f : Core → Core) : (s.onCore c f).freeTables = s.freeTables := rfl
@[simp] theorem State.onCore_podOut (s : State) (c : Nat) (f : Core → Core) : (s.onCore c f).podOut = s.podOut := rfl
@[simp] theorem State.onCore_agenda (s : State) (c : Nat) (f : Core → Core) : (s.onCore c f).agenda = s.agenda := rfl
@[simp] theorem State.onCore_running (s : State) (c : Nat) (f : Core → Core) : (s.onCore c f).running = s.running := rfl
@[simp] theorem State.onCore_slot (s : State) (c : Nat) (f : Core → Core) : (s.onCore c f).slot = s.slot := rfl
@[simp] theorem State.onCore_tried (s : State) (c : Nat) (f : Core → Core) : (s.onCore c f).tried = s.tried := rfl
@[simp] theorem State.onCore_cur (s : State) (c : Nat) (f : Core → Core) : (s.onCore c f).cur = s.cur := rfl
@[simp] theorem State.onCore_ir (s : State) (c : Nat) (f : Core → Core) : (s.onCore c f).ir = s.ir := rfl
@[simp] theorem State.onCore_hold (s : State) (c : Nat) (f : Core → Core) : (s.onCore c f).hold = s.hold := rfl
@[simp] theorem State.onCore_fresh (s : State) (c : Nat) (f : Core → Core) : (s.onCore c f).fresh = s.fresh := rfl
@[simp] theorem State.onCore_hostReply (s : State) (c : Nat) (f : Core → Core) : (s.onCore c f).hostReply = s.hostReply := rfl
@[simp] theorem State.onCore_cxlDown (s : State) (c : Nat) (f : Core → Core) : (s.onCore c f).cxlDown = s.cxlDown := rfl

/-! onImg changes cores alone. -/

@[simp] theorem State.onImg_mem (s : State) (c : Nat) (f : Img → Img) : (s.onImg c f).mem = s.mem := rfl
@[simp] theorem State.onImg_home (s : State) (c : Nat) (f : Img → Img) : (s.onImg c f).home = s.home := rfl
@[simp] theorem State.onImg_hostCache (s : State) (c : Nat) (f : Img → Img) : (s.onImg c f).hostCache = s.hostCache := rfl
@[simp] theorem State.onImg_dies (s : State) (c : Nat) (f : Img → Img) : (s.onImg c f).dies = s.dies := rfl
@[simp] theorem State.onImg_ctxs (s : State) (c : Nat) (f : Img → Img) : (s.onImg c f).ctxs = s.ctxs := rfl
@[simp] theorem State.onImg_templates (s : State) (c : Nat) (f : Img → Img) : (s.onImg c f).templates = s.templates := rfl
@[simp] theorem State.onImg_mgmt (s : State) (c : Nat) (f : Img → Img) : (s.onImg c f).mgmt = s.mgmt := rfl
@[simp] theorem State.onImg_podmap (s : State) (c : Nat) (f : Img → Img) : (s.onImg c f).podmap = s.podmap := rfl
@[simp] theorem State.onImg_linksDown (s : State) (c : Nat) (f : Img → Img) : (s.onImg c f).linksDown = s.linksDown := rfl
@[simp] theorem State.onImg_retries (s : State) (c : Nat) (f : Img → Img) : (s.onImg c f).retries = s.retries := rfl
@[simp] theorem State.onImg_uncorrected (s : State) (c : Nat) (f : Img → Img) : (s.onImg c f).uncorrected = s.uncorrected := rfl
@[simp] theorem State.onImg_devStore (s : State) (c : Nat) (f : Img → Img) : (s.onImg c f).devStore = s.devStore := rfl
@[simp] theorem State.onImg_challenge (s : State) (c : Nat) (f : Img → Img) : (s.onImg c f).challenge = s.challenge := rfl
@[simp] theorem State.onImg_horizon (s : State) (c : Nat) (f : Img → Img) : (s.onImg c f).horizon = s.horizon := rfl
@[simp] theorem State.onImg_floor (s : State) (c : Nat) (f : Img → Img) : (s.onImg c f).floor = s.floor := rfl
@[simp] theorem State.onImg_hostTick (s : State) (c : Nat) (f : Img → Img) : (s.onImg c f).hostTick = s.hostTick := rfl
@[simp] theorem State.onImg_podTick (s : State) (c : Nat) (f : Img → Img) : (s.onImg c f).podTick = s.podTick := rfl
@[simp] theorem State.onImg_cc (s : State) (c : Nat) (f : Img → Img) : (s.onImg c f).cc = s.cc := rfl
@[simp] theorem State.onImg_bad (s : State) (c : Nat) (f : Img → Img) : (s.onImg c f).bad = s.bad := rfl
@[simp] theorem State.onImg_badCore (s : State) (c : Nat) (f : Img → Img) : (s.onImg c f).badCore = s.badCore := rfl
@[simp] theorem State.onImg_soft (s : State) (c : Nat) (f : Img → Img) : (s.onImg c f).soft = s.soft := rfl
@[simp] theorem State.onImg_faulty (s : State) (c : Nat) (f : Img → Img) : (s.onImg c f).faulty = s.faulty := rfl
@[simp] theorem State.onImg_defects (s : State) (c : Nat) (f : Img → Img) : (s.onImg c f).defects = s.defects := rfl
@[simp] theorem State.onImg_wiped (s : State) (c : Nat) (f : Img → Img) : (s.onImg c f).wiped = s.wiped := rfl
@[simp] theorem State.onImg_tries (s : State) (c : Nat) (f : Img → Img) : (s.onImg c f).tries = s.tries := rfl
@[simp] theorem State.onImg_nextTable (s : State) (c : Nat) (f : Img → Img) : (s.onImg c f).nextTable = s.nextTable := rfl
@[simp] theorem State.onImg_freeTables (s : State) (c : Nat) (f : Img → Img) : (s.onImg c f).freeTables = s.freeTables := rfl
@[simp] theorem State.onImg_podOut (s : State) (c : Nat) (f : Img → Img) : (s.onImg c f).podOut = s.podOut := rfl
@[simp] theorem State.onImg_agenda (s : State) (c : Nat) (f : Img → Img) : (s.onImg c f).agenda = s.agenda := rfl
@[simp] theorem State.onImg_running (s : State) (c : Nat) (f : Img → Img) : (s.onImg c f).running = s.running := rfl
@[simp] theorem State.onImg_slot (s : State) (c : Nat) (f : Img → Img) : (s.onImg c f).slot = s.slot := rfl
@[simp] theorem State.onImg_tried (s : State) (c : Nat) (f : Img → Img) : (s.onImg c f).tried = s.tried := rfl
@[simp] theorem State.onImg_cur (s : State) (c : Nat) (f : Img → Img) : (s.onImg c f).cur = s.cur := rfl
@[simp] theorem State.onImg_ir (s : State) (c : Nat) (f : Img → Img) : (s.onImg c f).ir = s.ir := rfl
@[simp] theorem State.onImg_hold (s : State) (c : Nat) (f : Img → Img) : (s.onImg c f).hold = s.hold := rfl
@[simp] theorem State.onImg_fresh (s : State) (c : Nat) (f : Img → Img) : (s.onImg c f).fresh = s.fresh := rfl
@[simp] theorem State.onImg_hostReply (s : State) (c : Nat) (f : Img → Img) : (s.onImg c f).hostReply = s.hostReply := rfl
@[simp] theorem State.onImg_cxlDown (s : State) (c : Nat) (f : Img → Img) : (s.onImg c f).cxlDown = s.cxlDown := rfl

/-! setHart changes cores alone. -/

@[simp] theorem State.setHart_mem (s : State) (i : HartId) (t : Hart) : (s.setHart i t).mem = s.mem := rfl
@[simp] theorem State.setHart_home (s : State) (i : HartId) (t : Hart) : (s.setHart i t).home = s.home := rfl
@[simp] theorem State.setHart_hostCache (s : State) (i : HartId) (t : Hart) : (s.setHart i t).hostCache = s.hostCache := rfl
@[simp] theorem State.setHart_dies (s : State) (i : HartId) (t : Hart) : (s.setHart i t).dies = s.dies := rfl
@[simp] theorem State.setHart_ctxs (s : State) (i : HartId) (t : Hart) : (s.setHart i t).ctxs = s.ctxs := rfl
@[simp] theorem State.setHart_templates (s : State) (i : HartId) (t : Hart) : (s.setHart i t).templates = s.templates := rfl
@[simp] theorem State.setHart_mgmt (s : State) (i : HartId) (t : Hart) : (s.setHart i t).mgmt = s.mgmt := rfl
@[simp] theorem State.setHart_podmap (s : State) (i : HartId) (t : Hart) : (s.setHart i t).podmap = s.podmap := rfl
@[simp] theorem State.setHart_linksDown (s : State) (i : HartId) (t : Hart) : (s.setHart i t).linksDown = s.linksDown := rfl
@[simp] theorem State.setHart_retries (s : State) (i : HartId) (t : Hart) : (s.setHart i t).retries = s.retries := rfl
@[simp] theorem State.setHart_uncorrected (s : State) (i : HartId) (t : Hart) : (s.setHart i t).uncorrected = s.uncorrected := rfl
@[simp] theorem State.setHart_devStore (s : State) (i : HartId) (t : Hart) : (s.setHart i t).devStore = s.devStore := rfl
@[simp] theorem State.setHart_challenge (s : State) (i : HartId) (t : Hart) : (s.setHart i t).challenge = s.challenge := rfl
@[simp] theorem State.setHart_horizon (s : State) (i : HartId) (t : Hart) : (s.setHart i t).horizon = s.horizon := rfl
@[simp] theorem State.setHart_floor (s : State) (i : HartId) (t : Hart) : (s.setHart i t).floor = s.floor := rfl
@[simp] theorem State.setHart_hostTick (s : State) (i : HartId) (t : Hart) : (s.setHart i t).hostTick = s.hostTick := rfl
@[simp] theorem State.setHart_podTick (s : State) (i : HartId) (t : Hart) : (s.setHart i t).podTick = s.podTick := rfl
@[simp] theorem State.setHart_cc (s : State) (i : HartId) (t : Hart) : (s.setHart i t).cc = s.cc := rfl
@[simp] theorem State.setHart_bad (s : State) (i : HartId) (t : Hart) : (s.setHart i t).bad = s.bad := rfl
@[simp] theorem State.setHart_badCore (s : State) (i : HartId) (t : Hart) : (s.setHart i t).badCore = s.badCore := rfl
@[simp] theorem State.setHart_soft (s : State) (i : HartId) (t : Hart) : (s.setHart i t).soft = s.soft := rfl
@[simp] theorem State.setHart_faulty (s : State) (i : HartId) (t : Hart) : (s.setHart i t).faulty = s.faulty := rfl
@[simp] theorem State.setHart_defects (s : State) (i : HartId) (t : Hart) : (s.setHart i t).defects = s.defects := rfl
@[simp] theorem State.setHart_wiped (s : State) (i : HartId) (t : Hart) : (s.setHart i t).wiped = s.wiped := rfl
@[simp] theorem State.setHart_tries (s : State) (i : HartId) (t : Hart) : (s.setHart i t).tries = s.tries := rfl
@[simp] theorem State.setHart_nextTable (s : State) (i : HartId) (t : Hart) : (s.setHart i t).nextTable = s.nextTable := rfl
@[simp] theorem State.setHart_freeTables (s : State) (i : HartId) (t : Hart) : (s.setHart i t).freeTables = s.freeTables := rfl
@[simp] theorem State.setHart_podOut (s : State) (i : HartId) (t : Hart) : (s.setHart i t).podOut = s.podOut := rfl
@[simp] theorem State.setHart_agenda (s : State) (i : HartId) (t : Hart) : (s.setHart i t).agenda = s.agenda := rfl
@[simp] theorem State.setHart_running (s : State) (i : HartId) (t : Hart) : (s.setHart i t).running = s.running := rfl
@[simp] theorem State.setHart_slot (s : State) (i : HartId) (t : Hart) : (s.setHart i t).slot = s.slot := rfl
@[simp] theorem State.setHart_tried (s : State) (i : HartId) (t : Hart) : (s.setHart i t).tried = s.tried := rfl
@[simp] theorem State.setHart_cur (s : State) (i : HartId) (t : Hart) : (s.setHart i t).cur = s.cur := rfl
@[simp] theorem State.setHart_ir (s : State) (i : HartId) (t : Hart) : (s.setHart i t).ir = s.ir := rfl
@[simp] theorem State.setHart_hold (s : State) (i : HartId) (t : Hart) : (s.setHart i t).hold = s.hold := rfl
@[simp] theorem State.setHart_fresh (s : State) (i : HartId) (t : Hart) : (s.setHart i t).fresh = s.fresh := rfl
@[simp] theorem State.setHart_hostReply (s : State) (i : HartId) (t : Hart) : (s.setHart i t).hostReply = s.hostReply := rfl
@[simp] theorem State.setHart_cxlDown (s : State) (i : HartId) (t : Hart) : (s.setHart i t).cxlDown = s.cxlDown := rfl

/-! onHart changes cores alone. -/

@[simp] theorem State.onHart_mem (s : State) (i : HartId) (f : Hart → Hart) : (s.onHart i f).mem = s.mem := rfl
@[simp] theorem State.onHart_home (s : State) (i : HartId) (f : Hart → Hart) : (s.onHart i f).home = s.home := rfl
@[simp] theorem State.onHart_hostCache (s : State) (i : HartId) (f : Hart → Hart) : (s.onHart i f).hostCache = s.hostCache := rfl
@[simp] theorem State.onHart_dies (s : State) (i : HartId) (f : Hart → Hart) : (s.onHart i f).dies = s.dies := rfl
@[simp] theorem State.onHart_ctxs (s : State) (i : HartId) (f : Hart → Hart) : (s.onHart i f).ctxs = s.ctxs := rfl
@[simp] theorem State.onHart_templates (s : State) (i : HartId) (f : Hart → Hart) : (s.onHart i f).templates = s.templates := rfl
@[simp] theorem State.onHart_mgmt (s : State) (i : HartId) (f : Hart → Hart) : (s.onHart i f).mgmt = s.mgmt := rfl
@[simp] theorem State.onHart_podmap (s : State) (i : HartId) (f : Hart → Hart) : (s.onHart i f).podmap = s.podmap := rfl
@[simp] theorem State.onHart_linksDown (s : State) (i : HartId) (f : Hart → Hart) : (s.onHart i f).linksDown = s.linksDown := rfl
@[simp] theorem State.onHart_retries (s : State) (i : HartId) (f : Hart → Hart) : (s.onHart i f).retries = s.retries := rfl
@[simp] theorem State.onHart_uncorrected (s : State) (i : HartId) (f : Hart → Hart) : (s.onHart i f).uncorrected = s.uncorrected := rfl
@[simp] theorem State.onHart_devStore (s : State) (i : HartId) (f : Hart → Hart) : (s.onHart i f).devStore = s.devStore := rfl
@[simp] theorem State.onHart_challenge (s : State) (i : HartId) (f : Hart → Hart) : (s.onHart i f).challenge = s.challenge := rfl
@[simp] theorem State.onHart_horizon (s : State) (i : HartId) (f : Hart → Hart) : (s.onHart i f).horizon = s.horizon := rfl
@[simp] theorem State.onHart_floor (s : State) (i : HartId) (f : Hart → Hart) : (s.onHart i f).floor = s.floor := rfl
@[simp] theorem State.onHart_hostTick (s : State) (i : HartId) (f : Hart → Hart) : (s.onHart i f).hostTick = s.hostTick := rfl
@[simp] theorem State.onHart_podTick (s : State) (i : HartId) (f : Hart → Hart) : (s.onHart i f).podTick = s.podTick := rfl
@[simp] theorem State.onHart_cc (s : State) (i : HartId) (f : Hart → Hart) : (s.onHart i f).cc = s.cc := rfl
@[simp] theorem State.onHart_bad (s : State) (i : HartId) (f : Hart → Hart) : (s.onHart i f).bad = s.bad := rfl
@[simp] theorem State.onHart_badCore (s : State) (i : HartId) (f : Hart → Hart) : (s.onHart i f).badCore = s.badCore := rfl
@[simp] theorem State.onHart_soft (s : State) (i : HartId) (f : Hart → Hart) : (s.onHart i f).soft = s.soft := rfl
@[simp] theorem State.onHart_faulty (s : State) (i : HartId) (f : Hart → Hart) : (s.onHart i f).faulty = s.faulty := rfl
@[simp] theorem State.onHart_defects (s : State) (i : HartId) (f : Hart → Hart) : (s.onHart i f).defects = s.defects := rfl
@[simp] theorem State.onHart_wiped (s : State) (i : HartId) (f : Hart → Hart) : (s.onHart i f).wiped = s.wiped := rfl
@[simp] theorem State.onHart_tries (s : State) (i : HartId) (f : Hart → Hart) : (s.onHart i f).tries = s.tries := rfl
@[simp] theorem State.onHart_nextTable (s : State) (i : HartId) (f : Hart → Hart) : (s.onHart i f).nextTable = s.nextTable := rfl
@[simp] theorem State.onHart_freeTables (s : State) (i : HartId) (f : Hart → Hart) : (s.onHart i f).freeTables = s.freeTables := rfl
@[simp] theorem State.onHart_podOut (s : State) (i : HartId) (f : Hart → Hart) : (s.onHart i f).podOut = s.podOut := rfl
@[simp] theorem State.onHart_agenda (s : State) (i : HartId) (f : Hart → Hart) : (s.onHart i f).agenda = s.agenda := rfl
@[simp] theorem State.onHart_running (s : State) (i : HartId) (f : Hart → Hart) : (s.onHart i f).running = s.running := rfl
@[simp] theorem State.onHart_slot (s : State) (i : HartId) (f : Hart → Hart) : (s.onHart i f).slot = s.slot := rfl
@[simp] theorem State.onHart_tried (s : State) (i : HartId) (f : Hart → Hart) : (s.onHart i f).tried = s.tried := rfl
@[simp] theorem State.onHart_cur (s : State) (i : HartId) (f : Hart → Hart) : (s.onHart i f).cur = s.cur := rfl
@[simp] theorem State.onHart_ir (s : State) (i : HartId) (f : Hart → Hart) : (s.onHart i f).ir = s.ir := rfl
@[simp] theorem State.onHart_hold (s : State) (i : HartId) (f : Hart → Hart) : (s.onHart i f).hold = s.hold := rfl
@[simp] theorem State.onHart_fresh (s : State) (i : HartId) (f : Hart → Hart) : (s.onHart i f).fresh = s.fresh := rfl
@[simp] theorem State.onHart_hostReply (s : State) (i : HartId) (f : Hart → Hart) : (s.onHart i f).hostReply = s.hostReply := rfl
@[simp] theorem State.onHart_cxlDown (s : State) (i : HartId) (f : Hart → Hart) : (s.onHart i f).cxlDown = s.cxlDown := rfl

/-! onMe changes cores alone. -/

@[simp] theorem State.onMe_mem (s : State) (f : Hart → Hart) : (s.onMe f).mem = s.mem := rfl
@[simp] theorem State.onMe_home (s : State) (f : Hart → Hart) : (s.onMe f).home = s.home := rfl
@[simp] theorem State.onMe_hostCache (s : State) (f : Hart → Hart) : (s.onMe f).hostCache = s.hostCache := rfl
@[simp] theorem State.onMe_dies (s : State) (f : Hart → Hart) : (s.onMe f).dies = s.dies := rfl
@[simp] theorem State.onMe_ctxs (s : State) (f : Hart → Hart) : (s.onMe f).ctxs = s.ctxs := rfl
@[simp] theorem State.onMe_templates (s : State) (f : Hart → Hart) : (s.onMe f).templates = s.templates := rfl
@[simp] theorem State.onMe_mgmt (s : State) (f : Hart → Hart) : (s.onMe f).mgmt = s.mgmt := rfl
@[simp] theorem State.onMe_podmap (s : State) (f : Hart → Hart) : (s.onMe f).podmap = s.podmap := rfl
@[simp] theorem State.onMe_linksDown (s : State) (f : Hart → Hart) : (s.onMe f).linksDown = s.linksDown := rfl
@[simp] theorem State.onMe_retries (s : State) (f : Hart → Hart) : (s.onMe f).retries = s.retries := rfl
@[simp] theorem State.onMe_uncorrected (s : State) (f : Hart → Hart) : (s.onMe f).uncorrected = s.uncorrected := rfl
@[simp] theorem State.onMe_devStore (s : State) (f : Hart → Hart) : (s.onMe f).devStore = s.devStore := rfl
@[simp] theorem State.onMe_challenge (s : State) (f : Hart → Hart) : (s.onMe f).challenge = s.challenge := rfl
@[simp] theorem State.onMe_horizon (s : State) (f : Hart → Hart) : (s.onMe f).horizon = s.horizon := rfl
@[simp] theorem State.onMe_floor (s : State) (f : Hart → Hart) : (s.onMe f).floor = s.floor := rfl
@[simp] theorem State.onMe_hostTick (s : State) (f : Hart → Hart) : (s.onMe f).hostTick = s.hostTick := rfl
@[simp] theorem State.onMe_podTick (s : State) (f : Hart → Hart) : (s.onMe f).podTick = s.podTick := rfl
@[simp] theorem State.onMe_cc (s : State) (f : Hart → Hart) : (s.onMe f).cc = s.cc := rfl
@[simp] theorem State.onMe_bad (s : State) (f : Hart → Hart) : (s.onMe f).bad = s.bad := rfl
@[simp] theorem State.onMe_badCore (s : State) (f : Hart → Hart) : (s.onMe f).badCore = s.badCore := rfl
@[simp] theorem State.onMe_soft (s : State) (f : Hart → Hart) : (s.onMe f).soft = s.soft := rfl
@[simp] theorem State.onMe_faulty (s : State) (f : Hart → Hart) : (s.onMe f).faulty = s.faulty := rfl
@[simp] theorem State.onMe_defects (s : State) (f : Hart → Hart) : (s.onMe f).defects = s.defects := rfl
@[simp] theorem State.onMe_wiped (s : State) (f : Hart → Hart) : (s.onMe f).wiped = s.wiped := rfl
@[simp] theorem State.onMe_tries (s : State) (f : Hart → Hart) : (s.onMe f).tries = s.tries := rfl
@[simp] theorem State.onMe_nextTable (s : State) (f : Hart → Hart) : (s.onMe f).nextTable = s.nextTable := rfl
@[simp] theorem State.onMe_freeTables (s : State) (f : Hart → Hart) : (s.onMe f).freeTables = s.freeTables := rfl
@[simp] theorem State.onMe_podOut (s : State) (f : Hart → Hart) : (s.onMe f).podOut = s.podOut := rfl
@[simp] theorem State.onMe_agenda (s : State) (f : Hart → Hart) : (s.onMe f).agenda = s.agenda := rfl
@[simp] theorem State.onMe_running (s : State) (f : Hart → Hart) : (s.onMe f).running = s.running := rfl
@[simp] theorem State.onMe_slot (s : State) (f : Hart → Hart) : (s.onMe f).slot = s.slot := rfl
@[simp] theorem State.onMe_tried (s : State) (f : Hart → Hart) : (s.onMe f).tried = s.tried := rfl
@[simp] theorem State.onMe_cur (s : State) (f : Hart → Hart) : (s.onMe f).cur = s.cur := rfl
@[simp] theorem State.onMe_ir (s : State) (f : Hart → Hart) : (s.onMe f).ir = s.ir := rfl
@[simp] theorem State.onMe_hold (s : State) (f : Hart → Hart) : (s.onMe f).hold = s.hold := rfl
@[simp] theorem State.onMe_fresh (s : State) (f : Hart → Hart) : (s.onMe f).fresh = s.fresh := rfl
@[simp] theorem State.onMe_hostReply (s : State) (f : Hart → Hart) : (s.onMe f).hostReply = s.hostReply := rfl
@[simp] theorem State.onMe_cxlDown (s : State) (f : Hart → Hart) : (s.onMe f).cxlDown = s.cxlDown := rfl

/-! setX changes cores alone. -/

@[simp] theorem State.setX_mem (s : State) (r : Reg) (v : Word) : (s.setX r v).mem = s.mem := rfl
@[simp] theorem State.setX_home (s : State) (r : Reg) (v : Word) : (s.setX r v).home = s.home := rfl
@[simp] theorem State.setX_hostCache (s : State) (r : Reg) (v : Word) : (s.setX r v).hostCache = s.hostCache := rfl
@[simp] theorem State.setX_dies (s : State) (r : Reg) (v : Word) : (s.setX r v).dies = s.dies := rfl
@[simp] theorem State.setX_ctxs (s : State) (r : Reg) (v : Word) : (s.setX r v).ctxs = s.ctxs := rfl
@[simp] theorem State.setX_templates (s : State) (r : Reg) (v : Word) : (s.setX r v).templates = s.templates := rfl
@[simp] theorem State.setX_mgmt (s : State) (r : Reg) (v : Word) : (s.setX r v).mgmt = s.mgmt := rfl
@[simp] theorem State.setX_podmap (s : State) (r : Reg) (v : Word) : (s.setX r v).podmap = s.podmap := rfl
@[simp] theorem State.setX_linksDown (s : State) (r : Reg) (v : Word) : (s.setX r v).linksDown = s.linksDown := rfl
@[simp] theorem State.setX_retries (s : State) (r : Reg) (v : Word) : (s.setX r v).retries = s.retries := rfl
@[simp] theorem State.setX_uncorrected (s : State) (r : Reg) (v : Word) : (s.setX r v).uncorrected = s.uncorrected := rfl
@[simp] theorem State.setX_devStore (s : State) (r : Reg) (v : Word) : (s.setX r v).devStore = s.devStore := rfl
@[simp] theorem State.setX_challenge (s : State) (r : Reg) (v : Word) : (s.setX r v).challenge = s.challenge := rfl
@[simp] theorem State.setX_horizon (s : State) (r : Reg) (v : Word) : (s.setX r v).horizon = s.horizon := rfl
@[simp] theorem State.setX_floor (s : State) (r : Reg) (v : Word) : (s.setX r v).floor = s.floor := rfl
@[simp] theorem State.setX_hostTick (s : State) (r : Reg) (v : Word) : (s.setX r v).hostTick = s.hostTick := rfl
@[simp] theorem State.setX_podTick (s : State) (r : Reg) (v : Word) : (s.setX r v).podTick = s.podTick := rfl
@[simp] theorem State.setX_cc (s : State) (r : Reg) (v : Word) : (s.setX r v).cc = s.cc := rfl
@[simp] theorem State.setX_bad (s : State) (r : Reg) (v : Word) : (s.setX r v).bad = s.bad := rfl
@[simp] theorem State.setX_badCore (s : State) (r : Reg) (v : Word) : (s.setX r v).badCore = s.badCore := rfl
@[simp] theorem State.setX_soft (s : State) (r : Reg) (v : Word) : (s.setX r v).soft = s.soft := rfl
@[simp] theorem State.setX_faulty (s : State) (r : Reg) (v : Word) : (s.setX r v).faulty = s.faulty := rfl
@[simp] theorem State.setX_defects (s : State) (r : Reg) (v : Word) : (s.setX r v).defects = s.defects := rfl
@[simp] theorem State.setX_wiped (s : State) (r : Reg) (v : Word) : (s.setX r v).wiped = s.wiped := rfl
@[simp] theorem State.setX_tries (s : State) (r : Reg) (v : Word) : (s.setX r v).tries = s.tries := rfl
@[simp] theorem State.setX_nextTable (s : State) (r : Reg) (v : Word) : (s.setX r v).nextTable = s.nextTable := rfl
@[simp] theorem State.setX_freeTables (s : State) (r : Reg) (v : Word) : (s.setX r v).freeTables = s.freeTables := rfl
@[simp] theorem State.setX_podOut (s : State) (r : Reg) (v : Word) : (s.setX r v).podOut = s.podOut := rfl
@[simp] theorem State.setX_agenda (s : State) (r : Reg) (v : Word) : (s.setX r v).agenda = s.agenda := rfl
@[simp] theorem State.setX_running (s : State) (r : Reg) (v : Word) : (s.setX r v).running = s.running := rfl
@[simp] theorem State.setX_slot (s : State) (r : Reg) (v : Word) : (s.setX r v).slot = s.slot := rfl
@[simp] theorem State.setX_tried (s : State) (r : Reg) (v : Word) : (s.setX r v).tried = s.tried := rfl
@[simp] theorem State.setX_cur (s : State) (r : Reg) (v : Word) : (s.setX r v).cur = s.cur := rfl
@[simp] theorem State.setX_ir (s : State) (r : Reg) (v : Word) : (s.setX r v).ir = s.ir := rfl
@[simp] theorem State.setX_hold (s : State) (r : Reg) (v : Word) : (s.setX r v).hold = s.hold := rfl
@[simp] theorem State.setX_fresh (s : State) (r : Reg) (v : Word) : (s.setX r v).fresh = s.fresh := rfl
@[simp] theorem State.setX_hostReply (s : State) (r : Reg) (v : Word) : (s.setX r v).hostReply = s.hostReply := rfl
@[simp] theorem State.setX_cxlDown (s : State) (r : Reg) (v : Word) : (s.setX r v).cxlDown = s.cxlDown := rfl

/-! setPc changes cores alone. -/

@[simp] theorem State.setPc_mem (s : State) (v : Word) : (s.setPc v).mem = s.mem := rfl
@[simp] theorem State.setPc_home (s : State) (v : Word) : (s.setPc v).home = s.home := rfl
@[simp] theorem State.setPc_hostCache (s : State) (v : Word) : (s.setPc v).hostCache = s.hostCache := rfl
@[simp] theorem State.setPc_dies (s : State) (v : Word) : (s.setPc v).dies = s.dies := rfl
@[simp] theorem State.setPc_ctxs (s : State) (v : Word) : (s.setPc v).ctxs = s.ctxs := rfl
@[simp] theorem State.setPc_templates (s : State) (v : Word) : (s.setPc v).templates = s.templates := rfl
@[simp] theorem State.setPc_mgmt (s : State) (v : Word) : (s.setPc v).mgmt = s.mgmt := rfl
@[simp] theorem State.setPc_podmap (s : State) (v : Word) : (s.setPc v).podmap = s.podmap := rfl
@[simp] theorem State.setPc_linksDown (s : State) (v : Word) : (s.setPc v).linksDown = s.linksDown := rfl
@[simp] theorem State.setPc_retries (s : State) (v : Word) : (s.setPc v).retries = s.retries := rfl
@[simp] theorem State.setPc_uncorrected (s : State) (v : Word) : (s.setPc v).uncorrected = s.uncorrected := rfl
@[simp] theorem State.setPc_devStore (s : State) (v : Word) : (s.setPc v).devStore = s.devStore := rfl
@[simp] theorem State.setPc_challenge (s : State) (v : Word) : (s.setPc v).challenge = s.challenge := rfl
@[simp] theorem State.setPc_horizon (s : State) (v : Word) : (s.setPc v).horizon = s.horizon := rfl
@[simp] theorem State.setPc_floor (s : State) (v : Word) : (s.setPc v).floor = s.floor := rfl
@[simp] theorem State.setPc_hostTick (s : State) (v : Word) : (s.setPc v).hostTick = s.hostTick := rfl
@[simp] theorem State.setPc_podTick (s : State) (v : Word) : (s.setPc v).podTick = s.podTick := rfl
@[simp] theorem State.setPc_cc (s : State) (v : Word) : (s.setPc v).cc = s.cc := rfl
@[simp] theorem State.setPc_bad (s : State) (v : Word) : (s.setPc v).bad = s.bad := rfl
@[simp] theorem State.setPc_badCore (s : State) (v : Word) : (s.setPc v).badCore = s.badCore := rfl
@[simp] theorem State.setPc_soft (s : State) (v : Word) : (s.setPc v).soft = s.soft := rfl
@[simp] theorem State.setPc_faulty (s : State) (v : Word) : (s.setPc v).faulty = s.faulty := rfl
@[simp] theorem State.setPc_defects (s : State) (v : Word) : (s.setPc v).defects = s.defects := rfl
@[simp] theorem State.setPc_wiped (s : State) (v : Word) : (s.setPc v).wiped = s.wiped := rfl
@[simp] theorem State.setPc_tries (s : State) (v : Word) : (s.setPc v).tries = s.tries := rfl
@[simp] theorem State.setPc_nextTable (s : State) (v : Word) : (s.setPc v).nextTable = s.nextTable := rfl
@[simp] theorem State.setPc_freeTables (s : State) (v : Word) : (s.setPc v).freeTables = s.freeTables := rfl
@[simp] theorem State.setPc_podOut (s : State) (v : Word) : (s.setPc v).podOut = s.podOut := rfl
@[simp] theorem State.setPc_agenda (s : State) (v : Word) : (s.setPc v).agenda = s.agenda := rfl
@[simp] theorem State.setPc_running (s : State) (v : Word) : (s.setPc v).running = s.running := rfl
@[simp] theorem State.setPc_slot (s : State) (v : Word) : (s.setPc v).slot = s.slot := rfl
@[simp] theorem State.setPc_tried (s : State) (v : Word) : (s.setPc v).tried = s.tried := rfl
@[simp] theorem State.setPc_cur (s : State) (v : Word) : (s.setPc v).cur = s.cur := rfl
@[simp] theorem State.setPc_ir (s : State) (v : Word) : (s.setPc v).ir = s.ir := rfl
@[simp] theorem State.setPc_hold (s : State) (v : Word) : (s.setPc v).hold = s.hold := rfl
@[simp] theorem State.setPc_fresh (s : State) (v : Word) : (s.setPc v).fresh = s.fresh := rfl
@[simp] theorem State.setPc_hostReply (s : State) (v : Word) : (s.setPc v).hostReply = s.hostReply := rfl
@[simp] theorem State.setPc_cxlDown (s : State) (v : Word) : (s.setPc v).cxlDown = s.cxlDown := rfl

/-! setTick changes cores alone. -/

@[simp] theorem State.setTick_mem (s : State) (c : Nat) (p : Tick) : (s.setTick c p).mem = s.mem := rfl
@[simp] theorem State.setTick_home (s : State) (c : Nat) (p : Tick) : (s.setTick c p).home = s.home := rfl
@[simp] theorem State.setTick_hostCache (s : State) (c : Nat) (p : Tick) : (s.setTick c p).hostCache = s.hostCache := rfl
@[simp] theorem State.setTick_dies (s : State) (c : Nat) (p : Tick) : (s.setTick c p).dies = s.dies := rfl
@[simp] theorem State.setTick_ctxs (s : State) (c : Nat) (p : Tick) : (s.setTick c p).ctxs = s.ctxs := rfl
@[simp] theorem State.setTick_templates (s : State) (c : Nat) (p : Tick) : (s.setTick c p).templates = s.templates := rfl
@[simp] theorem State.setTick_mgmt (s : State) (c : Nat) (p : Tick) : (s.setTick c p).mgmt = s.mgmt := rfl
@[simp] theorem State.setTick_podmap (s : State) (c : Nat) (p : Tick) : (s.setTick c p).podmap = s.podmap := rfl
@[simp] theorem State.setTick_linksDown (s : State) (c : Nat) (p : Tick) : (s.setTick c p).linksDown = s.linksDown := rfl
@[simp] theorem State.setTick_retries (s : State) (c : Nat) (p : Tick) : (s.setTick c p).retries = s.retries := rfl
@[simp] theorem State.setTick_uncorrected (s : State) (c : Nat) (p : Tick) : (s.setTick c p).uncorrected = s.uncorrected := rfl
@[simp] theorem State.setTick_devStore (s : State) (c : Nat) (p : Tick) : (s.setTick c p).devStore = s.devStore := rfl
@[simp] theorem State.setTick_challenge (s : State) (c : Nat) (p : Tick) : (s.setTick c p).challenge = s.challenge := rfl
@[simp] theorem State.setTick_horizon (s : State) (c : Nat) (p : Tick) : (s.setTick c p).horizon = s.horizon := rfl
@[simp] theorem State.setTick_floor (s : State) (c : Nat) (p : Tick) : (s.setTick c p).floor = s.floor := rfl
@[simp] theorem State.setTick_hostTick (s : State) (c : Nat) (p : Tick) : (s.setTick c p).hostTick = s.hostTick := rfl
@[simp] theorem State.setTick_podTick (s : State) (c : Nat) (p : Tick) : (s.setTick c p).podTick = s.podTick := rfl
@[simp] theorem State.setTick_cc (s : State) (c : Nat) (p : Tick) : (s.setTick c p).cc = s.cc := rfl
@[simp] theorem State.setTick_bad (s : State) (c : Nat) (p : Tick) : (s.setTick c p).bad = s.bad := rfl
@[simp] theorem State.setTick_badCore (s : State) (c : Nat) (p : Tick) : (s.setTick c p).badCore = s.badCore := rfl
@[simp] theorem State.setTick_soft (s : State) (c : Nat) (p : Tick) : (s.setTick c p).soft = s.soft := rfl
@[simp] theorem State.setTick_faulty (s : State) (c : Nat) (p : Tick) : (s.setTick c p).faulty = s.faulty := rfl
@[simp] theorem State.setTick_defects (s : State) (c : Nat) (p : Tick) : (s.setTick c p).defects = s.defects := rfl
@[simp] theorem State.setTick_wiped (s : State) (c : Nat) (p : Tick) : (s.setTick c p).wiped = s.wiped := rfl
@[simp] theorem State.setTick_tries (s : State) (c : Nat) (p : Tick) : (s.setTick c p).tries = s.tries := rfl
@[simp] theorem State.setTick_nextTable (s : State) (c : Nat) (p : Tick) : (s.setTick c p).nextTable = s.nextTable := rfl
@[simp] theorem State.setTick_freeTables (s : State) (c : Nat) (p : Tick) : (s.setTick c p).freeTables = s.freeTables := rfl
@[simp] theorem State.setTick_podOut (s : State) (c : Nat) (p : Tick) : (s.setTick c p).podOut = s.podOut := rfl
@[simp] theorem State.setTick_agenda (s : State) (c : Nat) (p : Tick) : (s.setTick c p).agenda = s.agenda := rfl
@[simp] theorem State.setTick_running (s : State) (c : Nat) (p : Tick) : (s.setTick c p).running = s.running := rfl
@[simp] theorem State.setTick_slot (s : State) (c : Nat) (p : Tick) : (s.setTick c p).slot = s.slot := rfl
@[simp] theorem State.setTick_tried (s : State) (c : Nat) (p : Tick) : (s.setTick c p).tried = s.tried := rfl
@[simp] theorem State.setTick_cur (s : State) (c : Nat) (p : Tick) : (s.setTick c p).cur = s.cur := rfl
@[simp] theorem State.setTick_ir (s : State) (c : Nat) (p : Tick) : (s.setTick c p).ir = s.ir := rfl
@[simp] theorem State.setTick_hold (s : State) (c : Nat) (p : Tick) : (s.setTick c p).hold = s.hold := rfl
@[simp] theorem State.setTick_fresh (s : State) (c : Nat) (p : Tick) : (s.setTick c p).fresh = s.fresh := rfl
@[simp] theorem State.setTick_hostReply (s : State) (c : Nat) (p : Tick) : (s.setTick c p).hostReply = s.hostReply := rfl
@[simp] theorem State.setTick_cxlDown (s : State) (c : Nat) (p : Tick) : (s.setTick c p).cxlDown = s.cxlDown := rfl

/-! onDie changes dies alone. -/

@[simp] theorem State.onDie_mem (s : State) (d : Nat) (f : Die → Die) : (s.onDie d f).mem = s.mem := rfl
@[simp] theorem State.onDie_home (s : State) (d : Nat) (f : Die → Die) : (s.onDie d f).home = s.home := rfl
@[simp] theorem State.onDie_hostCache (s : State) (d : Nat) (f : Die → Die) : (s.onDie d f).hostCache = s.hostCache := rfl
@[simp] theorem State.onDie_cores (s : State) (d : Nat) (f : Die → Die) : (s.onDie d f).cores = s.cores := rfl
@[simp] theorem State.onDie_ctxs (s : State) (d : Nat) (f : Die → Die) : (s.onDie d f).ctxs = s.ctxs := rfl
@[simp] theorem State.onDie_templates (s : State) (d : Nat) (f : Die → Die) : (s.onDie d f).templates = s.templates := rfl
@[simp] theorem State.onDie_mgmt (s : State) (d : Nat) (f : Die → Die) : (s.onDie d f).mgmt = s.mgmt := rfl
@[simp] theorem State.onDie_podmap (s : State) (d : Nat) (f : Die → Die) : (s.onDie d f).podmap = s.podmap := rfl
@[simp] theorem State.onDie_linksDown (s : State) (d : Nat) (f : Die → Die) : (s.onDie d f).linksDown = s.linksDown := rfl
@[simp] theorem State.onDie_retries (s : State) (d : Nat) (f : Die → Die) : (s.onDie d f).retries = s.retries := rfl
@[simp] theorem State.onDie_uncorrected (s : State) (d : Nat) (f : Die → Die) : (s.onDie d f).uncorrected = s.uncorrected := rfl
@[simp] theorem State.onDie_devStore (s : State) (d : Nat) (f : Die → Die) : (s.onDie d f).devStore = s.devStore := rfl
@[simp] theorem State.onDie_challenge (s : State) (d : Nat) (f : Die → Die) : (s.onDie d f).challenge = s.challenge := rfl
@[simp] theorem State.onDie_horizon (s : State) (d : Nat) (f : Die → Die) : (s.onDie d f).horizon = s.horizon := rfl
@[simp] theorem State.onDie_floor (s : State) (d : Nat) (f : Die → Die) : (s.onDie d f).floor = s.floor := rfl
@[simp] theorem State.onDie_hostTick (s : State) (d : Nat) (f : Die → Die) : (s.onDie d f).hostTick = s.hostTick := rfl
@[simp] theorem State.onDie_podTick (s : State) (d : Nat) (f : Die → Die) : (s.onDie d f).podTick = s.podTick := rfl
@[simp] theorem State.onDie_cc (s : State) (d : Nat) (f : Die → Die) : (s.onDie d f).cc = s.cc := rfl
@[simp] theorem State.onDie_bad (s : State) (d : Nat) (f : Die → Die) : (s.onDie d f).bad = s.bad := rfl
@[simp] theorem State.onDie_badCore (s : State) (d : Nat) (f : Die → Die) : (s.onDie d f).badCore = s.badCore := rfl
@[simp] theorem State.onDie_soft (s : State) (d : Nat) (f : Die → Die) : (s.onDie d f).soft = s.soft := rfl
@[simp] theorem State.onDie_faulty (s : State) (d : Nat) (f : Die → Die) : (s.onDie d f).faulty = s.faulty := rfl
@[simp] theorem State.onDie_defects (s : State) (d : Nat) (f : Die → Die) : (s.onDie d f).defects = s.defects := rfl
@[simp] theorem State.onDie_wiped (s : State) (d : Nat) (f : Die → Die) : (s.onDie d f).wiped = s.wiped := rfl
@[simp] theorem State.onDie_tries (s : State) (d : Nat) (f : Die → Die) : (s.onDie d f).tries = s.tries := rfl
@[simp] theorem State.onDie_nextTable (s : State) (d : Nat) (f : Die → Die) : (s.onDie d f).nextTable = s.nextTable := rfl
@[simp] theorem State.onDie_freeTables (s : State) (d : Nat) (f : Die → Die) : (s.onDie d f).freeTables = s.freeTables := rfl
@[simp] theorem State.onDie_podOut (s : State) (d : Nat) (f : Die → Die) : (s.onDie d f).podOut = s.podOut := rfl
@[simp] theorem State.onDie_agenda (s : State) (d : Nat) (f : Die → Die) : (s.onDie d f).agenda = s.agenda := rfl
@[simp] theorem State.onDie_running (s : State) (d : Nat) (f : Die → Die) : (s.onDie d f).running = s.running := rfl
@[simp] theorem State.onDie_slot (s : State) (d : Nat) (f : Die → Die) : (s.onDie d f).slot = s.slot := rfl
@[simp] theorem State.onDie_tried (s : State) (d : Nat) (f : Die → Die) : (s.onDie d f).tried = s.tried := rfl
@[simp] theorem State.onDie_cur (s : State) (d : Nat) (f : Die → Die) : (s.onDie d f).cur = s.cur := rfl
@[simp] theorem State.onDie_ir (s : State) (d : Nat) (f : Die → Die) : (s.onDie d f).ir = s.ir := rfl
@[simp] theorem State.onDie_hold (s : State) (d : Nat) (f : Die → Die) : (s.onDie d f).hold = s.hold := rfl
@[simp] theorem State.onDie_fresh (s : State) (d : Nat) (f : Die → Die) : (s.onDie d f).fresh = s.fresh := rfl
@[simp] theorem State.onDie_hostReply (s : State) (d : Nat) (f : Die → Die) : (s.onDie d f).hostReply = s.hostReply := rfl
@[simp] theorem State.onDie_cxlDown (s : State) (d : Nat) (f : Die → Die) : (s.onDie d f).cxlDown = s.cxlDown := rfl

/-! setHome changes home alone. -/

@[simp] theorem State.setHome_mem (s : State) (ln : Nat) (h : HomeLine) : (s.setHome ln h).mem = s.mem := rfl
@[simp] theorem State.setHome_hostCache (s : State) (ln : Nat) (h : HomeLine) : (s.setHome ln h).hostCache = s.hostCache := rfl
@[simp] theorem State.setHome_cores (s : State) (ln : Nat) (h : HomeLine) : (s.setHome ln h).cores = s.cores := rfl
@[simp] theorem State.setHome_dies (s : State) (ln : Nat) (h : HomeLine) : (s.setHome ln h).dies = s.dies := rfl
@[simp] theorem State.setHome_ctxs (s : State) (ln : Nat) (h : HomeLine) : (s.setHome ln h).ctxs = s.ctxs := rfl
@[simp] theorem State.setHome_templates (s : State) (ln : Nat) (h : HomeLine) : (s.setHome ln h).templates = s.templates := rfl
@[simp] theorem State.setHome_mgmt (s : State) (ln : Nat) (h : HomeLine) : (s.setHome ln h).mgmt = s.mgmt := rfl
@[simp] theorem State.setHome_podmap (s : State) (ln : Nat) (h : HomeLine) : (s.setHome ln h).podmap = s.podmap := rfl
@[simp] theorem State.setHome_linksDown (s : State) (ln : Nat) (h : HomeLine) : (s.setHome ln h).linksDown = s.linksDown := rfl
@[simp] theorem State.setHome_retries (s : State) (ln : Nat) (h : HomeLine) : (s.setHome ln h).retries = s.retries := rfl
@[simp] theorem State.setHome_uncorrected (s : State) (ln : Nat) (h : HomeLine) : (s.setHome ln h).uncorrected = s.uncorrected := rfl
@[simp] theorem State.setHome_devStore (s : State) (ln : Nat) (h : HomeLine) : (s.setHome ln h).devStore = s.devStore := rfl
@[simp] theorem State.setHome_challenge (s : State) (ln : Nat) (h : HomeLine) : (s.setHome ln h).challenge = s.challenge := rfl
@[simp] theorem State.setHome_horizon (s : State) (ln : Nat) (h : HomeLine) : (s.setHome ln h).horizon = s.horizon := rfl
@[simp] theorem State.setHome_floor (s : State) (ln : Nat) (h : HomeLine) : (s.setHome ln h).floor = s.floor := rfl
@[simp] theorem State.setHome_hostTick (s : State) (ln : Nat) (h : HomeLine) : (s.setHome ln h).hostTick = s.hostTick := rfl
@[simp] theorem State.setHome_podTick (s : State) (ln : Nat) (h : HomeLine) : (s.setHome ln h).podTick = s.podTick := rfl
@[simp] theorem State.setHome_cc (s : State) (ln : Nat) (h : HomeLine) : (s.setHome ln h).cc = s.cc := rfl
@[simp] theorem State.setHome_bad (s : State) (ln : Nat) (h : HomeLine) : (s.setHome ln h).bad = s.bad := rfl
@[simp] theorem State.setHome_badCore (s : State) (ln : Nat) (h : HomeLine) : (s.setHome ln h).badCore = s.badCore := rfl
@[simp] theorem State.setHome_soft (s : State) (ln : Nat) (h : HomeLine) : (s.setHome ln h).soft = s.soft := rfl
@[simp] theorem State.setHome_faulty (s : State) (ln : Nat) (h : HomeLine) : (s.setHome ln h).faulty = s.faulty := rfl
@[simp] theorem State.setHome_defects (s : State) (ln : Nat) (h : HomeLine) : (s.setHome ln h).defects = s.defects := rfl
@[simp] theorem State.setHome_wiped (s : State) (ln : Nat) (h : HomeLine) : (s.setHome ln h).wiped = s.wiped := rfl
@[simp] theorem State.setHome_tries (s : State) (ln : Nat) (h : HomeLine) : (s.setHome ln h).tries = s.tries := rfl
@[simp] theorem State.setHome_nextTable (s : State) (ln : Nat) (h : HomeLine) : (s.setHome ln h).nextTable = s.nextTable := rfl
@[simp] theorem State.setHome_freeTables (s : State) (ln : Nat) (h : HomeLine) : (s.setHome ln h).freeTables = s.freeTables := rfl
@[simp] theorem State.setHome_podOut (s : State) (ln : Nat) (h : HomeLine) : (s.setHome ln h).podOut = s.podOut := rfl
@[simp] theorem State.setHome_agenda (s : State) (ln : Nat) (h : HomeLine) : (s.setHome ln h).agenda = s.agenda := rfl
@[simp] theorem State.setHome_running (s : State) (ln : Nat) (h : HomeLine) : (s.setHome ln h).running = s.running := rfl
@[simp] theorem State.setHome_slot (s : State) (ln : Nat) (h : HomeLine) : (s.setHome ln h).slot = s.slot := rfl
@[simp] theorem State.setHome_tried (s : State) (ln : Nat) (h : HomeLine) : (s.setHome ln h).tried = s.tried := rfl
@[simp] theorem State.setHome_cur (s : State) (ln : Nat) (h : HomeLine) : (s.setHome ln h).cur = s.cur := rfl
@[simp] theorem State.setHome_ir (s : State) (ln : Nat) (h : HomeLine) : (s.setHome ln h).ir = s.ir := rfl
@[simp] theorem State.setHome_hold (s : State) (ln : Nat) (h : HomeLine) : (s.setHome ln h).hold = s.hold := rfl
@[simp] theorem State.setHome_fresh (s : State) (ln : Nat) (h : HomeLine) : (s.setHome ln h).fresh = s.fresh := rfl
@[simp] theorem State.setHome_hostReply (s : State) (ln : Nat) (h : HomeLine) : (s.setHome ln h).hostReply = s.hostReply := rfl
@[simp] theorem State.setHome_cxlDown (s : State) (ln : Nat) (h : HomeLine) : (s.setHome ln h).cxlDown = s.cxlDown := rfl

/-! setCtx changes ctxs alone. -/

@[simp] theorem State.setCtx_mem (s : State) (n : Nat) (c : Ctx) : (s.setCtx n c).mem = s.mem := rfl
@[simp] theorem State.setCtx_home (s : State) (n : Nat) (c : Ctx) : (s.setCtx n c).home = s.home := rfl
@[simp] theorem State.setCtx_hostCache (s : State) (n : Nat) (c : Ctx) : (s.setCtx n c).hostCache = s.hostCache := rfl
@[simp] theorem State.setCtx_cores (s : State) (n : Nat) (c : Ctx) : (s.setCtx n c).cores = s.cores := rfl
@[simp] theorem State.setCtx_dies (s : State) (n : Nat) (c : Ctx) : (s.setCtx n c).dies = s.dies := rfl
@[simp] theorem State.setCtx_templates (s : State) (n : Nat) (c : Ctx) : (s.setCtx n c).templates = s.templates := rfl
@[simp] theorem State.setCtx_mgmt (s : State) (n : Nat) (c : Ctx) : (s.setCtx n c).mgmt = s.mgmt := rfl
@[simp] theorem State.setCtx_podmap (s : State) (n : Nat) (c : Ctx) : (s.setCtx n c).podmap = s.podmap := rfl
@[simp] theorem State.setCtx_linksDown (s : State) (n : Nat) (c : Ctx) : (s.setCtx n c).linksDown = s.linksDown := rfl
@[simp] theorem State.setCtx_retries (s : State) (n : Nat) (c : Ctx) : (s.setCtx n c).retries = s.retries := rfl
@[simp] theorem State.setCtx_uncorrected (s : State) (n : Nat) (c : Ctx) : (s.setCtx n c).uncorrected = s.uncorrected := rfl
@[simp] theorem State.setCtx_devStore (s : State) (n : Nat) (c : Ctx) : (s.setCtx n c).devStore = s.devStore := rfl
@[simp] theorem State.setCtx_challenge (s : State) (n : Nat) (c : Ctx) : (s.setCtx n c).challenge = s.challenge := rfl
@[simp] theorem State.setCtx_horizon (s : State) (n : Nat) (c : Ctx) : (s.setCtx n c).horizon = s.horizon := rfl
@[simp] theorem State.setCtx_floor (s : State) (n : Nat) (c : Ctx) : (s.setCtx n c).floor = s.floor := rfl
@[simp] theorem State.setCtx_hostTick (s : State) (n : Nat) (c : Ctx) : (s.setCtx n c).hostTick = s.hostTick := rfl
@[simp] theorem State.setCtx_podTick (s : State) (n : Nat) (c : Ctx) : (s.setCtx n c).podTick = s.podTick := rfl
@[simp] theorem State.setCtx_cc (s : State) (n : Nat) (c : Ctx) : (s.setCtx n c).cc = s.cc := rfl
@[simp] theorem State.setCtx_bad (s : State) (n : Nat) (c : Ctx) : (s.setCtx n c).bad = s.bad := rfl
@[simp] theorem State.setCtx_badCore (s : State) (n : Nat) (c : Ctx) : (s.setCtx n c).badCore = s.badCore := rfl
@[simp] theorem State.setCtx_soft (s : State) (n : Nat) (c : Ctx) : (s.setCtx n c).soft = s.soft := rfl
@[simp] theorem State.setCtx_faulty (s : State) (n : Nat) (c : Ctx) : (s.setCtx n c).faulty = s.faulty := rfl
@[simp] theorem State.setCtx_defects (s : State) (n : Nat) (c : Ctx) : (s.setCtx n c).defects = s.defects := rfl
@[simp] theorem State.setCtx_wiped (s : State) (n : Nat) (c : Ctx) : (s.setCtx n c).wiped = s.wiped := rfl
@[simp] theorem State.setCtx_tries (s : State) (n : Nat) (c : Ctx) : (s.setCtx n c).tries = s.tries := rfl
@[simp] theorem State.setCtx_nextTable (s : State) (n : Nat) (c : Ctx) : (s.setCtx n c).nextTable = s.nextTable := rfl
@[simp] theorem State.setCtx_freeTables (s : State) (n : Nat) (c : Ctx) : (s.setCtx n c).freeTables = s.freeTables := rfl
@[simp] theorem State.setCtx_podOut (s : State) (n : Nat) (c : Ctx) : (s.setCtx n c).podOut = s.podOut := rfl
@[simp] theorem State.setCtx_agenda (s : State) (n : Nat) (c : Ctx) : (s.setCtx n c).agenda = s.agenda := rfl
@[simp] theorem State.setCtx_running (s : State) (n : Nat) (c : Ctx) : (s.setCtx n c).running = s.running := rfl
@[simp] theorem State.setCtx_slot (s : State) (n : Nat) (c : Ctx) : (s.setCtx n c).slot = s.slot := rfl
@[simp] theorem State.setCtx_tried (s : State) (n : Nat) (c : Ctx) : (s.setCtx n c).tried = s.tried := rfl
@[simp] theorem State.setCtx_cur (s : State) (n : Nat) (c : Ctx) : (s.setCtx n c).cur = s.cur := rfl
@[simp] theorem State.setCtx_ir (s : State) (n : Nat) (c : Ctx) : (s.setCtx n c).ir = s.ir := rfl
@[simp] theorem State.setCtx_hold (s : State) (n : Nat) (c : Ctx) : (s.setCtx n c).hold = s.hold := rfl
@[simp] theorem State.setCtx_fresh (s : State) (n : Nat) (c : Ctx) : (s.setCtx n c).fresh = s.fresh := rfl
@[simp] theorem State.setCtx_hostReply (s : State) (n : Nat) (c : Ctx) : (s.setCtx n c).hostReply = s.hostReply := rfl
@[simp] theorem State.setCtx_cxlDown (s : State) (n : Nat) (c : Ctx) : (s.setCtx n c).cxlDown = s.cxlDown := rfl

/-! post changes agenda alone. -/

@[simp] theorem State.post_mem (s : State) (e : Event) : (s.post e).mem = s.mem := rfl
@[simp] theorem State.post_home (s : State) (e : Event) : (s.post e).home = s.home := rfl
@[simp] theorem State.post_hostCache (s : State) (e : Event) : (s.post e).hostCache = s.hostCache := rfl
@[simp] theorem State.post_cores (s : State) (e : Event) : (s.post e).cores = s.cores := rfl
@[simp] theorem State.post_dies (s : State) (e : Event) : (s.post e).dies = s.dies := rfl
@[simp] theorem State.post_ctxs (s : State) (e : Event) : (s.post e).ctxs = s.ctxs := rfl
@[simp] theorem State.post_templates (s : State) (e : Event) : (s.post e).templates = s.templates := rfl
@[simp] theorem State.post_mgmt (s : State) (e : Event) : (s.post e).mgmt = s.mgmt := rfl
@[simp] theorem State.post_podmap (s : State) (e : Event) : (s.post e).podmap = s.podmap := rfl
@[simp] theorem State.post_linksDown (s : State) (e : Event) : (s.post e).linksDown = s.linksDown := rfl
@[simp] theorem State.post_retries (s : State) (e : Event) : (s.post e).retries = s.retries := rfl
@[simp] theorem State.post_uncorrected (s : State) (e : Event) : (s.post e).uncorrected = s.uncorrected := rfl
@[simp] theorem State.post_devStore (s : State) (e : Event) : (s.post e).devStore = s.devStore := rfl
@[simp] theorem State.post_challenge (s : State) (e : Event) : (s.post e).challenge = s.challenge := rfl
@[simp] theorem State.post_horizon (s : State) (e : Event) : (s.post e).horizon = s.horizon := rfl
@[simp] theorem State.post_floor (s : State) (e : Event) : (s.post e).floor = s.floor := rfl
@[simp] theorem State.post_hostTick (s : State) (e : Event) : (s.post e).hostTick = s.hostTick := rfl
@[simp] theorem State.post_podTick (s : State) (e : Event) : (s.post e).podTick = s.podTick := rfl
@[simp] theorem State.post_cc (s : State) (e : Event) : (s.post e).cc = s.cc := rfl
@[simp] theorem State.post_bad (s : State) (e : Event) : (s.post e).bad = s.bad := rfl
@[simp] theorem State.post_badCore (s : State) (e : Event) : (s.post e).badCore = s.badCore := rfl
@[simp] theorem State.post_soft (s : State) (e : Event) : (s.post e).soft = s.soft := rfl
@[simp] theorem State.post_faulty (s : State) (e : Event) : (s.post e).faulty = s.faulty := rfl
@[simp] theorem State.post_defects (s : State) (e : Event) : (s.post e).defects = s.defects := rfl
@[simp] theorem State.post_wiped (s : State) (e : Event) : (s.post e).wiped = s.wiped := rfl
@[simp] theorem State.post_tries (s : State) (e : Event) : (s.post e).tries = s.tries := rfl
@[simp] theorem State.post_nextTable (s : State) (e : Event) : (s.post e).nextTable = s.nextTable := rfl
@[simp] theorem State.post_freeTables (s : State) (e : Event) : (s.post e).freeTables = s.freeTables := rfl
@[simp] theorem State.post_podOut (s : State) (e : Event) : (s.post e).podOut = s.podOut := rfl
@[simp] theorem State.post_running (s : State) (e : Event) : (s.post e).running = s.running := rfl
@[simp] theorem State.post_slot (s : State) (e : Event) : (s.post e).slot = s.slot := rfl
@[simp] theorem State.post_tried (s : State) (e : Event) : (s.post e).tried = s.tried := rfl
@[simp] theorem State.post_cur (s : State) (e : Event) : (s.post e).cur = s.cur := rfl
@[simp] theorem State.post_ir (s : State) (e : Event) : (s.post e).ir = s.ir := rfl
@[simp] theorem State.post_hold (s : State) (e : Event) : (s.post e).hold = s.hold := rfl
@[simp] theorem State.post_fresh (s : State) (e : Event) : (s.post e).fresh = s.fresh := rfl
@[simp] theorem State.post_hostReply (s : State) (e : Event) : (s.post e).hostReply = s.hostReply := rfl
@[simp] theorem State.post_cxlDown (s : State) (e : Event) : (s.post e).cxlDown = s.cxlDown := rfl

/-! Hart.complete. -/

@[simp] theorem Hart.complete_x (t : Hart) (n : Nat) : (t.complete n).x = t.x := rfl
@[simp] theorem Hart.complete_mode (t : Hart) (n : Nat) : (t.complete n).mode = t.mode := rfl
@[simp] theorem Hart.complete_live (t : Hart) (n : Nat) : (t.complete n).live = t.live := rfl
@[simp] theorem Hart.complete_stopped (t : Hart) (n : Nat) : (t.complete n).stopped = t.stopped := rfl
@[simp] theorem Hart.complete_endTask (t : Hart) (n : Nat) : (t.complete n).endTask = t.endTask := rfl
@[simp] theorem Hart.complete_vtype (t : Hart) (n : Nat) : (t.complete n).vtype = t.vtype := rfl
@[simp] theorem Hart.complete_vl (t : Hart) (n : Nat) : (t.complete n).vl = t.vl := rfl
@[simp] theorem Hart.complete_vpad (t : Hart) (n : Nat) : (t.complete n).vpad = t.vpad := rfl
@[simp] theorem Hart.complete_vstride (t : Hart) (n : Nat) : (t.complete n).vstride = t.vstride := rfl
@[simp] theorem Hart.complete_vcfgst (t : Hart) (n : Nat) : (t.complete n).vcfgst = t.vcfgst := rfl
@[simp] theorem Hart.complete_vsrng (t : Hart) (n : Nat) : (t.complete n).vsrng = t.vsrng := rfl
@[simp] theorem Hart.complete_vexc (t : Hart) (n : Nat) : (t.complete n).vexc = t.vexc := rfl
@[simp] theorem Hart.complete_chain (t : Hart) (n : Nat) : (t.complete n).chain = t.chain := rfl
@[simp] theorem Hart.complete_chainRec (t : Hart) (n : Nat) : (t.complete n).chainRec = t.chainRec := rfl
@[simp] theorem Hart.complete_vrpc (t : Hart) (n : Nat) : (t.complete n).vrpc = t.vrpc := rfl
@[simp] theorem Hart.complete_v (t : Hart) (n : Nat) : (t.complete n).v = t.v := rfl
@[simp] theorem Hart.complete_d (t : Hart) (n : Nat) : (t.complete n).d = t.d := rfl
@[simp] theorem Hart.complete_dtag (t : Hart) (n : Nat) : (t.complete n).dtag = t.dtag := rfl
@[simp] theorem Hart.complete_share (t : Hart) (n : Nat) : (t.complete n).share = t.share := rfl
@[simp] theorem Hart.complete_annex (t : Hart) (n : Nat) : (t.complete n).annex = t.annex := rfl
@[simp] theorem Hart.complete_resident (t : Hart) (n : Nat) : (t.complete n).resident = t.resident := rfl
@[simp] theorem Hart.complete_zeroMarks (t : Hart) (n : Nat) : (t.complete n).zeroMarks = t.zeroMarks := rfl
@[simp] theorem Hart.complete_nextId (t : Hart) (n : Nat) : (t.complete n).nextId = t.nextId := rfl
@[simp] theorem Hart.complete_zwait (t : Hart) (n : Nat) : (t.complete n).zwait = t.zwait := rfl
@[simp] theorem Hart.complete_resv (t : Hart) (n : Nat) : (t.complete n).resv = t.resv := rfl
@[simp] theorem Hart.complete_rays (t : Hart) (n : Nat) : (t.complete n).rays = t.rays := rfl
@[simp] theorem Hart.complete_rayOrder (t : Hart) (n : Nat) : (t.complete n).rayOrder = t.rayOrder := rfl
@[simp] theorem Hart.complete_pending (t : Hart) (n : Nat) : (t.complete n).pending = t.pending := rfl
@[simp] theorem Hart.complete_barWait (t : Hart) (n : Nat) : (t.complete n).barWait = t.barWait := rfl
@[simp] theorem Hart.complete_task (t : Hart) (n : Nat) : (t.complete n).task = t.task := rfl
@[simp] theorem Hart.complete_yield (t : Hart) (n : Nat) : (t.complete n).yield = t.yield := rfl
@[simp] theorem Hart.complete_jobs (t : Hart) (n : Nat) : (t.complete n).jobs = t.jobs := rfl
@[simp] theorem Hart.complete_mstatus (t : Hart) (n : Nat) : (t.complete n).mstatus = t.mstatus := rfl
@[simp] theorem Hart.complete_sepc (t : Hart) (n : Nat) : (t.complete n).sepc = t.sepc := rfl
@[simp] theorem Hart.complete_scause (t : Hart) (n : Nat) : (t.complete n).scause = t.scause := rfl
@[simp] theorem Hart.complete_stval (t : Hart) (n : Nat) : (t.complete n).stval = t.stval := rfl
@[simp] theorem Hart.complete_sscratch (t : Hart) (n : Nat) : (t.complete n).sscratch = t.sscratch := rfl
@[simp] theorem Hart.complete_mepc (t : Hart) (n : Nat) : (t.complete n).mepc = t.mepc := rfl
@[simp] theorem Hart.complete_mcause (t : Hart) (n : Nat) : (t.complete n).mcause = t.mcause := rfl
@[simp] theorem Hart.complete_mtval (t : Hart) (n : Nat) : (t.complete n).mtval = t.mtval := rfl
@[simp] theorem Hart.complete_mscratch (t : Hart) (n : Nat) : (t.complete n).mscratch = t.mscratch := rfl
@[simp] theorem Hart.complete_mcycle (t : Hart) (n : Nat) : (t.complete n).mcycle = t.mcycle := rfl

/-! Hart.vset. -/

@[simp] theorem Hart.vset_pc (t : Hart) (r : Reg) (v : VReg) : (t.vset r v).pc = t.pc := rfl
@[simp] theorem Hart.vset_x (t : Hart) (r : Reg) (v : VReg) : (t.vset r v).x = t.x := rfl
@[simp] theorem Hart.vset_mode (t : Hart) (r : Reg) (v : VReg) : (t.vset r v).mode = t.mode := rfl
@[simp] theorem Hart.vset_live (t : Hart) (r : Reg) (v : VReg) : (t.vset r v).live = t.live := rfl
@[simp] theorem Hart.vset_stopped (t : Hart) (r : Reg) (v : VReg) : (t.vset r v).stopped = t.stopped := rfl
@[simp] theorem Hart.vset_endTask (t : Hart) (r : Reg) (v : VReg) : (t.vset r v).endTask = t.endTask := rfl
@[simp] theorem Hart.vset_vtype (t : Hart) (r : Reg) (v : VReg) : (t.vset r v).vtype = t.vtype := rfl
@[simp] theorem Hart.vset_vl (t : Hart) (r : Reg) (v : VReg) : (t.vset r v).vl = t.vl := rfl
@[simp] theorem Hart.vset_vpad (t : Hart) (r : Reg) (v : VReg) : (t.vset r v).vpad = t.vpad := rfl
@[simp] theorem Hart.vset_vstride (t : Hart) (r : Reg) (v : VReg) : (t.vset r v).vstride = t.vstride := rfl
@[simp] theorem Hart.vset_vcfgst (t : Hart) (r : Reg) (v : VReg) : (t.vset r v).vcfgst = t.vcfgst := rfl
@[simp] theorem Hart.vset_vsrng (t : Hart) (r : Reg) (v : VReg) : (t.vset r v).vsrng = t.vsrng := rfl
@[simp] theorem Hart.vset_vexc (t : Hart) (r : Reg) (v : VReg) : (t.vset r v).vexc = t.vexc := rfl
@[simp] theorem Hart.vset_chain (t : Hart) (r : Reg) (v : VReg) : (t.vset r v).chain = t.chain := rfl
@[simp] theorem Hart.vset_chainRec (t : Hart) (r : Reg) (v : VReg) : (t.vset r v).chainRec = t.chainRec := rfl
@[simp] theorem Hart.vset_vrpc (t : Hart) (r : Reg) (v : VReg) : (t.vset r v).vrpc = t.vrpc := rfl
@[simp] theorem Hart.vset_d (t : Hart) (r : Reg) (v : VReg) : (t.vset r v).d = t.d := rfl
@[simp] theorem Hart.vset_dtag (t : Hart) (r : Reg) (v : VReg) : (t.vset r v).dtag = t.dtag := rfl
@[simp] theorem Hart.vset_share (t : Hart) (r : Reg) (v : VReg) : (t.vset r v).share = t.share := rfl
@[simp] theorem Hart.vset_annex (t : Hart) (r : Reg) (v : VReg) : (t.vset r v).annex = t.annex := rfl
@[simp] theorem Hart.vset_resident (t : Hart) (r : Reg) (v : VReg) : (t.vset r v).resident = t.resident := rfl
@[simp] theorem Hart.vset_zeroMarks (t : Hart) (r : Reg) (v : VReg) : (t.vset r v).zeroMarks = t.zeroMarks := rfl
@[simp] theorem Hart.vset_nextId (t : Hart) (r : Reg) (v : VReg) : (t.vset r v).nextId = t.nextId := rfl
@[simp] theorem Hart.vset_zwait (t : Hart) (r : Reg) (v : VReg) : (t.vset r v).zwait = t.zwait := rfl
@[simp] theorem Hart.vset_windows (t : Hart) (r : Reg) (v : VReg) : (t.vset r v).windows = t.windows := rfl
@[simp] theorem Hart.vset_resv (t : Hart) (r : Reg) (v : VReg) : (t.vset r v).resv = t.resv := rfl
@[simp] theorem Hart.vset_rays (t : Hart) (r : Reg) (v : VReg) : (t.vset r v).rays = t.rays := rfl
@[simp] theorem Hart.vset_rayOrder (t : Hart) (r : Reg) (v : VReg) : (t.vset r v).rayOrder = t.rayOrder := rfl
@[simp] theorem Hart.vset_pending (t : Hart) (r : Reg) (v : VReg) : (t.vset r v).pending = t.pending := rfl
@[simp] theorem Hart.vset_barWait (t : Hart) (r : Reg) (v : VReg) : (t.vset r v).barWait = t.barWait := rfl
@[simp] theorem Hart.vset_task (t : Hart) (r : Reg) (v : VReg) : (t.vset r v).task = t.task := rfl
@[simp] theorem Hart.vset_yield (t : Hart) (r : Reg) (v : VReg) : (t.vset r v).yield = t.yield := rfl
@[simp] theorem Hart.vset_jobs (t : Hart) (r : Reg) (v : VReg) : (t.vset r v).jobs = t.jobs := rfl
@[simp] theorem Hart.vset_mstatus (t : Hart) (r : Reg) (v : VReg) : (t.vset r v).mstatus = t.mstatus := rfl
@[simp] theorem Hart.vset_sepc (t : Hart) (r : Reg) (v : VReg) : (t.vset r v).sepc = t.sepc := rfl
@[simp] theorem Hart.vset_scause (t : Hart) (r : Reg) (v : VReg) : (t.vset r v).scause = t.scause := rfl
@[simp] theorem Hart.vset_stval (t : Hart) (r : Reg) (v : VReg) : (t.vset r v).stval = t.stval := rfl
@[simp] theorem Hart.vset_sscratch (t : Hart) (r : Reg) (v : VReg) : (t.vset r v).sscratch = t.sscratch := rfl
@[simp] theorem Hart.vset_mepc (t : Hart) (r : Reg) (v : VReg) : (t.vset r v).mepc = t.mepc := rfl
@[simp] theorem Hart.vset_mcause (t : Hart) (r : Reg) (v : VReg) : (t.vset r v).mcause = t.mcause := rfl
@[simp] theorem Hart.vset_mtval (t : Hart) (r : Reg) (v : VReg) : (t.vset r v).mtval = t.mtval := rfl
@[simp] theorem Hart.vset_mscratch (t : Hart) (r : Reg) (v : VReg) : (t.vset r v).mscratch = t.mscratch := rfl
@[simp] theorem Hart.vset_mcycle (t : Hart) (r : Reg) (v : VReg) : (t.vset r v).mcycle = t.mcycle := rfl
@[simp] theorem Hart.vset_minstret (t : Hart) (r : Reg) (v : VReg) : (t.vset r v).minstret = t.minstret := rfl

/-! Hart.raise. -/

@[simp] theorem Hart.raise_pc (t : Hart) (f : Fl) : (t.raise f).pc = t.pc := rfl
@[simp] theorem Hart.raise_x (t : Hart) (f : Fl) : (t.raise f).x = t.x := rfl
@[simp] theorem Hart.raise_mode (t : Hart) (f : Fl) : (t.raise f).mode = t.mode := rfl
@[simp] theorem Hart.raise_live (t : Hart) (f : Fl) : (t.raise f).live = t.live := rfl
@[simp] theorem Hart.raise_stopped (t : Hart) (f : Fl) : (t.raise f).stopped = t.stopped := rfl
@[simp] theorem Hart.raise_endTask (t : Hart) (f : Fl) : (t.raise f).endTask = t.endTask := rfl
@[simp] theorem Hart.raise_vtype (t : Hart) (f : Fl) : (t.raise f).vtype = t.vtype := rfl
@[simp] theorem Hart.raise_vl (t : Hart) (f : Fl) : (t.raise f).vl = t.vl := rfl
@[simp] theorem Hart.raise_vpad (t : Hart) (f : Fl) : (t.raise f).vpad = t.vpad := rfl
@[simp] theorem Hart.raise_vstride (t : Hart) (f : Fl) : (t.raise f).vstride = t.vstride := rfl
@[simp] theorem Hart.raise_vcfgst (t : Hart) (f : Fl) : (t.raise f).vcfgst = t.vcfgst := rfl
@[simp] theorem Hart.raise_vsrng (t : Hart) (f : Fl) : (t.raise f).vsrng = t.vsrng := rfl
@[simp] theorem Hart.raise_chain (t : Hart) (f : Fl) : (t.raise f).chain = t.chain := rfl
@[simp] theorem Hart.raise_chainRec (t : Hart) (f : Fl) : (t.raise f).chainRec = t.chainRec := rfl
@[simp] theorem Hart.raise_vrpc (t : Hart) (f : Fl) : (t.raise f).vrpc = t.vrpc := rfl
@[simp] theorem Hart.raise_v (t : Hart) (f : Fl) : (t.raise f).v = t.v := rfl
@[simp] theorem Hart.raise_d (t : Hart) (f : Fl) : (t.raise f).d = t.d := rfl
@[simp] theorem Hart.raise_dtag (t : Hart) (f : Fl) : (t.raise f).dtag = t.dtag := rfl
@[simp] theorem Hart.raise_share (t : Hart) (f : Fl) : (t.raise f).share = t.share := rfl
@[simp] theorem Hart.raise_annex (t : Hart) (f : Fl) : (t.raise f).annex = t.annex := rfl
@[simp] theorem Hart.raise_resident (t : Hart) (f : Fl) : (t.raise f).resident = t.resident := rfl
@[simp] theorem Hart.raise_zeroMarks (t : Hart) (f : Fl) : (t.raise f).zeroMarks = t.zeroMarks := rfl
@[simp] theorem Hart.raise_nextId (t : Hart) (f : Fl) : (t.raise f).nextId = t.nextId := rfl
@[simp] theorem Hart.raise_zwait (t : Hart) (f : Fl) : (t.raise f).zwait = t.zwait := rfl
@[simp] theorem Hart.raise_windows (t : Hart) (f : Fl) : (t.raise f).windows = t.windows := rfl
@[simp] theorem Hart.raise_resv (t : Hart) (f : Fl) : (t.raise f).resv = t.resv := rfl
@[simp] theorem Hart.raise_rays (t : Hart) (f : Fl) : (t.raise f).rays = t.rays := rfl
@[simp] theorem Hart.raise_rayOrder (t : Hart) (f : Fl) : (t.raise f).rayOrder = t.rayOrder := rfl
@[simp] theorem Hart.raise_pending (t : Hart) (f : Fl) : (t.raise f).pending = t.pending := rfl
@[simp] theorem Hart.raise_barWait (t : Hart) (f : Fl) : (t.raise f).barWait = t.barWait := rfl
@[simp] theorem Hart.raise_task (t : Hart) (f : Fl) : (t.raise f).task = t.task := rfl
@[simp] theorem Hart.raise_yield (t : Hart) (f : Fl) : (t.raise f).yield = t.yield := rfl
@[simp] theorem Hart.raise_jobs (t : Hart) (f : Fl) : (t.raise f).jobs = t.jobs := rfl
@[simp] theorem Hart.raise_mstatus (t : Hart) (f : Fl) : (t.raise f).mstatus = t.mstatus := rfl
@[simp] theorem Hart.raise_sepc (t : Hart) (f : Fl) : (t.raise f).sepc = t.sepc := rfl
@[simp] theorem Hart.raise_scause (t : Hart) (f : Fl) : (t.raise f).scause = t.scause := rfl
@[simp] theorem Hart.raise_stval (t : Hart) (f : Fl) : (t.raise f).stval = t.stval := rfl
@[simp] theorem Hart.raise_sscratch (t : Hart) (f : Fl) : (t.raise f).sscratch = t.sscratch := rfl
@[simp] theorem Hart.raise_mepc (t : Hart) (f : Fl) : (t.raise f).mepc = t.mepc := rfl
@[simp] theorem Hart.raise_mcause (t : Hart) (f : Fl) : (t.raise f).mcause = t.mcause := rfl
@[simp] theorem Hart.raise_mtval (t : Hart) (f : Fl) : (t.raise f).mtval = t.mtval := rfl
@[simp] theorem Hart.raise_mscratch (t : Hart) (f : Fl) : (t.raise f).mscratch = t.mscratch := rfl
@[simp] theorem Hart.raise_mcycle (t : Hart) (f : Fl) : (t.raise f).mcycle = t.mcycle := rfl
@[simp] theorem Hart.raise_minstret (t : Hart) (f : Fl) : (t.raise f).minstret = t.minstret := rfl

/-! Hart.endFlight. -/

@[simp] theorem Hart.endFlight_pc (t : Hart) (n : Nat) : (t.endFlight n).pc = t.pc := rfl
@[simp] theorem Hart.endFlight_x (t : Hart) (n : Nat) : (t.endFlight n).x = t.x := rfl
@[simp] theorem Hart.endFlight_mode (t : Hart) (n : Nat) : (t.endFlight n).mode = t.mode := rfl
@[simp] theorem Hart.endFlight_live (t : Hart) (n : Nat) : (t.endFlight n).live = t.live := rfl
@[simp] theorem Hart.endFlight_stopped (t : Hart) (n : Nat) : (t.endFlight n).stopped = t.stopped := rfl
@[simp] theorem Hart.endFlight_endTask (t : Hart) (n : Nat) : (t.endFlight n).endTask = t.endTask := rfl
@[simp] theorem Hart.endFlight_vtype (t : Hart) (n : Nat) : (t.endFlight n).vtype = t.vtype := rfl
@[simp] theorem Hart.endFlight_vl (t : Hart) (n : Nat) : (t.endFlight n).vl = t.vl := rfl
@[simp] theorem Hart.endFlight_vpad (t : Hart) (n : Nat) : (t.endFlight n).vpad = t.vpad := rfl
@[simp] theorem Hart.endFlight_vstride (t : Hart) (n : Nat) : (t.endFlight n).vstride = t.vstride := rfl
@[simp] theorem Hart.endFlight_vcfgst (t : Hart) (n : Nat) : (t.endFlight n).vcfgst = t.vcfgst := rfl
@[simp] theorem Hart.endFlight_vsrng (t : Hart) (n : Nat) : (t.endFlight n).vsrng = t.vsrng := rfl
@[simp] theorem Hart.endFlight_vexc (t : Hart) (n : Nat) : (t.endFlight n).vexc = t.vexc := rfl
@[simp] theorem Hart.endFlight_chainRec (t : Hart) (n : Nat) : (t.endFlight n).chainRec = t.chainRec := rfl
@[simp] theorem Hart.endFlight_vrpc (t : Hart) (n : Nat) : (t.endFlight n).vrpc = t.vrpc := rfl
@[simp] theorem Hart.endFlight_v (t : Hart) (n : Nat) : (t.endFlight n).v = t.v := rfl
@[simp] theorem Hart.endFlight_d (t : Hart) (n : Nat) : (t.endFlight n).d = t.d := rfl
@[simp] theorem Hart.endFlight_dtag (t : Hart) (n : Nat) : (t.endFlight n).dtag = t.dtag := rfl
@[simp] theorem Hart.endFlight_share (t : Hart) (n : Nat) : (t.endFlight n).share = t.share := rfl
@[simp] theorem Hart.endFlight_annex (t : Hart) (n : Nat) : (t.endFlight n).annex = t.annex := rfl
@[simp] theorem Hart.endFlight_resident (t : Hart) (n : Nat) : (t.endFlight n).resident = t.resident := rfl
@[simp] theorem Hart.endFlight_zeroMarks (t : Hart) (n : Nat) : (t.endFlight n).zeroMarks = t.zeroMarks := rfl
@[simp] theorem Hart.endFlight_nextId (t : Hart) (n : Nat) : (t.endFlight n).nextId = t.nextId := rfl
@[simp] theorem Hart.endFlight_zwait (t : Hart) (n : Nat) : (t.endFlight n).zwait = t.zwait := rfl
@[simp] theorem Hart.endFlight_windows (t : Hart) (n : Nat) : (t.endFlight n).windows = t.windows := rfl
@[simp] theorem Hart.endFlight_resv (t : Hart) (n : Nat) : (t.endFlight n).resv = t.resv := rfl
@[simp] theorem Hart.endFlight_rays (t : Hart) (n : Nat) : (t.endFlight n).rays = t.rays := rfl
@[simp] theorem Hart.endFlight_rayOrder (t : Hart) (n : Nat) : (t.endFlight n).rayOrder = t.rayOrder := rfl
@[simp] theorem Hart.endFlight_pending (t : Hart) (n : Nat) : (t.endFlight n).pending = t.pending := rfl
@[simp] theorem Hart.endFlight_barWait (t : Hart) (n : Nat) : (t.endFlight n).barWait = t.barWait := rfl
@[simp] theorem Hart.endFlight_task (t : Hart) (n : Nat) : (t.endFlight n).task = t.task := rfl
@[simp] theorem Hart.endFlight_yield (t : Hart) (n : Nat) : (t.endFlight n).yield = t.yield := rfl
@[simp] theorem Hart.endFlight_jobs (t : Hart) (n : Nat) : (t.endFlight n).jobs = t.jobs := rfl
@[simp] theorem Hart.endFlight_mstatus (t : Hart) (n : Nat) : (t.endFlight n).mstatus = t.mstatus := rfl
@[simp] theorem Hart.endFlight_sepc (t : Hart) (n : Nat) : (t.endFlight n).sepc = t.sepc := rfl
@[simp] theorem Hart.endFlight_scause (t : Hart) (n : Nat) : (t.endFlight n).scause = t.scause := rfl
@[simp] theorem Hart.endFlight_stval (t : Hart) (n : Nat) : (t.endFlight n).stval = t.stval := rfl
@[simp] theorem Hart.endFlight_sscratch (t : Hart) (n : Nat) : (t.endFlight n).sscratch = t.sscratch := rfl
@[simp] theorem Hart.endFlight_mepc (t : Hart) (n : Nat) : (t.endFlight n).mepc = t.mepc := rfl
@[simp] theorem Hart.endFlight_mcause (t : Hart) (n : Nat) : (t.endFlight n).mcause = t.mcause := rfl
@[simp] theorem Hart.endFlight_mtval (t : Hart) (n : Nat) : (t.endFlight n).mtval = t.mtval := rfl
@[simp] theorem Hart.endFlight_mscratch (t : Hart) (n : Nat) : (t.endFlight n).mscratch = t.mscratch := rfl
@[simp] theorem Hart.endFlight_mcycle (t : Hart) (n : Nat) : (t.endFlight n).mcycle = t.mcycle := rfl
@[simp] theorem Hart.endFlight_minstret (t : Hart) (n : Nat) : (t.endFlight n).minstret = t.minstret := rfl

/-! Hart.setFlight. -/

@[simp] theorem Hart.setFlight_pc (t : Hart) (f : Flight) : (t.setFlight f).pc = t.pc := rfl
@[simp] theorem Hart.setFlight_x (t : Hart) (f : Flight) : (t.setFlight f).x = t.x := rfl
@[simp] theorem Hart.setFlight_mode (t : Hart) (f : Flight) : (t.setFlight f).mode = t.mode := rfl
@[simp] theorem Hart.setFlight_live (t : Hart) (f : Flight) : (t.setFlight f).live = t.live := rfl
@[simp] theorem Hart.setFlight_stopped (t : Hart) (f : Flight) : (t.setFlight f).stopped = t.stopped := rfl
@[simp] theorem Hart.setFlight_endTask (t : Hart) (f : Flight) : (t.setFlight f).endTask = t.endTask := rfl
@[simp] theorem Hart.setFlight_vtype (t : Hart) (f : Flight) : (t.setFlight f).vtype = t.vtype := rfl
@[simp] theorem Hart.setFlight_vl (t : Hart) (f : Flight) : (t.setFlight f).vl = t.vl := rfl
@[simp] theorem Hart.setFlight_vpad (t : Hart) (f : Flight) : (t.setFlight f).vpad = t.vpad := rfl
@[simp] theorem Hart.setFlight_vstride (t : Hart) (f : Flight) : (t.setFlight f).vstride = t.vstride := rfl
@[simp] theorem Hart.setFlight_vcfgst (t : Hart) (f : Flight) : (t.setFlight f).vcfgst = t.vcfgst := rfl
@[simp] theorem Hart.setFlight_vsrng (t : Hart) (f : Flight) : (t.setFlight f).vsrng = t.vsrng := rfl
@[simp] theorem Hart.setFlight_vexc (t : Hart) (f : Flight) : (t.setFlight f).vexc = t.vexc := rfl
@[simp] theorem Hart.setFlight_chainRec (t : Hart) (f : Flight) : (t.setFlight f).chainRec = t.chainRec := rfl
@[simp] theorem Hart.setFlight_vrpc (t : Hart) (f : Flight) : (t.setFlight f).vrpc = t.vrpc := rfl
@[simp] theorem Hart.setFlight_v (t : Hart) (f : Flight) : (t.setFlight f).v = t.v := rfl
@[simp] theorem Hart.setFlight_d (t : Hart) (f : Flight) : (t.setFlight f).d = t.d := rfl
@[simp] theorem Hart.setFlight_dtag (t : Hart) (f : Flight) : (t.setFlight f).dtag = t.dtag := rfl
@[simp] theorem Hart.setFlight_share (t : Hart) (f : Flight) : (t.setFlight f).share = t.share := rfl
@[simp] theorem Hart.setFlight_annex (t : Hart) (f : Flight) : (t.setFlight f).annex = t.annex := rfl
@[simp] theorem Hart.setFlight_resident (t : Hart) (f : Flight) : (t.setFlight f).resident = t.resident := rfl
@[simp] theorem Hart.setFlight_zeroMarks (t : Hart) (f : Flight) : (t.setFlight f).zeroMarks = t.zeroMarks := rfl
@[simp] theorem Hart.setFlight_nextId (t : Hart) (f : Flight) : (t.setFlight f).nextId = t.nextId := rfl
@[simp] theorem Hart.setFlight_zwait (t : Hart) (f : Flight) : (t.setFlight f).zwait = t.zwait := rfl
@[simp] theorem Hart.setFlight_windows (t : Hart) (f : Flight) : (t.setFlight f).windows = t.windows := rfl
@[simp] theorem Hart.setFlight_resv (t : Hart) (f : Flight) : (t.setFlight f).resv = t.resv := rfl
@[simp] theorem Hart.setFlight_rays (t : Hart) (f : Flight) : (t.setFlight f).rays = t.rays := rfl
@[simp] theorem Hart.setFlight_rayOrder (t : Hart) (f : Flight) : (t.setFlight f).rayOrder = t.rayOrder := rfl
@[simp] theorem Hart.setFlight_pending (t : Hart) (f : Flight) : (t.setFlight f).pending = t.pending := rfl
@[simp] theorem Hart.setFlight_barWait (t : Hart) (f : Flight) : (t.setFlight f).barWait = t.barWait := rfl
@[simp] theorem Hart.setFlight_task (t : Hart) (f : Flight) : (t.setFlight f).task = t.task := rfl
@[simp] theorem Hart.setFlight_yield (t : Hart) (f : Flight) : (t.setFlight f).yield = t.yield := rfl
@[simp] theorem Hart.setFlight_jobs (t : Hart) (f : Flight) : (t.setFlight f).jobs = t.jobs := rfl
@[simp] theorem Hart.setFlight_mstatus (t : Hart) (f : Flight) : (t.setFlight f).mstatus = t.mstatus := rfl
@[simp] theorem Hart.setFlight_sepc (t : Hart) (f : Flight) : (t.setFlight f).sepc = t.sepc := rfl
@[simp] theorem Hart.setFlight_scause (t : Hart) (f : Flight) : (t.setFlight f).scause = t.scause := rfl
@[simp] theorem Hart.setFlight_stval (t : Hart) (f : Flight) : (t.setFlight f).stval = t.stval := rfl
@[simp] theorem Hart.setFlight_sscratch (t : Hart) (f : Flight) : (t.setFlight f).sscratch = t.sscratch := rfl
@[simp] theorem Hart.setFlight_mepc (t : Hart) (f : Flight) : (t.setFlight f).mepc = t.mepc := rfl
@[simp] theorem Hart.setFlight_mcause (t : Hart) (f : Flight) : (t.setFlight f).mcause = t.mcause := rfl
@[simp] theorem Hart.setFlight_mtval (t : Hart) (f : Flight) : (t.setFlight f).mtval = t.mtval := rfl
@[simp] theorem Hart.setFlight_mscratch (t : Hart) (f : Flight) : (t.setFlight f).mscratch = t.mscratch := rfl
@[simp] theorem Hart.setFlight_mcycle (t : Hart) (f : Flight) : (t.setFlight f).mcycle = t.mcycle := rfl
@[simp] theorem Hart.setFlight_minstret (t : Hart) (f : Flight) : (t.setFlight f).minstret = t.minstret := rfl

/-! Hart.put. -/

@[simp] theorem Hart.put_pc (t : Hart) (r : Reg) (v : Word) : (t.put r v).pc = t.pc := by unfold Hart.put; split <;> rfl
@[simp] theorem Hart.put_mode (t : Hart) (r : Reg) (v : Word) : (t.put r v).mode = t.mode := by unfold Hart.put; split <;> rfl
@[simp] theorem Hart.put_live (t : Hart) (r : Reg) (v : Word) : (t.put r v).live = t.live := by unfold Hart.put; split <;> rfl
@[simp] theorem Hart.put_stopped (t : Hart) (r : Reg) (v : Word) : (t.put r v).stopped = t.stopped := by unfold Hart.put; split <;> rfl
@[simp] theorem Hart.put_endTask (t : Hart) (r : Reg) (v : Word) : (t.put r v).endTask = t.endTask := by unfold Hart.put; split <;> rfl
@[simp] theorem Hart.put_vtype (t : Hart) (r : Reg) (v : Word) : (t.put r v).vtype = t.vtype := by unfold Hart.put; split <;> rfl
@[simp] theorem Hart.put_vl (t : Hart) (r : Reg) (v : Word) : (t.put r v).vl = t.vl := by unfold Hart.put; split <;> rfl
@[simp] theorem Hart.put_vpad (t : Hart) (r : Reg) (v : Word) : (t.put r v).vpad = t.vpad := by unfold Hart.put; split <;> rfl
@[simp] theorem Hart.put_vstride (t : Hart) (r : Reg) (v : Word) : (t.put r v).vstride = t.vstride := by unfold Hart.put; split <;> rfl
@[simp] theorem Hart.put_vcfgst (t : Hart) (r : Reg) (v : Word) : (t.put r v).vcfgst = t.vcfgst := by unfold Hart.put; split <;> rfl
@[simp] theorem Hart.put_vsrng (t : Hart) (r : Reg) (v : Word) : (t.put r v).vsrng = t.vsrng := by unfold Hart.put; split <;> rfl
@[simp] theorem Hart.put_vexc (t : Hart) (r : Reg) (v : Word) : (t.put r v).vexc = t.vexc := by unfold Hart.put; split <;> rfl
@[simp] theorem Hart.put_chain (t : Hart) (r : Reg) (v : Word) : (t.put r v).chain = t.chain := by unfold Hart.put; split <;> rfl
@[simp] theorem Hart.put_chainRec (t : Hart) (r : Reg) (v : Word) : (t.put r v).chainRec = t.chainRec := by unfold Hart.put; split <;> rfl
@[simp] theorem Hart.put_vrpc (t : Hart) (r : Reg) (v : Word) : (t.put r v).vrpc = t.vrpc := by unfold Hart.put; split <;> rfl
@[simp] theorem Hart.put_v (t : Hart) (r : Reg) (v : Word) : (t.put r v).v = t.v := by unfold Hart.put; split <;> rfl
@[simp] theorem Hart.put_d (t : Hart) (r : Reg) (v : Word) : (t.put r v).d = t.d := by unfold Hart.put; split <;> rfl
@[simp] theorem Hart.put_dtag (t : Hart) (r : Reg) (v : Word) : (t.put r v).dtag = t.dtag := by unfold Hart.put; split <;> rfl
@[simp] theorem Hart.put_share (t : Hart) (r : Reg) (v : Word) : (t.put r v).share = t.share := by unfold Hart.put; split <;> rfl
@[simp] theorem Hart.put_annex (t : Hart) (r : Reg) (v : Word) : (t.put r v).annex = t.annex := by unfold Hart.put; split <;> rfl
@[simp] theorem Hart.put_resident (t : Hart) (r : Reg) (v : Word) : (t.put r v).resident = t.resident := by unfold Hart.put; split <;> rfl
@[simp] theorem Hart.put_zeroMarks (t : Hart) (r : Reg) (v : Word) : (t.put r v).zeroMarks = t.zeroMarks := by unfold Hart.put; split <;> rfl
@[simp] theorem Hart.put_nextId (t : Hart) (r : Reg) (v : Word) : (t.put r v).nextId = t.nextId := by unfold Hart.put; split <;> rfl
@[simp] theorem Hart.put_zwait (t : Hart) (r : Reg) (v : Word) : (t.put r v).zwait = t.zwait := by unfold Hart.put; split <;> rfl
@[simp] theorem Hart.put_windows (t : Hart) (r : Reg) (v : Word) : (t.put r v).windows = t.windows := by unfold Hart.put; split <;> rfl
@[simp] theorem Hart.put_resv (t : Hart) (r : Reg) (v : Word) : (t.put r v).resv = t.resv := by unfold Hart.put; split <;> rfl
@[simp] theorem Hart.put_rays (t : Hart) (r : Reg) (v : Word) : (t.put r v).rays = t.rays := by unfold Hart.put; split <;> rfl
@[simp] theorem Hart.put_rayOrder (t : Hart) (r : Reg) (v : Word) : (t.put r v).rayOrder = t.rayOrder := by unfold Hart.put; split <;> rfl
@[simp] theorem Hart.put_pending (t : Hart) (r : Reg) (v : Word) : (t.put r v).pending = t.pending := by unfold Hart.put; split <;> rfl
@[simp] theorem Hart.put_barWait (t : Hart) (r : Reg) (v : Word) : (t.put r v).barWait = t.barWait := by unfold Hart.put; split <;> rfl
@[simp] theorem Hart.put_task (t : Hart) (r : Reg) (v : Word) : (t.put r v).task = t.task := by unfold Hart.put; split <;> rfl
@[simp] theorem Hart.put_yield (t : Hart) (r : Reg) (v : Word) : (t.put r v).yield = t.yield := by unfold Hart.put; split <;> rfl
@[simp] theorem Hart.put_jobs (t : Hart) (r : Reg) (v : Word) : (t.put r v).jobs = t.jobs := by unfold Hart.put; split <;> rfl
@[simp] theorem Hart.put_mstatus (t : Hart) (r : Reg) (v : Word) : (t.put r v).mstatus = t.mstatus := by unfold Hart.put; split <;> rfl
@[simp] theorem Hart.put_sepc (t : Hart) (r : Reg) (v : Word) : (t.put r v).sepc = t.sepc := by unfold Hart.put; split <;> rfl
@[simp] theorem Hart.put_scause (t : Hart) (r : Reg) (v : Word) : (t.put r v).scause = t.scause := by unfold Hart.put; split <;> rfl
@[simp] theorem Hart.put_stval (t : Hart) (r : Reg) (v : Word) : (t.put r v).stval = t.stval := by unfold Hart.put; split <;> rfl
@[simp] theorem Hart.put_sscratch (t : Hart) (r : Reg) (v : Word) : (t.put r v).sscratch = t.sscratch := by unfold Hart.put; split <;> rfl
@[simp] theorem Hart.put_mepc (t : Hart) (r : Reg) (v : Word) : (t.put r v).mepc = t.mepc := by unfold Hart.put; split <;> rfl
@[simp] theorem Hart.put_mcause (t : Hart) (r : Reg) (v : Word) : (t.put r v).mcause = t.mcause := by unfold Hart.put; split <;> rfl
@[simp] theorem Hart.put_mtval (t : Hart) (r : Reg) (v : Word) : (t.put r v).mtval = t.mtval := by unfold Hart.put; split <;> rfl
@[simp] theorem Hart.put_mscratch (t : Hart) (r : Reg) (v : Word) : (t.put r v).mscratch = t.mscratch := by unfold Hart.put; split <;> rfl
@[simp] theorem Hart.put_mcycle (t : Hart) (r : Reg) (v : Word) : (t.put r v).mcycle = t.mcycle := by unfold Hart.put; split <;> rfl
@[simp] theorem Hart.put_minstret (t : Hart) (r : Reg) (v : Word) : (t.put r v).minstret = t.minstret := by unfold Hart.put; split <;> rfl

/-! Reading after writing. -/

@[simp] theorem State.core_setCore_self (s : State) (c : Nat) (k : Core) : (s.setCore c k).core c = k := by
  simp [State.core, State.setCore]

theorem State.core_setCore_ne (s : State) {c d : Nat} (k : Core) (h : d ≠ c) : (s.setCore c k).core d = s.core d := by
  simp only [State.core, State.setCore]; exact Tab.getD_set_ne _ _ _ h

@[simp] theorem State.setCore_setCore (s : State) (c : Nat) (k l : Core) : (s.setCore c k).setCore c l = s.setCore c l := by
  simp [State.setCore]

@[simp] theorem Core.hart_setHart_self (k : Core) (c h : Nat) (t : Hart) : (k.setHart h t).hart c h = t := by
  simp [Core.hart, Core.setHart]

theorem Core.hart_setHart_ne (k : Core) (c : Nat) {h g : Nat} (t : Hart) (n : g ≠ h) :
    (k.setHart h t).hart c g = k.hart c g := by
  simp only [Core.hart, Core.setHart]; exact Tab.getD_set_ne _ _ _ n

@[simp] theorem Core.setHart_setHart (k : Core) (h : Nat) (t u : Hart) : (k.setHart h t).setHart h u = k.setHart h u := by
  simp [Core.setHart]

@[simp] theorem State.hart_setHart_self (s : State) (i : HartId) (t : Hart) : (s.setHart i t).hart i = t := by
  simp [State.hart, State.setHart]

theorem State.hart_setHart_ne (s : State) {i j : HartId} (t : Hart) (h : j ≠ i) : (s.setHart i t).hart j = s.hart j := by
  obtain ⟨ci, hi⟩ := i
  obtain ⟨cj, hj⟩ := j
  by_cases hc : cj = ci
  · subst hc
    have hn : hj ≠ hi := fun e => h (by rw [e])
    simp only [State.hart, State.setHart, State.core_setCore_self]
    exact Core.hart_setHart_ne _ _ _ hn
  · simp only [State.hart, State.setHart]
    rw [State.core_setCore_ne _ _ hc]

@[simp] theorem State.setHart_setHart (s : State) (i : HartId) (t u : Hart) : (s.setHart i t).setHart i u = s.setHart i u := by
  simp [State.setHart]

@[simp] theorem State.hart_onHart_self (s : State) (i : HartId) (f : Hart → Hart) : (s.onHart i f).hart i = f (s.hart i) := by
  simp [State.onHart]

theorem State.hart_onHart_ne (s : State) {i j : HartId} (f : Hart → Hart) (h : j ≠ i) : (s.onHart i f).hart j = s.hart j :=
  State.hart_setHart_ne s _ h

@[simp] theorem State.me_onMe (s : State) (f : Hart → Hart) : (s.onMe f).me = f s.me := by
  simp [State.me, State.onMe]

@[simp] theorem State.onMe_onMe (s : State) (f g : Hart → Hart) : (s.onMe f).onMe g = s.onMe (fun t => g (f t)) := by
  simp [State.onMe, State.onHart]

@[simp] theorem State.x_onMe (s : State) (f : Hart → Hart) (r : Reg) : (s.onMe f).x r = (f s.me).get r := by
  simp [State.x]

@[simp] theorem State.pc_onMe (s : State) (f : Hart → Hart) : (s.onMe f).pc = (f s.me).pc := by
  simp [State.pc]

theorem State.setX_eq (s : State) (r : Reg) (v : Word) : s.setX r v = s.onMe (fun t => t.put r v) := rfl

@[simp] theorem Hart.get_zero (t : Hart) : t.get 0 = 0 := rfl

@[simp] theorem Hart.put_zero (t : Hart) (v : Word) : t.put 0 v = t := rfl

theorem Hart.get_put (t : Hart) (d r : Reg) (v : Word) :
    (t.put d v).get r = if r = 0 then 0 else if r = d then v else t.get r := by
  unfold Hart.get Hart.put
  split
  · rfl
  · split
    · rename_i hr hd
      subst hd
      rw [if_neg hr]
    · split
      · rename_i h; subst h; exact Vector.getElem_set_self r.isLt
      · rename_i h; exact Vector.getElem_set_ne d.isLt r.isLt (fun e => h (Fin.ext e.symm))

@[simp] theorem Hart.get_complete (t : Hart) (n : Nat) (r : Reg) : (t.complete n).get r = t.get r := rfl

@[simp] theorem State.core_onMe_bare (s : State) (f : Hart → Hart) (c : Nat) :
    { ((s.onMe f).core c) with img := { ((s.onMe f).core c).img with harts := [] } }
      = { (s.core c) with img := { (s.core c).img with harts := [] } } := by
  unfold State.onMe State.onHart State.setHart
  by_cases h : c = s.cur.core
  · subst h; simp [Core.setHart]
  · rw [State.core_setCore_ne _ _ h]

theorem State.core_onMe_ne (s : State) (f : Hart → Hart) (c : Nat) (h : c ≠ s.cur.core) : (s.onMe f).core c = s.core c := by
  unfold State.onMe State.onHart State.setHart
  exact State.core_setCore_ne _ _ h

@[simp] theorem State.die_onMe (s : State) (f : Hart → Hart) (d : Nat) : (s.onMe f).die d = s.die d := rfl

@[simp] theorem State.ctx_onMe (s : State) (f : Hart → Hart) (n : Nat) : (s.onMe f).ctx n = s.ctx n := rfl

@[simp] theorem State.core_onCore_self (s : State) (c : Nat) (f : Core → Core) : (s.onCore c f).core c = f (s.core c) := by
  simp [State.onCore]

theorem State.core_onCore_ne (s : State) {c d : Nat} (f : Core → Core) (h : d ≠ c) : (s.onCore c f).core d = s.core d := by
  simp only [State.onCore]; exact State.core_setCore_ne _ _ h

@[simp] theorem State.img_onImg_self (s : State) (c : Nat) (f : Img → Img) : (s.onImg c f).img c = f (s.img c) := by
  simp [State.onImg, State.img]

@[simp] theorem State.die_onDie_self (s : State) (d : Nat) (f : Die → Die) : (s.onDie d f).die d = f (s.die d) := by
  simp [State.die, State.onDie]

theorem State.die_onDie_ne (s : State) {d e : Nat} (f : Die → Die) (h : e ≠ d) : (s.onDie d f).die e = s.die e := by
  simp only [State.die, State.onDie]; exact Tab.getD_set_ne _ _ _ h

@[simp] theorem State.homeLine_setHome_self (s : State) (ln : Nat) (h : HomeLine) : (s.setHome ln h).homeLine ln = h := by
  simp [State.homeLine, State.setHome]

theorem State.homeLine_setHome_ne (s : State) {ln l : Nat} (h : HomeLine) (n : l ≠ ln) :
    (s.setHome ln h).homeLine l = s.homeLine l := by
  simp only [State.homeLine, State.setHome]; exact Tab.getD_set_ne _ _ _ n

@[simp] theorem State.ctx_setCtx_self (s : State) (n : Nat) (c : Ctx) : (s.setCtx n c).ctx n = some c := by
  simp [State.ctx, State.setCtx, Tab.get?_set_self]

theorem State.ctx_setCtx_ne (s : State) {n m : Nat} (c : Ctx) (h : m ≠ n) : (s.setCtx n c).ctx m = s.ctx m := by
  simp only [State.ctx, State.setCtx]; exact Tab.get?_set_ne _ _ h

end Sys2Proof.Machine
end

