-- ==== Sys2Proof/Laws/Issue.lean ====
section
/-! SUPPORT. What the shared operations of issue do on an idle hardware context, and the frame of a change to the
executing hardware context alone. -/

namespace Sys2Proof.Machine

theorem State.lookahead_idle {s : State} (h : s.idle) (u : Uses) (k : State → Out) : s.lookahead u k = k s := by
  unfold State.lookahead
  simp [h.1, h.2]

theorem State.base_idle {s : State} (h : s.idle) (r w : List Reg) (k : State → Out) : s.base r w k = k s :=
  State.lookahead_idle h _ k

theorem State.drained_idle {s : State} (h : s.idle) (k : State → Out) : s.drained k = k s := by
  simp [State.drained, State.unchained, h.1, h.2]

theorem State.inOrder_idle {s : State} (h : s.idle) (k : State → Out) : s.inOrder k = k s := by
  simp [State.inOrder, h.1]

theorem State.unchained_idle {s : State} (h : s.idle) (k : State → Out) : s.unchained k = k s := by
  simp [State.unchained, h.1]

theorem State.madeDone_idle {s : State} (h : s.idle) (k : State → Out) : s.madeDone k = s.matrixDone k := by
  simp [State.madeDone, h.1]

theorem State.accessesDone_performed {s : State} (h : s.idle) (hp : s.performed) (k : State → Out) : s.accessesDone k = k s := by
  unfold State.accessesDone
  rw [State.madeDone_idle h]
  simp [State.matrixDone, hp.1, hp.2]

theorem State.compute_idle {s : State} (h : s.idle) (len : Nat) (d : Reg) (src : List Reg) (v : State → Word) :
    s.compute len d src v = .next (s.wrote d (v s) len) := by
  unfold State.compute State.nop
  split
  · rename_i hd
    subst hd
    rw [State.base_idle h]
    rfl
  · rw [State.base_idle h]
    simp [State.done, State.wrote, State.setX_eq]

theorem State.branch_idle {s : State} (h : s.idle) (len : Nat) (a b : Reg) (off : Word) (c : Word → Word → Bool) :
    s.branch len a b off c
      = .next (if c (s.x a) (s.x b) then s.went 0 0 (s.pc + off) else s.passed len) := by
  unfold State.branch
  rw [State.base_idle h]
  by_cases hc : c (s.x a) (s.x b) = true
  · simp [hc, State.jump, State.went]
  · simp [hc, State.done, State.passed]

theorem State.link_idle {s : State} (h : s.idle) (len : Nat) (d : Reg) (src : List Reg) (target : State → Word) :
    s.link len d src target
      = .next (s.went d (s.pc + BitVec.ofNat 64 len) (target s)) := by
  unfold State.link
  rw [State.base_idle h]
  simp [State.jump, State.went, State.setX_eq]

theorem State.loadReg_idle {s s1 : State} (h : s.idle) (len : Nat) (d a : Reg) (off : Word) (n : Nat) (sg : Bool)
    {bs : List Byte} (hr : s.read (s.x a + off) n = .ok bs s1) :
    s.loadReg len d a off n sg = .next (s1.wrote d (extend sg bs) len) := by
  unfold State.loadReg
  rw [State.base_idle h, State.inOrder_idle h, hr]
  simp [Acc.run, State.done, State.wrote, State.setX_eq]

theorem State.storeReg_idle {s s1 : State} (h : s.idle) (len : Nat) (a b : Reg) (off : Word) (n : Nat)
    (hw : s.write (s.x a + off) (lowBytes n (s.x b)) = .ok () s1) :
    s.storeReg len a b off n = .next (s1.passed len) := by
  unfold State.storeReg
  rw [State.base_idle h, State.inOrder_idle h, hw]
  simp [Acc.run, State.done, State.passed]

/-! A change to the executing hardware context alone. -/

theorem State.sameElse_onMe (s : State) (f : Hart → Hart) : s.sameElse (s.onMe f) := by
  refine ⟨rfl, ?_, ?_⟩
  · intro c
    exact State.core_onMe_bare s f c
  · intro j hj
    exact State.hart_onHart_ne s f hj

theorem Hart.sameButX_put_complete (t : Hart) (d : Reg) (v : Word) (n : Nat) (h : t.windows = []) :
    t.sameButX ((t.put d v).complete n) := by
  unfold Hart.sameButX Hart.complete Hart.passWindows Hart.put
  cases t
  simp only at h
  subst h
  split <;> rfl

theorem State.writesX_wrote (s : State) (d : Reg) (v : Word) (n : Nat) : s.writesX (s.wrote d v n) d v := by
  refine ⟨?_, ?_⟩
  · simp only [State.wrote, State.x_onMe, Hart.get_complete, Hart.get_put]
    split <;> simp
  · intro r hr
    simp only [State.wrote, State.x_onMe, Hart.get_complete, Hart.get_put]
    split
    · rename_i h0; subst h0; rfl
    · rfl

end Sys2Proof.Machine
end

