-- ==== Sys2Proof/Laws/Memory.lean ====
section
/-! SUPPORT. What reading and writing memory do, and that every memory operation keeps the canonical form. -/

namespace Sys2Proof

/-- The canonical form: keys strictly rising and no entry 0. -/
theorem Memory.wf_iff (m : Memory) : Memory.wf m = true ↔ Tab.wf m = true ∧ ∀ e ∈ m, e.2 ≠ 0 := by
  simp [Memory.wf]

theorem Memory.get_put_self (m : Memory) (a : Nat) (b : Byte) : Memory.get (Memory.put m a b) a = b := by
  unfold Memory.get Memory.put
  split
  · rename_i h; subst h; simp [Tab.getD, Tab.get?_erase_self]
  · simp

theorem Memory.get_put_ne (m : Memory) {a c : Nat} (b : Byte) (h : c ≠ a) :
    Memory.get (Memory.put m a b) c = Memory.get m c := by
  unfold Memory.get Memory.put
  split
  · simp [Tab.getD, Tab.get?_erase_ne m h]
  · exact Tab.getD_set_ne m b 0 h

theorem Memory.wf_put (m : Memory) (a : Nat) (b : Byte) (h : Memory.wf m = true) : Memory.wf (Memory.put m a b) = true := by
  rw [Memory.wf_iff] at h ⊢
  unfold Memory.put
  split
  · exact ⟨Tab.wf_erase m a h.1, fun e he => h.2 e (Tab.mem_erase m a e he)⟩
  · rename_i hb
    refine ⟨Tab.wf_set m a b h.1, fun e he => ?_⟩
    rcases Tab.mem_set m a b e he with rfl | he
    · exact hb
    · exact h.2 e he

theorem Memory.wf_write (m : Memory) (a : Nat) (bs : List Byte) (h : Memory.wf m = true) :
    Memory.wf (Memory.write m a bs) = true := by
  induction bs generalizing m a with
  | nil => exact h
  | cons b t ih => exact ih (Memory.put m a b) (a + 1) (Memory.wf_put m a b h)

/-- An address below those written reads as before. -/
theorem Memory.get_write_below (m : Memory) (bs : List Byte) {a c : Nat} (h : c < a) :
    Memory.get (Memory.write m a bs) c = Memory.get m c := by
  induction bs generalizing m a with
  | nil => rfl
  | cons b t ih =>
    have h1 := ih (Memory.put m a b) (Nat.lt_succ_of_lt h)
    exact h1.trans (Memory.get_put_ne m b (Nat.ne_of_lt h))

/-- An address above those written reads as before. -/
theorem Memory.get_write_above (m : Memory) (bs : List Byte) {a c : Nat} (h : a + bs.length ≤ c) :
    Memory.get (Memory.write m a bs) c = Memory.get m c := by
  induction bs generalizing m a with
  | nil => rfl
  | cons b t ih =>
    simp only [List.length_cons] at h
    have h1 := ih (Memory.put m a b) (a := a + 1) (by omega)
    exact h1.trans (Memory.get_put_ne m b (by omega))

/-- What a memory operation keeps: the canonical form of the memory it works on. -/
def Machine.State.keepsForm (s t : Machine.State) : Prop := Memory.wf s.mem = true → Memory.wf t.mem = true

namespace Machine

theorem State.keepsForm_refl (s : State) : s.keepsForm s := id

theorem State.keepsForm_trans {s t u : State} (h1 : s.keepsForm t) (h2 : t.keepsForm u) : s.keepsForm u := fun h => h2 (h1 h)

/-- A change that leaves the memory alone keeps its form. -/
theorem State.keepsForm_of_mem {s t : State} (h : t.mem = s.mem) : s.keepsForm t := fun hw => h ▸ hw

/-- A write of bytes keeps the form. -/
theorem State.keepsForm_of_write {s t : State} {a : Nat} {bs : List Byte} (h : t.mem = Memory.write s.mem a bs) : s.keepsForm t :=
  fun hw => h ▸ Memory.wf_write s.mem a bs hw

@[simp] theorem State.mem_onDie (s : State) (d : Nat) (f : Die → Die) : (s.onDie d f).mem = s.mem := rfl

@[simp] theorem State.mem_setHome (s : State) (ln : Nat) (h : HomeLine) : (s.setHome ln h).mem = s.mem := rfl

@[simp] theorem State.mem_clearResv (s : State) (i : Option HartId) (l : Loc) : (s.clearResv i l).mem = s.mem := by
  cases h : s.otherResv i l <;> simp [State.clearResv, h]

theorem State.keepsForm_put (s : State) (a : Nat) (bs : List Byte) : s.keepsForm { s with mem := Memory.write s.mem a bs } :=
  State.keepsForm_of_write rfl

@[simp] theorem State.mem_endOwnership (s : State) (d ln : Nat) : (s.endOwnership d ln).mem = s.mem := by
  unfold State.endOwnership
  split <;> rfl

theorem State.keepsForm_giveBack (s : State) (d ln : Nat) : s.keepsForm (s.giveBack d ln) := by
  unfold State.giveBack
  cases Tab.get? (s.die d).owned ln with
  | none => exact State.keepsForm_of_mem (State.mem_setHome _ _ _)
  | some o =>
    dsimp only
    refine State.keepsForm_trans (t := (s.onDie d (fun k => { k with owned := Tab.erase k.owned ln })).endOwnership d ln) (State.keepsForm_of_mem (State.mem_endOwnership _ _ _)) ?_
    refine State.keepsForm_trans ?_ (State.keepsForm_of_mem (State.mem_setHome _ _ _))
    split
    · split
      · exact State.keepsForm_refl _
      · exact State.keepsForm_put _ _ _
    · exact State.keepsForm_refl _

theorem State.keepsForm_recall (s : State) (ln : Nat) : s.keepsForm (s.recall ln) := by
  unfold State.recall
  split
  · exact State.keepsForm_giveBack s _ ln
  · exact State.keepsForm_refl s

theorem State.keepsForm_retag (s : State) (q tag ln : Nat) : s.keepsForm (s.retag q tag ln) := by
  have h2 : ∀ t : State, t.keepsForm (match Tab.get? (t.die q).loans ln with
      | some l => if l.tag = tag ∨ l.tag = 0 then t else t.onDie q (fun k => { k with loans := Tab.erase k.loans ln })
      | none => t) := by
    intro t
    split
    · split
      · exact State.keepsForm_refl t
      · exact State.keepsForm_of_mem rfl
    · exact State.keepsForm_refl t
  unfold State.retag
  cases Tab.get? (s.die q).owned ln with
  | none => exact h2 s
  | some o =>
    have h1 : s.keepsForm (if o.tag = tag ∨ o.tag = 0 then s else s.giveBack q ln) := by
      split
      · exact State.keepsForm_refl s
      · exact State.keepsForm_giveBack s q ln
    exact State.keepsForm_trans h1 (h2 _)

theorem State.keepsForm_readPhys (s : State) (q : Nat) (p : Tick) (lend : Lend) (tag pa n : Nat) :
    s.keepsForm (s.readPhys q p lend tag pa n).2.2 := by
  unfold State.readPhys
  dsimp only
  have h := State.keepsForm_retag s q tag (pa / 128)
  split
  · exact State.keepsForm_refl s
  · split
    · exact h
    · split
      · exact h
      · split
        · exact h
        · split
          · exact h
          · split
            · exact State.keepsForm_trans h (State.keepsForm_of_mem rfl)
            · split
              · exact State.keepsForm_trans h (State.keepsForm_of_mem rfl)
              · exact h

theorem State.keepsForm_writeHome (s : State) (p : Tick) (pa : Nat) (data : List Byte) : s.keepsForm (s.writeHome p pa data).2 :=
  State.keepsForm_of_write rfl

theorem State.keepsForm_writeOwned (s : State) (q : Nat) (p : Tick) (o : Owned) (tag pa : Nat) (data : List Byte) :
    s.keepsForm (s.writeOwned q p o tag pa data).2 := State.keepsForm_refl s

theorem State.keepsForm_obtain (s : State) (q : Nat) (p : Tick) (tag ln : Nat) : s.keepsForm (s.obtain q p tag ln).2 :=
  State.keepsForm_recall s ln

theorem State.keepsForm_writePhys (s : State) (q : Nat) (p : Tick) (how : Put) (tag pa : Nat) (data : List Byte) :
    s.keepsForm (s.writePhys q p how tag pa data).2 := by
  unfold State.writePhys
  dsimp only
  have h := State.keepsForm_retag s q tag (pa / 128)
  have hh : ∀ t : State, t.keepsForm ((t.recall (pa / 128)).writeHome p pa data).2 := fun t =>
    State.keepsForm_trans (State.keepsForm_recall t _) (State.keepsForm_writeHome _ p pa data)
  split
  · exact State.keepsForm_of_write rfl
  · refine State.keepsForm_trans h ?_
    split
    · exact hh _
    · split
      · exact State.keepsForm_writeOwned _ q p _ tag pa data
      · exact hh _
    · split
      · exact hh _
      · split
        · exact State.keepsForm_writeOwned _ q p _ tag pa data
        · exact State.keepsForm_trans (State.keepsForm_obtain _ q p tag _) (State.keepsForm_writeOwned _ q p _ tag pa data)

/-- A fold of changes that each keep the form keeps it. -/
theorem State.keepsForm_foldl {α : Type} (f : State → α → State) (hf : ∀ (s : State) (a : α), s.keepsForm (f s a)) (l : List α) (s : State) :
    s.keepsForm (l.foldl f s) := by
  induction l generalizing s with
  | nil => exact State.keepsForm_refl s
  | cons a l ih => exact State.keepsForm_trans (hf s a) (ih (f s a))

theorem State.keepsForm_drain (s : State) (d : Nat) (t : Tick) : s.keepsForm (s.drain d t) := by
  unfold State.drain
  refine State.keepsForm_foldl _ ?_ _ s
  intro s e
  split
  · exact State.keepsForm_giveBack s d e.1
  · exact State.keepsForm_refl s

theorem State.keepsForm_releaseAt (s : State) (q : Nat) (p : Tick) (tag pa : Nat) (data : List Byte) :
    s.keepsForm (s.releaseAt q p tag pa data).2 := by
  unfold State.releaseAt
  dsimp only
  have h := State.keepsForm_writePhys s q p .home tag pa data
  split
  · exact h
  · refine State.keepsForm_trans h ?_
    split
    · split
      · exact State.keepsForm_of_mem rfl
      · exact State.keepsForm_trans (State.keepsForm_drain _ _ _) (State.keepsForm_of_mem rfl)
    · exact State.keepsForm_of_mem rfl

theorem State.keepsForm_acquireAt (s : State) (sys : Bool) (q : Nat) (p : Tick) (tag pa n : Nat) :
    s.keepsForm (s.acquireAt sys q p tag pa n).2.2 := by
  unfold State.acquireAt
  dsimp only
  have h := State.keepsForm_recall s (pa / 128)
  split
  · exact State.keepsForm_readPhys s q p .once tag pa n
  · split
    · refine State.keepsForm_trans h ?_
      split
      · exact State.keepsForm_refl _
      · exact State.keepsForm_trans (State.keepsForm_drain _ _ _) (State.keepsForm_of_mem rfl)
    · exact h

end Machine

end Sys2Proof
end

