-- ==== Sys2Proof/Laws/PerInstr.lean ====
section
/-! SUPPORT. The families of statements made once for every instruction, one lemma per constructor. LowBits: the encoder's
word ends in ones, so that a fetch reads four bytes of it (R81). -/

namespace Sys2Proof.Laws.LowBits

/-- R81: an instruction that the encoder gives a word has an opcode whose low two bits are ones. -/
def Statement (i : Instr) : Prop := ∀ p, encodeParts i = some p → p.op.extractLsb' 0 2 = 3

/-- A row whose fields the encoder gives with an opcode that ends in ones. -/
theorem of_some {i : Instr} {q : Parts} (op : BitVec 7) (h : encodeParts i = some q) (ho : q.op = op)
    (hq : op.extractLsb' 0 2 = 3) : Statement i := by
  intro p hp
  rw [h] at hp
  cases hp
  rw [ho]
  exact hq

/-- A row that the encoder gives no word. -/
theorem of_none {i : Instr} (h : encodeParts i = none) : Statement i := by
  intro p hp
  rw [h] at hp
  cases hp

theorem lui (d : Reg) (i : BitVec 20) : Statement (.lui d i) := of_some 0x37 rfl rfl (by decide)
theorem auipc (d : Reg) (i : BitVec 20) : Statement (.auipc d i) := of_some 0x17 rfl rfl (by decide)
theorem jal (d : Reg) (off : BitVec 20) : Statement (.jal d off) := of_some 0x6F rfl rfl (by decide)
theorem jalr (d a : Reg) (i : BitVec 12) : Statement (.jalr d a i) := of_some 0x67 rfl rfl (by decide)
theorem beq (a b : Reg) (off : BitVec 12) : Statement (.beq a b off) := of_some 0x63 rfl rfl (by decide)
theorem bne (a b : Reg) (off : BitVec 12) : Statement (.bne a b off) := of_some 0x63 rfl rfl (by decide)
theorem blt (a b : Reg) (off : BitVec 12) : Statement (.blt a b off) := of_some 0x63 rfl rfl (by decide)
theorem bge (a b : Reg) (off : BitVec 12) : Statement (.bge a b off) := of_some 0x63 rfl rfl (by decide)
theorem bltu (a b : Reg) (off : BitVec 12) : Statement (.bltu a b off) := of_some 0x63 rfl rfl (by decide)
theorem bgeu (a b : Reg) (off : BitVec 12) : Statement (.bgeu a b off) := of_some 0x63 rfl rfl (by decide)
theorem lb (d a : Reg) (i : BitVec 12) : Statement (.lb d a i) := of_some 0x03 rfl rfl (by decide)
theorem lh (d a : Reg) (i : BitVec 12) : Statement (.lh d a i) := of_some 0x03 rfl rfl (by decide)
theorem lw (d a : Reg) (i : BitVec 12) : Statement (.lw d a i) := of_some 0x03 rfl rfl (by decide)
theorem ld (d a : Reg) (i : BitVec 12) : Statement (.ld d a i) := of_some 0x03 rfl rfl (by decide)
theorem lbu (d a : Reg) (i : BitVec 12) : Statement (.lbu d a i) := of_some 0x03 rfl rfl (by decide)
theorem lhu (d a : Reg) (i : BitVec 12) : Statement (.lhu d a i) := of_some 0x03 rfl rfl (by decide)
theorem lwu (d a : Reg) (i : BitVec 12) : Statement (.lwu d a i) := of_some 0x03 rfl rfl (by decide)
theorem sb (a b : Reg) (i : BitVec 12) : Statement (.sb a b i) := of_some 0x23 rfl rfl (by decide)
theorem sh (a b : Reg) (i : BitVec 12) : Statement (.sh a b i) := of_some 0x23 rfl rfl (by decide)
theorem sw (a b : Reg) (i : BitVec 12) : Statement (.sw a b i) := of_some 0x23 rfl rfl (by decide)
theorem sd (a b : Reg) (i : BitVec 12) : Statement (.sd a b i) := of_some 0x23 rfl rfl (by decide)
theorem addi (d a : Reg) (i : BitVec 12) : Statement (.addi d a i) := of_some 0x13 rfl rfl (by decide)
theorem slti (d a : Reg) (i : BitVec 12) : Statement (.slti d a i) := of_some 0x13 rfl rfl (by decide)
theorem sltiu (d a : Reg) (i : BitVec 12) : Statement (.sltiu d a i) := of_some 0x13 rfl rfl (by decide)
theorem xori (d a : Reg) (i : BitVec 12) : Statement (.xori d a i) := of_some 0x13 rfl rfl (by decide)
theorem ori (d a : Reg) (i : BitVec 12) : Statement (.ori d a i) := of_some 0x13 rfl rfl (by decide)
theorem andi (d a : Reg) (i : BitVec 12) : Statement (.andi d a i) := of_some 0x13 rfl rfl (by decide)
theorem slli (d a : Reg) (h : BitVec 6) : Statement (.slli d a h) := of_some 0x13 rfl rfl (by decide)
theorem srli (d a : Reg) (h : BitVec 6) : Statement (.srli d a h) := of_some 0x13 rfl rfl (by decide)
theorem srai (d a : Reg) (h : BitVec 6) : Statement (.srai d a h) := of_some 0x13 rfl rfl (by decide)
theorem addiw (d a : Reg) (i : BitVec 12) : Statement (.addiw d a i) := of_some 0x1B rfl rfl (by decide)
theorem slliw (d a : Reg) (h : BitVec 5) : Statement (.slliw d a h) := of_some 0x1B rfl rfl (by decide)
theorem srliw (d a : Reg) (h : BitVec 5) : Statement (.srliw d a h) := of_some 0x1B rfl rfl (by decide)
theorem sraiw (d a : Reg) (h : BitVec 5) : Statement (.sraiw d a h) := of_some 0x1B rfl rfl (by decide)
theorem add (d a b : Reg) : Statement (.add d a b) := of_some 0x33 rfl rfl (by decide)
theorem sll (d a b : Reg) : Statement (.sll d a b) := of_some 0x33 rfl rfl (by decide)
theorem slt (d a b : Reg) : Statement (.slt d a b) := of_some 0x33 rfl rfl (by decide)
theorem sltu (d a b : Reg) : Statement (.sltu d a b) := of_some 0x33 rfl rfl (by decide)
theorem xor (d a b : Reg) : Statement (.xor d a b) := of_some 0x33 rfl rfl (by decide)
theorem srl (d a b : Reg) : Statement (.srl d a b) := of_some 0x33 rfl rfl (by decide)
theorem or (d a b : Reg) : Statement (.or d a b) := of_some 0x33 rfl rfl (by decide)
theorem and (d a b : Reg) : Statement (.and d a b) := of_some 0x33 rfl rfl (by decide)
theorem sub (d a b : Reg) : Statement (.sub d a b) := of_some 0x33 rfl rfl (by decide)
theorem sra (d a b : Reg) : Statement (.sra d a b) := of_some 0x33 rfl rfl (by decide)
theorem mul (d a b : Reg) : Statement (.mul d a b) := of_some 0x33 rfl rfl (by decide)
theorem mulh (d a b : Reg) : Statement (.mulh d a b) := of_some 0x33 rfl rfl (by decide)
theorem mulhsu (d a b : Reg) : Statement (.mulhsu d a b) := of_some 0x33 rfl rfl (by decide)
theorem mulhu (d a b : Reg) : Statement (.mulhu d a b) := of_some 0x33 rfl rfl (by decide)
theorem div (d a b : Reg) : Statement (.div d a b) := of_some 0x33 rfl rfl (by decide)
theorem divu (d a b : Reg) : Statement (.divu d a b) := of_some 0x33 rfl rfl (by decide)
theorem rem (d a b : Reg) : Statement (.rem d a b) := of_some 0x33 rfl rfl (by decide)
theorem remu (d a b : Reg) : Statement (.remu d a b) := of_some 0x33 rfl rfl (by decide)
theorem addw (d a b : Reg) : Statement (.addw d a b) := of_some 0x3B rfl rfl (by decide)
theorem sllw (d a b : Reg) : Statement (.sllw d a b) := of_some 0x3B rfl rfl (by decide)
theorem srlw (d a b : Reg) : Statement (.srlw d a b) := of_some 0x3B rfl rfl (by decide)
theorem subw (d a b : Reg) : Statement (.subw d a b) := of_some 0x3B rfl rfl (by decide)
theorem sraw (d a b : Reg) : Statement (.sraw d a b) := of_some 0x3B rfl rfl (by decide)
theorem mulw (d a b : Reg) : Statement (.mulw d a b) := of_some 0x3B rfl rfl (by decide)
theorem divw (d a b : Reg) : Statement (.divw d a b) := of_some 0x3B rfl rfl (by decide)
theorem divuw (d a b : Reg) : Statement (.divuw d a b) := of_some 0x3B rfl rfl (by decide)
theorem remw (d a b : Reg) : Statement (.remw d a b) := of_some 0x3B rfl rfl (by decide)
theorem remuw (d a b : Reg) : Statement (.remuw d a b) := of_some 0x3B rfl rfl (by decide)
theorem fence (d a : Reg) (i : BitVec 12) : Statement (.fence d a i) := of_some 0x0F rfl rfl (by decide)
theorem fenceI (d a : Reg) (i : BitVec 12) : Statement (.fenceI d a i) := of_some 0x0F rfl rfl (by decide)
theorem ecall : Statement .ecall := of_some 0x73 rfl rfl (by decide)
theorem ebreak : Statement .ebreak := of_some 0x73 rfl rfl (by decide)
theorem sret : Statement .sret := of_some 0x73 rfl rfl (by decide)
theorem mret : Statement .mret := of_some 0x73 rfl rfl (by decide)
theorem wfi : Statement .wfi := of_some 0x73 rfl rfl (by decide)
theorem sfenceVma (a b : Reg) : Statement (.sfenceVma a b) := of_some 0x73 rfl rfl (by decide)
theorem csrrw (d a : Reg) (c : BitVec 12) : Statement (.csrrw d a c) := of_some 0x73 rfl rfl (by decide)
theorem csrrs (d a : Reg) (c : BitVec 12) : Statement (.csrrs d a c) := of_some 0x73 rfl rfl (by decide)
theorem csrrc (d a : Reg) (c : BitVec 12) : Statement (.csrrc d a c) := of_some 0x73 rfl rfl (by decide)
theorem csrrwi (d : Reg) (u : BitVec 5) (c : BitVec 12) : Statement (.csrrwi d u c) := of_some 0x73 rfl rfl (by decide)
theorem csrrsi (d : Reg) (u : BitVec 5) (c : BitVec 12) : Statement (.csrrsi d u c) := of_some 0x73 rfl rfl (by decide)
theorem csrrci (d : Reg) (u : BitVec 5) (c : BitVec 12) : Statement (.csrrci d u c) := of_some 0x73 rfl rfl (by decide)
theorem lrW (d a : Reg) (aq rl : Bool) : Statement (.lrW d a aq rl) := of_some 0x2F rfl rfl (by decide)
theorem lrD (d a : Reg) (aq rl : Bool) : Statement (.lrD d a aq rl) := of_some 0x2F rfl rfl (by decide)
theorem scW (d a b : Reg) (aq rl : Bool) : Statement (.scW d a b aq rl) := of_some 0x2F rfl rfl (by decide)
theorem scD (d a b : Reg) (aq rl : Bool) : Statement (.scD d a b aq rl) := of_some 0x2F rfl rfl (by decide)
theorem amoswapW (d a b : Reg) (aq rl : Bool) : Statement (.amoswapW d a b aq rl) := of_some 0x2F rfl rfl (by decide)
theorem amoswapD (d a b : Reg) (aq rl : Bool) : Statement (.amoswapD d a b aq rl) := of_some 0x2F rfl rfl (by decide)
theorem amoaddW (d a b : Reg) (aq rl : Bool) : Statement (.amoaddW d a b aq rl) := of_some 0x2F rfl rfl (by decide)
theorem amoaddD (d a b : Reg) (aq rl : Bool) : Statement (.amoaddD d a b aq rl) := of_some 0x2F rfl rfl (by decide)
theorem amoxorW (d a b : Reg) (aq rl : Bool) : Statement (.amoxorW d a b aq rl) := of_some 0x2F rfl rfl (by decide)
theorem amoxorD (d a b : Reg) (aq rl : Bool) : Statement (.amoxorD d a b aq rl) := of_some 0x2F rfl rfl (by decide)
theorem amocasW (d a b : Reg) (aq rl : Bool) : Statement (.amocasW d a b aq rl) := of_some 0x2F rfl rfl (by decide)
theorem amocasD (d a b : Reg) (aq rl : Bool) : Statement (.amocasD d a b aq rl) := of_some 0x2F rfl rfl (by decide)
theorem amoandW (d a b : Reg) (aq rl : Bool) : Statement (.amoandW d a b aq rl) := of_some 0x2F rfl rfl (by decide)
theorem amoandD (d a b : Reg) (aq rl : Bool) : Statement (.amoandD d a b aq rl) := of_some 0x2F rfl rfl (by decide)
theorem amoorW (d a b : Reg) (aq rl : Bool) : Statement (.amoorW d a b aq rl) := of_some 0x2F rfl rfl (by decide)
theorem amoorD (d a b : Reg) (aq rl : Bool) : Statement (.amoorD d a b aq rl) := of_some 0x2F rfl rfl (by decide)
theorem amominW (d a b : Reg) (aq rl : Bool) : Statement (.amominW d a b aq rl) := of_some 0x2F rfl rfl (by decide)
theorem amominD (d a b : Reg) (aq rl : Bool) : Statement (.amominD d a b aq rl) := of_some 0x2F rfl rfl (by decide)
theorem amomaxW (d a b : Reg) (aq rl : Bool) : Statement (.amomaxW d a b aq rl) := of_some 0x2F rfl rfl (by decide)
theorem amomaxD (d a b : Reg) (aq rl : Bool) : Statement (.amomaxD d a b aq rl) := of_some 0x2F rfl rfl (by decide)
theorem amominuW (d a b : Reg) (aq rl : Bool) : Statement (.amominuW d a b aq rl) := of_some 0x2F rfl rfl (by decide)
theorem amominuD (d a b : Reg) (aq rl : Bool) : Statement (.amominuD d a b aq rl) := of_some 0x2F rfl rfl (by decide)
theorem amomaxuW (d a b : Reg) (aq rl : Bool) : Statement (.amomaxuW d a b aq rl) := of_some 0x2F rfl rfl (by decide)
theorem amomaxuD (d a b : Reg) (aq rl : Bool) : Statement (.amomaxuD d a b aq rl) := of_some 0x2F rfl rfl (by decide)
theorem bsubnz (a b : Reg) (off : BitVec 12) : Statement (.bsubnz a b off) := of_some 0x7B rfl rfl (by decide)
theorem vsetl (d a : Reg) (fmt : BitVec 6) (blk : BitVec 3) (hint : BitVec 3) : Statement (.vsetl d a fmt blk hint) := of_some 0x7B rfl rfl (by decide)
theorem vcfg (d a : Reg) (nv : BitVec 3) (nd : BitVec 4) (w : BitVec 2) : Statement (.vcfg d a nv nd w) := of_some 0x7B rfl rfl (by decide)
theorem vadd (o : VaArgs) : Statement (.vadd o) := of_some 0x0B rfl rfl (by decide)
theorem vsub (o : VaArgs) : Statement (.vsub o) := of_some 0x0B rfl rfl (by decide)
theorem vrsub (o : VaArgs) : Statement (.vrsub o) := of_some 0x0B rfl rfl (by decide)
theorem vmul (o : VaArgs) : Statement (.vmul o) := of_some 0x0B rfl rfl (by decide)
theorem vmulh (o : VaArgs) : Statement (.vmulh o) := of_some 0x0B rfl rfl (by decide)
theorem vdiv (o : VaArgs) : Statement (.vdiv o) := of_some 0x0B rfl rfl (by decide)
theorem vrem (o : VaArgs) : Statement (.vrem o) := of_some 0x0B rfl rfl (by decide)
theorem vmin (o : VaArgs) : Statement (.vmin o) := of_some 0x0B rfl rfl (by decide)
theorem vmax (o : VaArgs) : Statement (.vmax o) := of_some 0x0B rfl rfl (by decide)
theorem vsadd (o : VaArgs) : Statement (.vsadd o) := of_some 0x0B rfl rfl (by decide)
theorem vssub (o : VaArgs) : Statement (.vssub o) := of_some 0x0B rfl rfl (by decide)
theorem vand (o : VaArgs) : Statement (.vand o) := of_some 0x0B rfl rfl (by decide)
theorem vor (o : VaArgs) : Statement (.vor o) := of_some 0x0B rfl rfl (by decide)
theorem vxor (o : VaArgs) : Statement (.vxor o) := of_some 0x0B rfl rfl (by decide)
theorem vsll (o : VaArgs) : Statement (.vsll o) := of_some 0x0B rfl rfl (by decide)
theorem vsrl (o : VaArgs) : Statement (.vsrl o) := of_some 0x0B rfl rfl (by decide)
theorem vsra (o : VaArgs) : Statement (.vsra o) := of_some 0x0B rfl rfl (by decide)
theorem vfma (o : VaArgs) : Statement (.vfma o) := of_some 0x0B rfl rfl (by decide)
theorem vfms (o : VaArgs) : Statement (.vfms o) := of_some 0x0B rfl rfl (by decide)
theorem vfnma (o : VaArgs) : Statement (.vfnma o) := of_some 0x0B rfl rfl (by decide)
theorem vsgnj (o : VaArgs) : Statement (.vsgnj o) := of_some 0x0B rfl rfl (by decide)
theorem vsgnjn (o : VaArgs) : Statement (.vsgnjn o) := of_some 0x0B rfl rfl (by decide)
theorem vsgnjx (o : VaArgs) : Statement (.vsgnjx o) := of_some 0x0B rfl rfl (by decide)
theorem vceq (o : VaArgs) : Statement (.vceq o) := of_some 0x0B rfl rfl (by decide)
theorem vcne (o : VaArgs) : Statement (.vcne o) := of_some 0x0B rfl rfl (by decide)
theorem vclt (o : VaArgs) : Statement (.vclt o) := of_some 0x0B rfl rfl (by decide)
theorem vcle (o : VaArgs) : Statement (.vcle o) := of_some 0x0B rfl rfl (by decide)
theorem vcgt (o : VaArgs) : Statement (.vcgt o) := of_some 0x0B rfl rfl (by decide)
theorem vcge (o : VaArgs) : Statement (.vcge o) := of_some 0x0B rfl rfl (by decide)
theorem vmerge (o : VaArgs) : Statement (.vmerge o) := of_some 0x0B rfl rfl (by decide)
theorem vmv (o : VaArgs) : Statement (.vmv o) := of_some 0x0B rfl rfl (by decide)
theorem vslideup (o : VaArgs) : Statement (.vslideup o) := of_some 0x0B rfl rfl (by decide)
theorem vslidedown (o : VaArgs) : Statement (.vslidedown o) := of_some 0x0B rfl rfl (by decide)
theorem vgather (o : VaArgs) : Statement (.vgather o) := of_some 0x0B rfl rfl (by decide)
theorem vcompress (o : VvArgs) : Statement (.vcompress o) := of_some 0x0B rfl rfl (by decide)
theorem vmand (o : VvArgs) : Statement (.vmand o) := of_some 0x0B rfl rfl (by decide)
theorem vmor (o : VvArgs) : Statement (.vmor o) := of_some 0x0B rfl rfl (by decide)
theorem vmxor (o : VvArgs) : Statement (.vmxor o) := of_some 0x0B rfl rfl (by decide)
theorem vmandn (o : VvArgs) : Statement (.vmandn o) := of_some 0x0B rfl rfl (by decide)
theorem vsqrt (o : VuArgs) : Statement (.vsqrt o) := of_some 0x0B rfl rfl (by decide)
theorem vrcp (o : VuArgs) : Statement (.vrcp o) := of_some 0x0B rfl rfl (by decide)
theorem vrsqrt (o : VuArgs) : Statement (.vrsqrt o) := of_some 0x0B rfl rfl (by decide)
theorem vexp2 (o : VuArgs) : Statement (.vexp2 o) := of_some 0x0B rfl rfl (by decide)
theorem vlog2 (o : VuArgs) : Statement (.vlog2 o) := of_some 0x0B rfl rfl (by decide)
theorem vsin (o : VuArgs) : Statement (.vsin o) := of_some 0x0B rfl rfl (by decide)
theorem vcos (o : VuArgs) : Statement (.vcos o) := of_some 0x0B rfl rfl (by decide)
theorem vtanh (o : VuArgs) : Statement (.vtanh o) := of_some 0x0B rfl rfl (by decide)
theorem vclass (o : VuArgs) : Statement (.vclass o) := of_some 0x0B rfl rfl (by decide)
theorem vabs (o : VuArgs) : Statement (.vabs o) := of_some 0x0B rfl rfl (by decide)
theorem vneg (o : VuArgs) : Statement (.vneg o) := of_some 0x0B rfl rfl (by decide)
theorem vid (o : VuArgs) : Statement (.vid o) := of_some 0x0B rfl rfl (by decide)
theorem vmpop (o : VuArgs) : Statement (.vmpop o) := of_some 0x0B rfl rfl (by decide)
theorem vmfirst (o : VuArgs) : Statement (.vmfirst o) := of_some 0x0B rfl rfl (by decide)
theorem vmvxs (o : VuArgs) : Statement (.vmvxs o) := of_some 0x0B rfl rfl (by decide)
theorem vmvsx (o : VuArgs) : Statement (.vmvsx o) := of_some 0x0B rfl rfl (by decide)
theorem vcvt (o : VcArgs) : Statement (.vcvt o) := of_some 0x0B rfl rfl (by decide)
theorem vbdot (o : VvArgs) : Statement (.vbdot o) := of_some 0x0B rfl rfl (by decide)
theorem vbexp (o : VuArgs) : Statement (.vbexp o) := of_some 0x0B rfl rfl (by decide)
theorem vbpack (o : VuArgs) : Statement (.vbpack o) := of_some 0x0B rfl rfl (by decide)
theorem vredsum (o : VaArgs) : Statement (.vredsum o) := of_some 0x0B rfl rfl (by decide)
theorem vredmin (o : VaArgs) : Statement (.vredmin o) := of_some 0x0B rfl rfl (by decide)
theorem vredmax (o : VaArgs) : Statement (.vredmax o) := of_some 0x0B rfl rfl (by decide)
theorem vscan (o : VaArgs) : Statement (.vscan o) := of_some 0x0B rfl rfl (by decide)
theorem vld (o : VmArgs) : Statement (.vld o) := of_some 0x2B rfl rfl (by decide)
theorem vldSt (o : VmArgs) : Statement (.vldSt o) := of_some 0x2B rfl rfl (by decide)
theorem vldIx (o : VmArgs) : Statement (.vldIx o) := of_some 0x2B rfl rfl (by decide)
theorem vamoadd (o : VamoArgs) : Statement (.vamoadd o) := of_some 0x2B rfl rfl (by decide)
theorem vamomin (o : VamoArgs) : Statement (.vamomin o) := of_some 0x2B rfl rfl (by decide)
theorem vamomax (o : VamoArgs) : Statement (.vamomax o) := of_some 0x2B rfl rfl (by decide)
theorem vamoswap (o : VamoArgs) : Statement (.vamoswap o) := of_some 0x2B rfl rfl (by decide)
theorem vst (o : VmArgs) : Statement (.vst o) := of_some 0x2B rfl rfl (by decide)
theorem vstSt (o : VmArgs) : Statement (.vstSt o) := of_some 0x2B rfl rfl (by decide)
theorem vstIx (o : VmArgs) : Statement (.vstIx o) := of_some 0x2B rfl rfl (by decide)
theorem mcfg (l : BitVec 4) (a : Reg) : Statement (.mcfg l a) := of_some 0x5B rfl rfl (by decide)
theorem mopa (l : BitVec 4) (t : TileNo) (a b : Reg) : Statement (.mopa l t a b) := of_some 0x5B rfl rfl (by decide)
theorem mzero (l : BitVec 4) (t : TileNo) : Statement (.mzero l t) := of_some 0x5B rfl rfl (by decide)
theorem mld (l : BitVec 4) (t : TileNo) (a b : Reg) : Statement (.mld l t a b) := of_some 0x5B rfl rfl (by decide)
theorem mst (l : BitVec 4) (t : TileNo) (a b : Reg) : Statement (.mst l t a b) := of_some 0x5B rfl rfl (by decide)
theorem mstRel (l : BitVec 4) (t : TileNo) (a b : Reg) : Statement (.mstRel l t a b) := of_some 0x5B rfl rfl (by decide)
theorem mrelease (l : BitVec 4) (t : TileNo) : Statement (.mrelease l t) := of_some 0x5B rfl rfl (by decide)
theorem mwait (l : BitVec 4) (t : TileNo) : Statement (.mwait l t) := of_some 0x5B rfl rfl (by decide)
theorem mwexp (l : BitVec 4) (a b : Reg) : Statement (.mwexp l a b) := of_some 0x5B rfl rfl (by decide)
theorem dadd (l : BitVec 4) (d a b : DReg8) : Statement (.dadd l d a b) := of_some 0x5B rfl rfl (by decide)
theorem dsub (l : BitVec 4) (d a b : DReg8) : Statement (.dsub l d a b) := of_some 0x5B rfl rfl (by decide)
theorem dmul (l : BitVec 4) (d a b : DReg8) : Statement (.dmul l d a b) := of_some 0x5B rfl rfl (by decide)
theorem dmax (l : BitVec 4) (d a b : DReg8) : Statement (.dmax l d a b) := of_some 0x5B rfl rfl (by decide)
theorem dmin (l : BitVec 4) (d a b : DReg8) : Statement (.dmin l d a b) := of_some 0x5B rfl rfl (by decide)
theorem dmix (l : BitVec 4) (d a : DReg8) (b : Reg) : Statement (.dmix l d a b) := of_some 0x5B rfl rfl (by decide)
theorem dscale (l : BitVec 4) (d : DReg8) (a b : Reg) : Statement (.dscale l d a b) := of_some 0x5B rfl rfl (by decide)
theorem dcond (l : BitVec 4) (d a : DReg8) (b : Reg) : Statement (.dcond l d a b) := of_some 0x5B rfl rfl (by decide)
theorem dtag (l : BitVec 4) (d : DReg8) (a : Reg) : Statement (.dtag l d a) := of_some 0x5B rfl rfl (by decide)
theorem dpoint (l : BitVec 4) (d : DReg8) (a : Reg) : Statement (.dpoint l d a) := of_some 0x5B rfl rfl (by decide)
theorem dgauss (l : BitVec 4) (d : DReg8) (a b : Reg) : Statement (.dgauss l d a b) := of_some 0x5B rfl rfl (by decide)
theorem dmom (l : BitVec 4) (d : Reg) (a : DReg8) (k : BitVec 2) : Statement (.dmom l d a k) := of_some 0x5B rfl rfl (by decide)
theorem dqnt (l : BitVec 4) (d : Reg) (a : DReg8) (b : Reg) : Statement (.dqnt l d a b) := of_some 0x5B rfl rfl (by decide)
theorem dcdf (l : BitVec 4) (d : Reg) (a : DReg8) (b : Reg) : Statement (.dcdf l d a b) := of_some 0x5B rfl rfl (by decide)
theorem dld (l : BitVec 4) (d : DReg8) (a : Reg) : Statement (.dld l d a) := of_some 0x5B rfl rfl (by decide)
theorem dst (l : BitVec 4) (d : DReg8) (a : Reg) : Statement (.dst l d a) := of_some 0x5B rfl rfl (by decide)
theorem xbox (l : BitVec 4) (d a b : Reg) : Statement (.xbox l d a b) := of_some 0x5B rfl rfl (by decide)
theorem xtri (l : BitVec 4) (d a b : Reg) : Statement (.xtri l d a b) := of_some 0x5B rfl rfl (by decide)
theorem xedge (l : BitVec 4) (d a b : Reg) : Statement (.xedge l d a b) := of_some 0x5B rfl rfl (by decide)
theorem vdedup (l : BitVec 4) (d a b : Reg) : Statement (.vdedup l d a b) := of_some 0x5B rfl rfl (by decide)
theorem tfetch (l : BitVec 4) (d a b : Reg) : Statement (.tfetch l d a b) := of_some 0x5B rfl rfl (by decide)
theorem tgrad (l : BitVec 4) (d a b : Reg) : Statement (.tgrad l d a b) := of_some 0x5B rfl rfl (by decide)
theorem gfeat (l : BitVec 4) (d a b : Reg) : Statement (.gfeat l d a b) := of_some 0x5B rfl rfl (by decide)
theorem zcommit (l : BitVec 4) (a b : Reg) : Statement (.zcommit l a b) := of_some 0x5B rfl rfl (by decide)
theorem trace (l : BitVec 4) (d a b : Reg) : Statement (.trace l d a b) := of_some 0x5B rfl rfl (by decide)
theorem rwait (l : BitVec 4) (d : Reg) : Statement (.rwait l d) := of_some 0x5B rfl rfl (by decide)
theorem rget (l : BitVec 4) (d a : Reg) : Statement (.rget l d a) := of_some 0x5B rfl rfl (by decide)
theorem rhit (l : BitVec 4) (a b : Reg) : Statement (.rhit l a b) := of_some 0x5B rfl rfl (by decide)
theorem rcancel (l : BitVec 4) (a : Reg) : Statement (.rcancel l a) := of_some 0x5B rfl rfl (by decide)
theorem hstart (l : BitVec 4) (d a b : Reg) : Statement (.hstart l d a b) := of_some 0x7B rfl rfl (by decide)
theorem hjoin (l : BitVec 4) (a : Reg) : Statement (.hjoin l a) := of_some 0x7B rfl rfl (by decide)
theorem hexit (l : BitVec 4) : Statement (.hexit l) := of_some 0x7B rfl rfl (by decide)
theorem hyield (l : BitVec 4) : Statement (.hyield l) := of_some 0x7B rfl rfl (by decide)
theorem qput (l : BitVec 4) (d a : Reg) : Statement (.qput l d a) := of_some 0x7B rfl rfl (by decide)
theorem qtake (l : BitVec 4) (d a : Reg) : Statement (.qtake l d a) := of_some 0x7B rfl rfl (by decide)
theorem qsteal (l : BitVec 4) (d a : Reg) : Statement (.qsteal l d a) := of_some 0x7B rfl rfl (by decide)
theorem qdone (l : BitVec 4) (a : Reg) : Statement (.qdone l a) := of_some 0x7B rfl rfl (by decide)
theorem bar (l : BitVec 4) (a : Reg) (scope : BitVec 3) : Statement (.bar l a scope) := of_some 0x7B rfl rfl (by decide)
theorem barr (l : BitVec 4) (a : Reg) (scope : BitVec 3) : Statement (.barr l a scope) := of_some 0x7B rfl rfl (by decide)
theorem barw (l : BitVec 4) (a : Reg) (scope : BitVec 3) : Statement (.barw l a scope) := of_some 0x7B rfl rfl (by decide)
theorem rinit (l : BitVec 4) (a b : Reg) : Statement (.rinit l a b) := of_some 0x7B rfl rfl (by decide)
theorem rawait (l : BitVec 4) (d a : Reg) : Statement (.rawait l d a) := of_some 0x7B rfl rfl (by decide)
theorem rrel (l : BitVec 4) (a : Reg) : Statement (.rrel l a) := of_some 0x7B rfl rfl (by decide)
theorem sbind (l : BitVec 4) (a b : Reg) : Statement (.sbind l a b) := of_some 0x7B rfl rfl (by decide)
theorem sjob (l : BitVec 4) (d a : Reg) : Statement (.sjob l d a) := of_some 0x7B rfl rfl (by decide)
theorem swait (l : BitVec 4) (a : Reg) : Statement (.swait l a) := of_some 0x7B rfl rfl (by decide)
theorem scoll (l : BitVec 4) (d a : Reg) : Statement (.scoll l d a) := of_some 0x7B rfl rfl (by decide)
theorem ldacq (l : BitVec 4) (d a : Reg) (w : BitVec 2) (scope : BitVec 3) : Statement (.ldacq l d a w scope) := of_some 0x7B rfl rfl (by decide)
theorem strel (l : BitVec 4) (d a : Reg) (w : BitVec 2) (scope : BitVec 3) : Statement (.strel l d a w scope) := of_some 0x7B rfl rfl (by decide)
theorem ofence (l : BitVec 4) (pred succ : BitVec 4) (scope : BitVec 3) : Statement (.ofence l pred succ scope) := of_some 0x7B rfl rfl (by decide)
theorem cAddi4spn : Statement .cAddi4spn := of_none rfl
theorem cLw : Statement .cLw := of_none rfl
theorem cLd : Statement .cLd := of_none rfl
theorem cSw : Statement .cSw := of_none rfl
theorem cSd : Statement .cSd := of_none rfl
theorem cAddi : Statement .cAddi := of_none rfl
theorem cNop : Statement .cNop := of_none rfl
theorem cAddiw : Statement .cAddiw := of_none rfl
theorem cLi : Statement .cLi := of_none rfl
theorem cAddi16sp : Statement .cAddi16sp := of_none rfl
theorem cLui : Statement .cLui := of_none rfl
theorem cSrli : Statement .cSrli := of_none rfl
theorem cSrai : Statement .cSrai := of_none rfl
theorem cAndi : Statement .cAndi := of_none rfl
theorem cSub : Statement .cSub := of_none rfl
theorem cXor : Statement .cXor := of_none rfl
theorem cOr : Statement .cOr := of_none rfl
theorem cAnd : Statement .cAnd := of_none rfl
theorem cSubw : Statement .cSubw := of_none rfl
theorem cAddw : Statement .cAddw := of_none rfl
theorem cJ : Statement .cJ := of_none rfl
theorem cBeqz : Statement .cBeqz := of_none rfl
theorem cBnez : Statement .cBnez := of_none rfl
theorem cSlli : Statement .cSlli := of_none rfl
theorem cLwsp : Statement .cLwsp := of_none rfl
theorem cLdsp : Statement .cLdsp := of_none rfl
theorem cJr : Statement .cJr := of_none rfl
theorem cMv : Statement .cMv := of_none rfl
theorem cEbreak : Statement .cEbreak := of_none rfl
theorem cJalr : Statement .cJalr := of_none rfl
theorem cAdd : Statement .cAdd := of_none rfl
theorem cSwsp : Statement .cSwsp := of_none rfl
theorem cSdsp : Statement .cSdsp := of_none rfl
theorem hint : Statement .hint := of_none rfl
theorem illegalInstruction : Statement .illegalInstruction := of_none rfl
theorem annexSwap (h : HartId) (names : List RegName) : Statement (.annexSwap h names) := of_none rfl
theorem elementGroupExecute (h : HartId) : Statement (.elementGroupExecute h) := of_none rfl
theorem matrixCommandExecute (core : Nat) : Statement (.matrixCommandExecute core) := of_none rfl
theorem distributionElement (h : HartId) : Statement (.distributionElement h) := of_none rfl
theorem commitReoffer (h : HartId) : Statement (.commitReoffer h) := of_none rfl
theorem rayTraversal (h : HartId) (slot : Nat) : Statement (.rayTraversal h slot) := of_none rfl
theorem qtakeWake (h : HartId) : Statement (.qtakeWake h) := of_none rfl
theorem ownedLineDrain (die : Nat) (tick : Tick) : Statement (.ownedLineDrain die tick) := of_none rfl
theorem interrupt (core : Nat) : Statement (.interrupt core) := of_none rfl
theorem storePerformed (core : Nat) : Statement (.storePerformed core) := of_none rfl
theorem lineWriteback (line : Nat) : Statement (.lineWriteback line) := of_none rfl
theorem dirtyLineTimeout (line : Nat) : Statement (.dirtyLineTimeout line) := of_none rfl
theorem tickAdvance : Statement .tickAdvance := of_none rfl
theorem horizonBroadcast : Statement .horizonBroadcast := of_none rfl
theorem cxlmemRead (pa : Nat) (bytes : Nat) : Statement (.cxlmemRead pa bytes) := of_none rfl
theorem cxlmemWrite (pa : Nat) (data : List Byte) : Statement (.cxlmemWrite pa data) := of_none rfl
theorem podWriteArrival (x y z srcTag : Nat) (dest : PodDest) (va : Word) (data : List Byte) :
    Statement (.podWriteArrival x y z srcTag dest va data) := of_none rfl
theorem patternStart (core port : Nat) : Statement (.patternStart core port) := of_none rfl
theorem tileDeliver (core port : Nat) : Statement (.tileDeliver core port) := of_none rfl
theorem jobStart (die quad : Nat) : Statement (.jobStart die quad) := of_none rfl
theorem jobComplete (die tag : Nat) (job : Word) : Statement (.jobComplete die tag job) := of_none rfl
theorem collectiveRound (tag group : Nat) : Statement (.collectiveRound tag group) := of_none rfl
theorem engineFaultService (die : Nat) : Statement (.engineFaultService die) := of_none rfl
theorem primitiveAccept (h : HartId) : Statement (.primitiveAccept h) := of_none rfl
theorem inboxRelease (tag pass owner : Nat) : Statement (.inboxRelease tag pass owner) := of_none rfl
theorem commitLogPoll (tag pass owner : Nat) : Statement (.commitLogPoll tag pass owner) := of_none rfl
theorem launchDelivery (tag : Nat) (launch : Nat) : Statement (.launchDelivery tag launch) := of_none rfl
theorem launchComplete (tag : Nat) (launch : Nat) : Statement (.launchComplete tag launch) := of_none rfl
theorem sliceEnd (die cluster : Nat) : Statement (.sliceEnd die cluster) := of_none rfl
theorem clusterIdle (die cluster : Nat) : Statement (.clusterIdle die cluster) := of_none rfl
theorem contextRunnable (tag die : Nat) : Statement (.contextRunnable tag die) := of_none rfl
theorem imageRestore (tag image die cluster : Nat) : Statement (.imageRestore tag image die cluster) := of_none rfl
theorem contextFault (tag kind die lcore : Nat) (value : Word) : Statement (.contextFault tag kind die lcore value) := of_none rfl
theorem coreFailed (core : Nat) : Statement (.coreFailed core) := of_none rfl
theorem sentinelRun (core cls : Nat) (passed : Bool) : Statement (.sentinelRun core cls passed) := of_none rfl
theorem quarantineSentinel (core cls : Nat) (passed : Bool) : Statement (.quarantineSentinel core cls passed) := of_none rfl
theorem shadowDrop (die : Nat) : Statement (.shadowDrop die) := of_none rfl
theorem shadowSeedChange (die : Nat) (seed : Nat) : Statement (.shadowSeedChange die seed) := of_none rfl
theorem hbmScrub (die : Nat) (corrected : Nat) : Statement (.hbmScrub die corrected) := of_none rfl
theorem l2Scrub (die : Nat) (corrected : Nat) : Statement (.l2Scrub die corrected) := of_none rfl
theorem linkRetry (link : Nat) : Statement (.linkRetry link) := of_none rfl
theorem linkDown (link : Nat) : Statement (.linkDown link) := of_none rfl
theorem cxlLinkDown : Statement .cxlLinkDown := of_none rfl
theorem create (c : Cmd) : Statement (.create c) := of_none rfl
theorem destroy (c : Cmd) : Statement (.destroy c) := of_none rfl
theorem launch (c : Cmd) : Statement (.launch c) := of_none rfl
theorem setsched (c : Cmd) : Statement (.setsched c) := of_none rfl
theorem openPass (c : Cmd) : Statement (.openPass c) := of_none rfl
theorem closePass (c : Cmd) : Statement (.closePass c) := of_none rfl
theorem allocDomain (c : Cmd) : Statement (.allocDomain c) := of_none rfl
theorem freeDomain (c : Cmd) : Statement (.freeDomain c) := of_none rfl
theorem allocGroup (c : Cmd) : Statement (.allocGroup c) := of_none rfl
theorem freeGroup (c : Cmd) : Statement (.freeGroup c) := of_none rfl
theorem map (c : Cmd) : Statement (.map c) := of_none rfl
theorem unmap (c : Cmd) : Statement (.unmap c) := of_none rfl
theorem protect (c : Cmd) : Statement (.protect c) := of_none rfl
theorem page (c : Cmd) : Statement (.page c) := of_none rfl
theorem notify (c : Cmd) : Statement (.notify c) := of_none rfl
theorem templateMake (c : Cmd) : Statement (.templateMake c) := of_none rfl
theorem templateDrop (c : Cmd) : Statement (.templateDrop c) := of_none rfl
theorem attest (c : Cmd) : Statement (.attest c) := of_none rfl
theorem fwStage (c : Cmd) : Statement (.fwStage c) := of_none rfl
theorem lifecycle (c : Cmd) : Statement (.lifecycle c) := of_none rfl
theorem reset : Statement .reset := of_none rfl
theorem resync : Statement .resync := of_none rfl
theorem qen (on : Bool) : Statement (.qen on) := of_none rfl
theorem start : Statement .start := of_none rfl
theorem powercap (v : Word) : Statement (.powercap v) := of_none rfl
theorem registerWrite (off : Nat) (v : Word) : Statement (.registerWrite off v) := of_none rfl
theorem powerOn : Statement .powerOn := of_none rfl
theorem cxlReset : Statement .cxlReset := of_none rfl
theorem resetComplete : Statement .resetComplete := of_none rfl
theorem powerControl (draw : Nat) : Statement (.powerControl draw) := of_none rfl
theorem thermalThrottle (die : Nat) (temp : Nat) : Statement (.thermalThrottle die temp) := of_none rfl
theorem thermalStop (die : Nat) (temp : Nat) : Statement (.thermalStop die temp) := of_none rfl
theorem graphicsRecordExecute (h : HartId) : Statement (.graphicsRecordExecute h) := of_none rfl
theorem cxlCacheSnoop (pa : Nat) (data : List Byte) : Statement (.cxlCacheSnoop pa data) := of_none rfl
theorem dieTemperatureFall (die : Nat) (temp : Nat) : Statement (.dieTemperatureFall die temp) := of_none rfl
theorem corrHourEnd : Statement .corrHourEnd := of_none rfl

end Sys2Proof.Laws.LowBits
end

