-- ==== Sys2Proof/Tests/Slice0.lean ====
section
/-! SUPPORT. The model's own tests: ill-formed terms that the checks refuse, words written out from the spec's encodings,
one step on a small state for each family, and states and operands that meet the hypotheses of the statements. -/

namespace Sys2Proof.Tests

open Sys2Proof.Machine Sys2Proof.Spec

set_option Elab.async false

/-! What the tests are written with. -/

/-- The next state that an outcome answers. -/
def nextOf (o : Out) : State :=
  match o with
  | .next t => t
  | _ => State.reset

/-- Whether an access succeeds. -/
def isOk {α : Type} (a : Acc α) : Bool :=
  match a with
  | .ok _ _ => true
  | _ => false

/-- What a successful access gives. -/
def valOf {α : Type} (a : Acc α) (d : α) : α :=
  match a with
  | .ok v _ => v
  | _ => d

theorem ok_of_isOk {α : Type} (a : Acc α) (d : α) (h : isOk a = true) : a = .ok (valOf a d) a.state := by
  cases a with
  | ok v s => rfl
  | trap t s => cases h
  | wait s => cases h

/-- Whether an access succeeds with a value. -/
def okIs {α : Type} [DecidableEq α] (a : Acc α) (v : α) : Bool :=
  match a with
  | .ok w _ => decide (w = v)
  | _ => false

theorem ok_is {α : Type} [DecidableEq α] (a : Acc α) (v : α) (h : okIs a v = true) : a = .ok v a.state := by
  cases a with
  | ok w s => exact congrArg (fun u => Acc.ok u s) (of_decide_eq_true h)
  | trap t s => cases h
  | wait s => cases h

/-- Whether an access waits. -/
def isWait {α : Type} (a : Acc α) : Bool :=
  match a with
  | .wait _ => true
  | _ => false

theorem wait_of_isWait {α : Type} (a : Acc α) (h : isWait a = true) : a = .wait a.state := by
  cases a with
  | ok v s => cases h
  | trap t s => cases h
  | wait s => rfl

/-- Whether an access traps. -/
def isTrap {α : Type} (a : Acc α) : Bool :=
  match a with
  | .trap _ _ => true
  | _ => false

theorem trap_of_isTrap {α : Type} (a : Acc α) (h : isTrap a = true) : ∃ t, a = .trap t a.state := by
  cases a with
  | ok v s => cases h
  | trap t s => exact ⟨t, rfl⟩
  | wait s => cases h

theorem some_of_isSome {α : Type} (a : Option α) (d : α) (h : a.isSome = true) : a = some (a.getD d) := by
  cases a with
  | none => cases h
  | some v => rfl

/-- Whether a hardware context runs no selected task. -/
def plainRun (s : State) : Bool :=
  match s.me.task with
  | none => true
  | some k => !k.folds && !k.task.shadow

theorem unshadowed_of (s : State) (h : plainRun s = true) : s.unshadowed := fun k e => by
  unfold plainRun at h; rw [e] at h; simpa using h

/-- Reset, with its capability mask written, and with the executing hardware context changed: the control context of a die
manager core, in M-mode. -/
def onMgr (f : Hart → Hart) : State := (State.reset.onCore 0 (fun k => { k with capmask := BitVec.allOnes 64 })).onMe f

/-- A context of one logical core on die 0. -/
def ctx0 : Ctx where
  prio := 0
  slice := 2000
  qpart := 4096
  scratch := 32768
  hb := 0
  rt := 0x1000
  rtarg := 7
  template := 0
  ncores := 1
  ctab := [(0, 16)]
  self := (0, 0, 0)
  routes := []
  leaves := []
  root := 0
  tables := []
  pool := []
  carve := []
  tasks := []
  nextSeq := 1
  nextLaunch := 1
  nextJob := 1
  nextToken := 1
  launches := [(0, Launch.init 0)]
  domains := []
  groups := []
  passes := []
  images := []
  placed := [0]
  fault := none
  residentCc := []
  unserved := []
  lastDone := 0
  shadows := []
  jobDone := []
  deferred := []
  held := []

/-- The translations of a context's leaves, as a micro-TLB holds them. -/
def cached (c : Ctx) : List TlbEntry := c.leaves.map (fun l => { tag := 1, va := l.va, size := l.size, pte := l.pte })

/-- Core 16 of die 0 serves logical core 0 of context 1, whose handler stands at 0x2000, and its control context executes
in S-mode; its micro-TLB holds the context's leaves. -/
def served (c : Ctx) (k : Core → Core) : State :=
  { State.reset with
    ctxs := [(1, c)]
    cores := [(16, k { Core.init 16 with
      serving := some (1, 0), capmask := BitVec.allOnes 64, microTlb := cached c, img := { Img.init with stvec := 0x2000 } })]
    dies := [(0, { Die.init with clusters := [(2, { tag := 1, image := 0, slice := 0, idle := 0, evict := false })] })]
    running := [16]
    cur := { core := 16, h := 0 } }

/-- The same with a hardware context of the core changed. -/
def servedHart (c : Ctx) (f : Hart → Hart) : State := (served c id).onMe f

/-- The context with 2 MiB of die 0 at address 0, readable, writable and executable in S-mode. -/
def ctx1 : Ctx :=
  { ctx0 with leaves := [{ va := 0, size := 0x200000, pte := 0xCF, share := false, cow := false, alloc := false, die := 0 }] }

/-- A die manager core's control context with 8 vector registers of 16,384 bits of 32-bit elements, FMT a format and a
length. -/
def vecS (fmt : Word) (vl : BitVec 16) (f : Hart → Hart) : State :=
  onMgr (fun t => f { t with vcfgst := (grantOf 32 8 0).status 32 3 0 2, vtype := fmt, vl := vl })

/-- The same with three distribution registers as well, so with a shorter length. -/
def distS (vl : BitVec 16) (f : Hart → Hart) : State :=
  onMgr (fun t => f { t with vcfgst := (grantOf 32 44 0).status 32 3 3 2, vtype := 0x0A, vl := vl })

/-- A state with bytes in memory. -/
def withBytes (s : State) (pa : Nat) (bs : List Byte) : State := { s with mem := Memory.write s.mem pa bs }

/-- The control context of a serving core, with vector registers as `vecS` has them. -/
def servedVec (c : Ctx) (fmt : Word) (vl : BitVec 16) (f : Hart → Hart) : State :=
  servedHart c (fun t => f { t with vcfgst := (grantOf 32 8 0).status 32 3 0 2, vtype := fmt, vl := vl })

/-- A pass of one region of 32 by 32 pixels (region code 2), whose owner is logical core 0 and uses ring 0. -/
def pass0 : Pass where
  tickets := 16
  width := 32
  height := 32
  region := 2
  samples := 0
  blend := 0
  ring := 0
  coff := 0
  loff := 0x4000
  logn := 64
  closure := 0
  accepted := []
  discards := 0
  owners := [{ lcore := 0, region := 0, inbox := [], pos := 0, live := [], blended := [], retired := [], store := [], voids := [] }]
  spoiled := false
  filled := false
  tick := 0

/-- The context with pass 0 active. -/
def ctxP : Ctx := { ctx1 with passes := [(0, pass0)] }

/-- A texture descriptor: one level of one texel at 0x2000, format 1, nearest, anisotropy 1. -/
def texDesc : List Byte := bytesLE 8 0x2000 ++ bytesLE 8 0x0101000000000000 ++ bytesLE 8 4 ++ List.replicate 40 0

/-- A feature-grid descriptor: one level of one cell, two features, 2^10 entries, at 0x4000, scales at byte 512. -/
def gridDesc : List Byte :=
  bytesLE 8 0x4000 ++ [1, 2, 10, 0] ++ bytesLE 4 512 ++ bytesLE 8 1 ++ List.replicate 40 0

/-- A commit record: ticket 0, owner 0, pass 0, block 0, of which no sample is covered. -/
def commitRec : List Byte := List.replicate 32 0

/-- The context with a kernel table of one kernel as well, at 2 MiB of die 0. -/
def ctxK : Ctx :=
  { ctx1 with leaves := ctx1.leaves ++
      [{ va := kernelTable, size := 0x200000, pte := 0x800CF, share := false, cow := false, alloc := false, die := 0 }] }

/-- A context in which task instructions run: a kernel table of one entry, and a share of one unit for helpers. -/
def taskS (c : Ctx) (m : Img → Img) (f : Hart → Hart) : State :=
  withBytes ((served c (fun k => { k with img := m { k.img with hnext := 1 } })).onMe (fun t => f (t.put 5 0x1000))) 0x200000 [1]

/-- A task of the service launch in the die's queue. -/
def task0 : Task := newTask (taskRecOf (List.replicate 64 0)) KernelFacts.none 0 0

/-- A pattern descriptor for a port: four words of one dimension from 0x2000, scope .die. -/
def patDesc : List Byte :=
  bytesLE 8 0x2000 ++ bytesLE 8 0 ++ [2, 1, 4] ++ List.replicate 37 0 ++ bytesLE 4 4 ++ List.replicate 100 0

/-- The pattern it describes, at a port, while its length is 4. -/
def pat0 (port : Nat) : Pattern := patternOf patDesc 1 0 0 port 4 0 none

/-- A job card of op 0 (copy) with one read and one write region of 128 bytes. -/
def copyCard : List Byte :=
  [0, 1, 1, 4] ++ List.replicate 60 0 ++ bytesLE 8 0x3000 ++ bytesLE 8 128 ++ List.replicate 48 0 ++ bytesLE 8 0x4000
    ++ bytesLE 8 128 ++ List.replicate 48 0

/-- A job card of op 3 (collective): an FP32 sum in group 5. -/
def collCard : List Byte := [3, 0, 0, 4] ++ List.replicate 13 0 ++ [0x0A, 0, 0] ++ bytesLE 4 5 ++ List.replicate 168 0

/-- The job of copyCard. -/
def job0 : Job := jobOfCard copyCard 1 1 0 0 0 0 0 0 none

/-- Where stream instructions run: x5 names port 16, x6 a descriptor or card at 0x1000. -/
def streamS (c : Ctx) (d : Die → Die) (bs : List Byte) : State :=
  withBytes (((served c id).onMe (fun t => { (t.put 5 16).put 6 0x1000 with vl := 4 })).onDie 0 d) 0x1000 bs

/-! Words written out from the encodings of the spec (R84 to R100, R120): one for every row. -/

/-- Whether a word decodes to an instruction of 32 bits. -/
def decodesTo (p : Nat × Instr) : Bool := decide (decode (bytesLE 4 p.1) = .ok { instr := p.2, len := 4, bits := BitVec.ofNat 32 p.1 })

/-- Words of the base set, part 1. -/
def wordsBase1 : List (Nat × Instr) :=
  [(0x81234237, .lui 4 0x81234), (0x81234217, .auipc 4 0x81234), (0x9BD5726F, .jal 4 0xABCDE),
    (0x9A650267, .jalr 4 10 0x9A6), (0xB4650663, .beq 10 6 0x9A6), (0xB4651663, .bne 10 6 0x9A6),
    (0xB4654663, .blt 10 6 0x9A6), (0xB4655663, .bge 10 6 0x9A6), (0xB4656663, .bltu 10 6 0x9A6),
    (0xB4657663, .bgeu 10 6 0x9A6), (0x9A650203, .lb 4 10 0x9A6), (0x9A651203, .lh 4 10 0x9A6), (0x9A652203, .lw 4 10 0x9A6),
    (0x9A653203, .ld 4 10 0x9A6), (0x9A654203, .lbu 4 10 0x9A6), (0x9A655203, .lhu 4 10 0x9A6),
    (0x9A656203, .lwu 4 10 0x9A6), (0x9A650323, .sb 10 6 0x9A6), (0x9A651323, .sh 10 6 0x9A6), (0x9A652323, .sw 10 6 0x9A6)]

/-- Words of the base set, part 2. -/
def wordsBase2 : List (Nat × Instr) :=
  [(0x9A653323, .sd 10 6 0x9A6), (0x9A650213, .addi 4 10 0x9A6), (0x9A652213, .slti 4 10 0x9A6),
    (0x9A653213, .sltiu 4 10 0x9A6), (0x9A654213, .xori 4 10 0x9A6), (0x9A656213, .ori 4 10 0x9A6),
    (0x9A657213, .andi 4 10 0x9A6), (0x02D51213, .slli 4 10 45), (0x02D55213, .srli 4 10 45), (0x42D55213, .srai 4 10 45),
    (0x9A65021B, .addiw 4 10 0x9A6), (0x0155121B, .slliw 4 10 21), (0x0155521B, .srliw 4 10 21),
    (0x4155521B, .sraiw 4 10 21), (0x00650233, .add 4 10 6), (0x00651233, .sll 4 10 6), (0x00652233, .slt 4 10 6),
    (0x00653233, .sltu 4 10 6), (0x00654233, .xor 4 10 6), (0x00655233, .srl 4 10 6)]

/-- Words of the base set, part 3. -/
def wordsBase3 : List (Nat × Instr) :=
  [(0x00656233, .or 4 10 6), (0x00657233, .and 4 10 6), (0x40650233, .sub 4 10 6), (0x40655233, .sra 4 10 6),
    (0x02650233, .mul 4 10 6), (0x02651233, .mulh 4 10 6), (0x02652233, .mulhsu 4 10 6), (0x02653233, .mulhu 4 10 6),
    (0x02654233, .div 4 10 6), (0x02655233, .divu 4 10 6), (0x02656233, .rem 4 10 6), (0x02657233, .remu 4 10 6),
    (0x0065023B, .addw 4 10 6), (0x0065123B, .sllw 4 10 6), (0x0065523B, .srlw 4 10 6), (0x4065023B, .subw 4 10 6),
    (0x4065523B, .sraw 4 10 6), (0x0265023B, .mulw 4 10 6), (0x0265423B, .divw 4 10 6), (0x0265523B, .divuw 4 10 6)]

/-- Words of the base set, part 4. -/
def wordsBase4 : List (Nat × Instr) :=
  [(0x0265623B, .remw 4 10 6), (0x0265723B, .remuw 4 10 6), (0x9A65020F, .fence 4 10 0x9A6),
    (0x9A65120F, .fenceI 4 10 0x9A6), (0x00000073, .ecall), (0x00100073, .ebreak), (0x10200073, .sret), (0x30200073, .mret),
    (0x10500073, .wfi), (0x12650073, .sfenceVma 10 6), (0x10551273, .csrrw 4 10 0x105), (0x10552273, .csrrs 4 10 0x105),
    (0x10553273, .csrrc 4 10 0x105), (0x105AD273, .csrrwi 4 21 0x105), (0x105AE273, .csrrsi 4 21 0x105),
    (0x105AF273, .csrrci 4 21 0x105)]

theorem test_decode_base : (wordsBase1 ++ wordsBase2 ++ wordsBase3 ++ wordsBase4).all decodesTo = true := by decide +kernel

/-- Words of atomics and the loop instructions, part 1. -/
def wordsAtomics1 : List (Nat × Instr) :=
  [(0x1205222F, .lrW 4 10 false true), (0x1405322F, .lrD 4 10 true false), (0x1A65222F, .scW 4 10 6 false true),
    (0x1C65322F, .scD 4 10 6 true false), (0x0A65222F, .amoswapW 4 10 6 false true),
    (0x0C65322F, .amoswapD 4 10 6 true false), (0x0265222F, .amoaddW 4 10 6 false true),
    (0x0465322F, .amoaddD 4 10 6 true false), (0x2265222F, .amoxorW 4 10 6 false true),
    (0x2465322F, .amoxorD 4 10 6 true false), (0x2A65222F, .amocasW 4 10 6 false true),
    (0x2C65322F, .amocasD 4 10 6 true false), (0x6265222F, .amoandW 4 10 6 false true),
    (0x6465322F, .amoandD 4 10 6 true false), (0x4265222F, .amoorW 4 10 6 false true),
    (0x4465322F, .amoorD 4 10 6 true false), (0x8265222F, .amominW 4 10 6 false true),
    (0x8465322F, .amominD 4 10 6 true false), (0xA265222F, .amomaxW 4 10 6 false true),
    (0xA465322F, .amomaxD 4 10 6 true false)]

/-- Words of atomics and the loop instructions, part 2. -/
def wordsAtomics2 : List (Nat × Instr) :=
  [(0xC265222F, .amominuW 4 10 6 false true), (0xC465322F, .amominuD 4 10 6 true false),
    (0xE265222F, .amomaxuW 4 10 6 false true), (0xE465322F, .amomaxuD 4 10 6 true false), (0xB465067B, .bsubnz 10 6 0x9A6),
    (0x29E5127B, .vsetl 4 10 0x0A 3 6), (0xB105227B, .vcfg 4 10 5 8 2)]

theorem test_decode_atomics : (wordsAtomics1 ++ wordsAtomics2).all decodesTo = true := by decide +kernel

/-- Words of vector arithmetic, part 1. -/
def wordsArith1 : List (Nat × Instr) :=
  [(0x006AA20B, .vadd ⟨false, false, 4, 6, .vi 21⟩), (0x066A820B, .vsub ⟨true, false, 4, 6, .vv 21⟩),
    (0x086AD20B, .vrsub ⟨false, true, 4, 6, .vx 21⟩), (0x0E6AE20B, .vmul ⟨true, true, 4, 6, .vi 21⟩),
    (0x106A820B, .vmulh ⟨false, false, 4, 6, .vv 21⟩), (0x166A920B, .vdiv ⟨true, false, 4, 6, .vx 21⟩),
    (0x186AE20B, .vrem ⟨false, true, 4, 6, .vi 21⟩), (0x1E6AC20B, .vmin ⟨true, true, 4, 6, .vv 21⟩),
    (0x206A920B, .vmax ⟨false, false, 4, 6, .vx 21⟩), (0x266AA20B, .vsadd ⟨true, false, 4, 6, .vi 21⟩),
    (0x286AC20B, .vssub ⟨false, true, 4, 6, .vv 21⟩), (0x2E6AD20B, .vand ⟨true, true, 4, 6, .vx 21⟩),
    (0x306AA20B, .vor ⟨false, false, 4, 6, .vi 21⟩), (0x366A820B, .vxor ⟨true, false, 4, 6, .vv 21⟩),
    (0x386AD20B, .vsll ⟨false, true, 4, 6, .vx 21⟩), (0x3E6AE20B, .vsrl ⟨true, true, 4, 6, .vi 21⟩),
    (0x406A820B, .vsra ⟨false, false, 4, 6, .vv 21⟩), (0x466A920B, .vfma ⟨true, false, 4, 6, .vx 21⟩),
    (0x486AC20B, .vfms ⟨false, true, 4, 6, .vv 21⟩), (0x4E6AD20B, .vfnma ⟨true, true, 4, 6, .vx 21⟩)]

/-- Words of vector arithmetic, part 2. -/
def wordsArith2 : List (Nat × Instr) :=
  [(0x506A820B, .vsgnj ⟨false, false, 4, 6, .vv 21⟩), (0x566A920B, .vsgnjn ⟨true, false, 4, 6, .vx 21⟩),
    (0x586AC20B, .vsgnjx ⟨false, true, 4, 6, .vv 21⟩), (0x5E6AD20B, .vceq ⟨true, true, 4, 6, .vx 21⟩),
    (0x606AA20B, .vcne ⟨false, false, 4, 6, .vi 21⟩), (0x666A820B, .vclt ⟨true, false, 4, 6, .vv 21⟩),
    (0x686AD20B, .vcle ⟨false, true, 4, 6, .vx 21⟩), (0x6E6AE20B, .vcgt ⟨true, true, 4, 6, .vi 21⟩),
    (0x706A820B, .vcge ⟨false, false, 4, 6, .vv 21⟩), (0x766A920B, .vmerge ⟨true, false, 4, 6, .vx 21⟩),
    (0x780AE20B, .vmv ⟨false, true, 4, 0, .vi 21⟩), (0x7E6AE20B, .vslideup ⟨true, true, 4, 6, .vi 21⟩),
    (0x806A920B, .vslidedown ⟨false, false, 4, 6, .vx 21⟩), (0x866AA20B, .vgather ⟨true, false, 4, 6, .vi 21⟩),
    (0x886AC20B, .vcompress ⟨false, true, 4, 6, 21⟩), (0x8E6AC20B, .vmand ⟨true, true, 4, 6, 21⟩),
    (0x906A820B, .vmor ⟨false, false, 4, 6, 21⟩), (0x966A820B, .vmxor ⟨true, false, 4, 6, 21⟩),
    (0x986AC20B, .vmandn ⟨false, true, 4, 6, 21⟩)]

theorem test_decode_arith : (wordsArith1 ++ wordsArith2).all decodesTo = true := by decide +kernel

/-- Words of one-source vector forms, block formats and reductions, part 1. -/
def wordsUnary1 : List (Nat × Instr) :=
  [(0x9E60720B, .vsqrt ⟨true, true, 4, 6⟩), (0x9C60B20B, .vrcp ⟨false, false, 4, 6⟩),
    (0x9E61320B, .vrsqrt ⟨true, false, 4, 6⟩), (0x9C61F20B, .vexp2 ⟨false, true, 4, 6⟩),
    (0x9E62720B, .vlog2 ⟨true, true, 4, 6⟩), (0x9C62B20B, .vsin ⟨false, false, 4, 6⟩),
    (0x9E63320B, .vcos ⟨true, false, 4, 6⟩), (0x9C63F20B, .vtanh ⟨false, true, 4, 6⟩),
    (0x9E64720B, .vclass ⟨true, true, 4, 6⟩), (0x9C64B20B, .vabs ⟨false, false, 4, 6⟩),
    (0x9E65320B, .vneg ⟨true, false, 4, 6⟩), (0x9C05F20B, .vid ⟨false, true, 4, 0⟩), (0x9E66720B, .vmpop ⟨true, true, 4, 6⟩),
    (0x9C66B20B, .vmfirst ⟨false, false, 4, 6⟩), (0x9C67320B, .vmvxs ⟨false, false, 4, 6⟩),
    (0x9C67F20B, .vmvsx ⟨false, true, 4, 6⟩), (0xA267320B, .vcvt ⟨true, false, 4, 6, 14⟩),
    (0xA46A820B, .vbdot ⟨false, false, 4, 6, 21⟩), (0xAA60020B, .vbexp ⟨true, false, 4, 6⟩),
    (0xAC60420B, .vbpack ⟨false, true, 4, 6⟩)]

/-- Words of one-source vector forms, block formats and reductions, part 2. -/
def wordsUnary2 : List (Nat × Instr) :=
  [(0xB26AD20B, .vredsum ⟨true, true, 4, 6, .vx 21⟩), (0xB46A820B, .vredmin ⟨false, false, 4, 6, .vv 21⟩),
    (0xBA6A920B, .vredmax ⟨true, false, 4, 6, .vx 21⟩), (0xBC6AC20B, .vscan ⟨false, true, 4, 6, .vv 21⟩)]

theorem test_decode_unary : (wordsUnary1 ++ wordsUnary2).all decodesTo = true := by decide +kernel

/-- Words of vector memory, the matrix unit and distributions, part 1. -/
def wordsUnits1 : List (Nat × Instr) :=
  [(0x9C05022B, .vld ⟨9, true, true, false, 0, 10, 4⟩), (0x9205122B, .vldSt ⟨9, false, false, true, 0, 10, 4⟩),
    (0x9865222B, .vldIx ⟨9, true, false, false, 6, 10, 4⟩), (0x9065322B, .vamoadd ⟨9, false, 6, 10, 4⟩),
    (0x9665322B, .vamomin ⟨9, true, 6, 10, 4⟩), (0x9865322B, .vamomax ⟨9, false, 6, 10, 4⟩),
    (0x9E65322B, .vamoswap ⟨9, true, 6, 10, 4⟩), (0x9665422B, .vst ⟨9, false, true, true, 6, 10, 4⟩),
    (0x9C65522B, .vstSt ⟨9, true, true, false, 6, 10, 4⟩), (0x9265622B, .vstIx ⟨9, false, false, true, 6, 10, 4⟩),
    (0x5005005B, .mcfg 5 10), (0x5265015B, .mopa 5 2 10 6), (0x5400015B, .mzero 5 2), (0x5665015B, .mld 5 2 10 6),
    (0x5865015B, .mst 5 2 10 6), (0x5865035B, .mstRel 5 2 10 6), (0x5A00015B, .mrelease 5 2), (0x5C00015B, .mwait 5 2),
    (0x5E65005B, .mwexp 5 10 6), (0x5061125B, .dadd 5 4 2 6)]

/-- Words of vector memory, the matrix unit and distributions, part 2. -/
def wordsUnits2 : List (Nat × Instr) :=
  [(0x5261125B, .dsub 5 4 2 6), (0x5461125B, .dmul 5 4 2 6), (0x5661125B, .dmax 5 4 2 6), (0x5861125B, .dmin 5 4 2 6),
    (0x5A61125B, .dmix 5 4 2 6), (0x5C65125B, .dscale 5 4 10 6), (0x5E61125B, .dcond 5 4 2 6), (0x5005225B, .dtag 5 4 10),
    (0x5205225B, .dpoint 5 4 10), (0x5465225B, .dgauss 5 4 10 6), (0x5621225B, .dmom 5 4 2 2), (0x5861225B, .dqnt 5 4 2 6),
    (0x5A61225B, .dcdf 5 4 2 6), (0x5C05225B, .dld 5 4 10), (0x5E05225B, .dst 5 4 10)]

theorem test_decode_units : (wordsUnits1 ++ wordsUnits2).all decodesTo = true := by decide +kernel

/-- Words of the other units, part 1. -/
def wordsOther1 : List (Nat × Instr) :=
  [(0x5065325B, .xbox 5 4 10 6), (0x5265325B, .xtri 5 4 10 6), (0x5465325B, .xedge 5 4 10 6),
    (0x5665325B, .vdedup 5 4 10 6), (0x5865325B, .tfetch 5 4 10 6), (0x5A65325B, .tgrad 5 4 10 6),
    (0x5C65325B, .gfeat 5 4 10 6), (0x5E65305B, .zcommit 5 10 6), (0x5065425B, .trace 5 4 10 6), (0x5200425B, .rwait 5 4),
    (0x5405425B, .rget 5 4 10), (0x5665405B, .rhit 5 10 6), (0x5805405B, .rcancel 5 10), (0x5065327B, .hstart 5 4 10 6),
    (0x5205307B, .hjoin 5 10), (0x5400307B, .hexit 5), (0x5600307B, .hyield 5), (0x5805327B, .qput 5 4 10),
    (0x5A05327B, .qtake 5 4 10), (0x5C05327B, .qsteal 5 4 10)]

/-- Words of the other units, part 2. -/
def wordsOther2 : List (Nat × Instr) :=
  [(0x5E05307B, .qdone 5 10), (0x5045407B, .bar 5 10 4), (0x5245407B, .barr 5 10 4), (0x5445407B, .barw 5 10 4),
    (0x5665407B, .rinit 5 10 6), (0x5805427B, .rawait 5 4 10), (0x5A05407B, .rrel 5 10), (0x5065507B, .sbind 5 10 6),
    (0x5205527B, .sjob 5 4 10), (0x5405507B, .swait 5 10), (0x5605527B, .scoll 5 4 10), (0x5945527B, .ldacq 5 4 10 2 4),
    (0x5B45527B, .strel 5 4 10 2 4), (0x5C4552FB, .ofence 5 5 10 4)]

theorem test_decode_other : (wordsOther1 ++ wordsOther2).all decodesTo = true := by decide +kernel

/-- Words of the compressed rows, from RVC's tables (R120). -/
def wordsCompressed : List (Nat × Instr) :=
  [(0x0800, .cAddi4spn), (0x4044, .cLw), (0x6404, .cLd), (0xC044, .cSw), (0xE404, .cSd), (0x0285, .cAddi), (0x0001, .cNop),
    (0x2285, .cAddiw), (0x4285, .cLi), (0x6141, .cAddi16sp), (0x6285, .cLui), (0x8005, .cSrli), (0x8405, .cSrai), (0x8805, .cAndi),
    (0x8C05, .cSub), (0x8C25, .cXor), (0x8C45, .cOr), (0x8C65, .cAnd), (0x9C05, .cSubw), (0x9C25, .cAddw), (0xA001, .cJ), (0xC001, .cBeqz), (0xE001, .cBnez), (0x0286, .cSlli), (0x4282, .cLwsp),
    (0x6282, .cLdsp), (0x8282, .cJr), (0x829A, .cMv), (0x9002, .cEbreak), (0x9282, .cJalr), (0x929A, .cAdd), (0xC01A, .cSwsp),
    (0xE01A, .cSdsp), (0x1001, .hint)]

theorem test_decode_compressed : wordsCompressed.all (fun p =>
    decide (decode (bytesLE 2 p.1) = .ok { instr := p.2, len := 2, bits := BitVec.ofNat 32 p.1 })) = true := by decide +kernel

/-- Whether a word is refused. -/
def refuses (w : Nat) : Bool :=
  match decode (bytesLE 4 w) with
  | .ok _ => false
  | .error _ => true

/-- Reserved encodings: the zero parcel; a set reserved bit of vcfg; minor 7 beside vsetl's words; a masked vadd into v0;
vbdot of v31; a barrier of scope 0; distribution register 8; block code 5; an undefined format. -/
theorem test_decode_refuses : [0x00000000, 0x0010207B, 0x298512FF, 0x0253000B, 0xA5FA820B, 0x0005407B, 0x0C05245B, 0x2A85127B, 0x3C05127B].all refuses = true := by
  decide +kernel

/-! Ill-formed terms, one for each check, which the check refuses. -/

theorem test_wf_refuses_mask : ([.vadd ⟨true, false, 0, 5, .vv 6⟩, .vmv ⟨true, false, 0, 0, .vi 1⟩, .vsqrt ⟨true, false, 0, 5⟩,
    .vcvt ⟨true, false, 0, 5, 3⟩, .vld ⟨0, false, false, true, 0, 10, 0⟩, .vldIx ⟨0, false, false, true, 6, 10, 0⟩,
    .vamoadd ⟨0, true, 6, 10, 0⟩, .vmerge ⟨false, false, 4, 5, .vv 6⟩, .vcompress ⟨true, false, 4, 5, 6⟩,
    .vmvxs ⟨true, false, 4, 5⟩] : List Instr).all (fun i => !i.wf) = true := by decide +kernel

theorem test_wf_refuses_kind : ([.vfma ⟨false, false, 4, 5, .vi 6⟩, .vredsum ⟨false, false, 4, 5, .vi 6⟩,
    .vslideup ⟨false, false, 4, 5, .vv 6⟩, .vslidedown ⟨false, false, 4, 4, .vx 6⟩, .vgather ⟨false, false, 4, 4, .vv 6⟩,
    .vgather ⟨false, false, 4, 5, .vv 4⟩, .vcompress ⟨false, false, 4, 4, 6⟩, .vmv ⟨false, false, 4, 5, .vv 6⟩,
    .vid ⟨false, false, 4, 5⟩] : List Instr).all (fun i => !i.wf) = true := by decide +kernel

theorem test_wf_refuses_value : ([.vcvt ⟨false, false, 4, 5, 15⟩, .vbdot ⟨false, false, 4, 31, 6⟩, .vbpack ⟨false, false, 31, 5⟩,
    .vbpack ⟨false, false, 4, 5⟩, .vld ⟨0, false, false, false, 1, 10, 4⟩, .bsubnz 0 5 8, .vsetl 4 10 0x0F 0 0, .vsetl 4 10 0x0A 5 0,
    .vcfg 4 10 6 0 0, .vcfg 4 10 0 9 0, .dmom 0 4 2 0] : List Instr).all (fun i => !i.wf) = true := by decide +kernel

theorem test_wf_refuses_place : ([.bar 0 10 1, .barr 0 10 7, .barw 0 10 0, .ldacq 0 4 10 2 0, .strel 0 4 10 2 0, .ofence 0 3 12 0,
    .elementGroupExecute { core := 0, h := 11 }, .rayTraversal { core := 64 * 16384, h := 0 } 0, .interrupt (64 * 16384),
    .tileDeliver (64 * 16384) 0, .jobStart 64 0, .hbmScrub 64 0] : List Instr).all (fun i => !i.wf) = true := by decide +kernel

/-! One step, with the results of the spec's rules. -/

/-- R116: 5 + (−1) = 4, and x0 stays 0. -/
theorem test_addi : (nextOf (exec (.addi 2 1 0xFFF) (onMgr (fun t => t.put 1 5)))).x 2 = 4
    ∧ (nextOf (exec (.addi 0 1 0xFFF) (onMgr (fun t => t.put 1 5)))).x 0 = 0 := by decide +kernel

/-- R117: division by 0 gives −1, and the most negative number by −1 itself. -/
theorem test_div : (nextOf (exec (.div 3 1 2) (onMgr (fun t => t.put 1 7)))).x 3 = BitVec.allOnes 64
    ∧ (nextOf (exec (.div 3 1 2) (onMgr (fun t => (t.put 1 (BitVec.intMin 64)).put 2 (BitVec.allOnes 64))))).x 3 = BitVec.intMin 64 := by
  decide +kernel

/-- R116: a 32-bit add wraps and sign-extends. -/
theorem test_addw : (nextOf (exec (.addw 3 1 2) (onMgr (fun t => (t.put 1 0x7FFFFFFF).put 2 1)))).x 3 = 0xFFFFFFFF80000000 := by
  decide +kernel

/-- R116, R82: a taken branch adds its offset, which counts in 2-byte units; one not taken advances the pc by 4. -/
theorem test_beq : (nextOf (exec (.beq 1 1 0xFFE) (onMgr (fun t => { t with pc := 0x100 })))).pc = 0xFC
    ∧ (nextOf (exec (.bne 1 1 0xFFE) (onMgr (fun t => { t with pc := 0x100 })))).pc = 0x104 := by decide +kernel

/-- R120: c.addi16sp by 16 and c.li x5, 1, as the word that executes says. -/
theorem test_compressed : (nextOf (exec .cAddi16sp ({ onMgr (fun t => t.put 2 0x100) with ir := 0x6141 }))).x 2 = 0x110
    ∧ (nextOf (exec .cLi ({ onMgr id with ir := 0x4285 }))).x 5 = 1 := by decide +kernel

/-! Witnesses: the base set. -/

theorem witness_idle : State.reset.idle := ⟨rfl, rfl⟩

theorem witness_compute : ∃ i s d v, computed (expand i s.ir).1 s = some (d, v) ∧ s.idle ∧ i.isCompressed = false :=
  ⟨.addi 1 0 5, State.reset, 1, 5, by decide +kernel, ⟨rfl, rfl⟩, rfl⟩

theorem witness_compute_compressed : ∃ i s v, computed (expand i s.ir).1 s = some (10, v) ∧ s.idle ∧ i.isCompressed = true :=
  ⟨.cLi, { State.reset with ir := 0x557D }, 0xFFFFFFFFFFFFFFFF, by decide +kernel, ⟨rfl, rfl⟩, rfl⟩

theorem witness_branch_taken : ∃ i s off, branchOf (expand i s.ir).1 s = some (off, true) ∧ s.idle :=
  ⟨.beq 1 2 4, State.reset, 8, by decide +kernel, ⟨rfl, rfl⟩⟩

theorem witness_branch_not_taken : ∃ i s off, branchOf (expand i s.ir).1 s = some (off, false) ∧ s.idle :=
  ⟨.bne 1 2 0xFFE, State.reset, 0xFFFFFFFFFFFFFFFC, by decide +kernel, ⟨rfl, rfl⟩⟩

theorem witness_jump : ∃ i s d t, jumpOf (expand i s.ir).1 s = some (d, t) ∧ s.idle :=
  ⟨.jalr 1 0 0x7F, State.reset, 1, 0x7E, by decide +kernel, ⟨rfl, rfl⟩⟩

/-! Witnesses: loads and stores. -/

theorem witness_load : ∃ i s d va n sg bs s1, loadOf (expand i s.ir).1 s = some (d, va, n, sg) ∧ s.idle ∧ s.read va n = .ok bs s1 :=
  ⟨.ld 1 0 0x100, State.reset, 1, 0x100, 8, true, valOf (State.reset.read 0x100 8) [], (State.reset.read 0x100 8).state,
    by decide +kernel, ⟨rfl, rfl⟩, ok_of_isOk _ _ (by decide +kernel)⟩

theorem witness_store : ∃ i s s1 va data, storeOf (expand i s.ir).1 s = some (va, data)
    ∧ ¬ (va = controlWindow ∧ data.length = 8 ∧ (s.tagOf s.cur.core).isSome) ∧ s.idle ∧ s.write va data = .ok () s1 :=
  ⟨.sw 0 1 0x100, State.reset, (State.reset.write 0x100 [0, 0, 0, 0]).state, 0x100, [0, 0, 0, 0], by decide +kernel,
    by decide +kernel, ⟨rfl, rfl⟩, ok_is _ _ (by decide +kernel)⟩

theorem witness_misaligned_load : ∃ i s d va n sg, loadOf (expand i s.ir).1 s = some (d, va, n, sg) ∧ s.idle ∧ va.toNat % n ≠ 0 :=
  ⟨.lh 1 0 1, State.reset, 1, 1, 2, true, by decide +kernel, ⟨rfl, rfl⟩, by decide +kernel⟩

theorem witness_misaligned_store : ∃ i s va data, storeOf (expand i s.ir).1 s = some (va, data) ∧ s.idle
    ∧ va.toNat % data.length ≠ 0 :=
  ⟨.sd 0 0 4, State.reset, 4, [0, 0, 0, 0, 0, 0, 0, 0], by decide +kernel, ⟨rfl, rfl⟩, by decide +kernel⟩

theorem witness_local_load : ∃ (s : State) (va : Word) (n : Nat), 0 < n ∧ n ≤ 8 ∧ 128 % n = 0 ∧ va.toNat % n = 0
    ∧ s.myCore.serving = none ∧ s.me.dataPriv.mode = .m ∧ isDevice va.toNat = true
    ∧ homeDie va.toNat = dieOf s.cur.core ∧ s.isBad va.toNat = false ∧ s.myCore.img.stores = [] ∧ plainRun s = true
    ∧ (s.homeLine (va.toNat / 128)).owner = none ∧ Tab.get? (s.die (dieOf s.cur.core)).owned (va.toNat / 128) = none
    ∧ Tab.get? (s.die (dieOf s.cur.core)).loans (va.toNat / 128) = none
    ∧ tickLe (s.homeLine (va.toNat / 128)).wts s.myCore.ptick = true :=
  ⟨State.reset, 0x100, 8, by decide +kernel⟩

theorem reset_coherent : State.reset.coherent := fun d ln o h => by
  have e : Tab.get? (State.reset.die d).owned ln = none := rfl
  rw [e] at h; cases h

theorem witness_load_frame : ∃ (s t : State) (va : Word) (n : Nat) (bs : List Byte),
    s.coherent ∧ s.myCore.img.stores = [] ∧ s.read va n = .ok bs t :=
  ⟨State.reset, (State.reset.read 0x100 8).state, 0x100, 8, valOf (State.reset.read 0x100 8) [], reset_coherent, rfl,
    ok_of_isOk _ _ (by decide +kernel)⟩

theorem witness_store_frame : ∃ (s s0 t : State) (va : Word) (data : List Byte) (pa : Nat) (sh g : Bool),
    s.coherent ∧ s.myCore.img.stores = [] ∧ s.hold = false ∧ s.unshadowed
    ∧ s.dataPlace .store va data.length = .ok (.mem pa sh g) s0 ∧ pa % 128 + data.length ≤ 128
    ∧ s.write va data = .ok () t :=
  ⟨State.reset, (State.reset.dataPlace .store 0x7C 4).state, (State.reset.write 0x7C [1, 2, 3, 4]).state, 0x7C, [1, 2, 3, 4],
    0x7C, false, false, reset_coherent, rfl, rfl, unshadowed_of _ rfl, ok_is _ _ (by decide +kernel), by decide, ok_is _ _ (by decide +kernel)⟩

theorem witness_scratch_store : ∃ (s s0 t : State) (va : Word) (data : List Byte) (k off : Nat),
    s.myCore.img.stores = [] ∧ s.hold = false ∧ s.unshadowed
    ∧ s.dataPlace .store va data.length = .ok (.scratch k off) s0 ∧ s.write va data = .ok () t :=
  ⟨served ctx0 id, ((served ctx0 id).dataPlace .store (BitVec.ofNat 64 localWindow) 8).state,
    ((served ctx0 id).write (BitVec.ofNat 64 localWindow) [1, 2, 3, 4, 5, 6, 7, 8]).state, BitVec.ofNat 64 localWindow,
    [1, 2, 3, 4, 5, 6, 7, 8], 16, 0, rfl, rfl, unshadowed_of _ rfl, ok_is _ _ (by decide +kernel), ok_is _ _ (by decide +kernel)⟩

theorem witness_control_window : ∃ (i : Instr) (s s1 : State) (a b : Reg) (o : BitVec 12),
    (expand i s.ir).1 = .sd a b o ∧ s.x a + o.signExtend 64 = controlWindow ∧ (s.tagOf s.cur.core).isSome = true
    ∧ s.idle ∧ s.submitCommand (s.x b) = .ok () s1 :=
  ⟨.sd 5 6 0, servedHart ctx1 (fun t => (t.put 5 controlWindow).put 6 0x1000),
    ((servedHart ctx1 (fun t => (t.put 5 controlWindow).put 6 0x1000)).submitCommand 0x1000).state, 5, 6, 0,
    by decide +kernel, by decide +kernel, by decide +kernel, ⟨rfl, rfl⟩, ok_is _ _ (by decide +kernel)⟩

/-! Witnesses: exceptions and returns. -/

theorem witness_trap_to_s : ∃ (s : State) (tag l : Nat), s.myCore.serving = some (tag, l) ∧ ¬ (s.cur.h = 0 ∧ s.atRt tag = true) :=
  ⟨served ctx0 id, 1, 0, rfl, by decide +kernel⟩

theorem witness_trap_on_manager : State.reset.myCore.serving = none ∧ State.reset.me.mode = .m := by decide +kernel

theorem witness_trap_delegated : ∃ (s : State) (cause : Nat), s.myCore.serving = none ∧ s.me.mode ≠ .m
    ∧ s.myCore.medeleg.getLsbD cause = true :=
  ⟨(onMgr (fun t => { t with mode := .u })).onCore 0 (fun k => { k with medeleg := 0x100 }), 8, by decide +kernel⟩

theorem witness_trap_at_rt : ∃ (s : State) (tag l : Nat), s.myCore.serving = some (tag, l) ∧ s.cur.h = 0 ∧ s.atRt tag = true :=
  ⟨served ctx0 (fun k => { k with img := { k.img with stvec := 0x1000 } }), 1, 0, by decide +kernel⟩

/-- A flight for the witnesses that need one. -/
def flight1 (i : Instr) : Flight :=
  { id := 0, instr := i, pc := 0x40, xa := 0x1000, xb := 0, vl := 8, vpad := 0, vtype := 0x0A, vstride := 0, seed := 1, idx := 0,
    sub := 0, carry := none, desc := [], pages := [], probed := false, probeTrap := none }

theorem witness_trap_records : ∃ (s : State) (tag l : Nat), s.myCore.serving = some (tag, l)
    ∧ ¬ (s.cur.h = 0 ∧ s.atRt tag = true) ∧ s.me.chain ≠ [] ∧ s.me.chain.length ≤ 4 :=
  ⟨servedHart ctx0 (fun t => { t with chain := [flight1 (.vadd { m := false, agn := false, vd := 1, vs2 := 2, s := .vv 3 })] }),
    1, 0, by decide +kernel⟩

theorem witness_sret : ∃ s : State, (s.me.chain = [] ∧ s.me.windows = []) ∧ s.me.mode ≠ .u
    ∧ ¬ (s.me.mode = .s ∧ s.me.mstatus.getLsbD stTSR = true) :=
  ⟨served ctx0 id, by decide +kernel⟩

theorem witness_mret : State.reset.me.mode = .m := rfl

theorem witness_below_privilege : (onMgr (fun t => { t with mode := .u })).me.mode = .u := by decide +kernel

theorem witness_sret_ended : ∃ s : State, s.idle ∧ s.me.mode ≠ .u ∧ ¬ (s.me.mode = .s ∧ s.me.mstatus.getLsbD stTSR = true) ∧ s.me.endTask = true :=
  ⟨servedHart ctx0 (fun t => { t with endTask := true }), ⟨by decide +kernel, by decide +kernel⟩, by decide +kernel⟩

theorem witness_wfi_waits : ∃ s : State, (s.me.chain = [] ∧ s.me.windows = []) ∧ s.me.mode ≠ .u
    ∧ ¬ (s.me.mode = .s ∧ s.me.mstatus.getLsbD stTW = true) ∧ s.wfiEnds = false :=
  ⟨served ctx0 id, by decide +kernel⟩

theorem witness_wfi_goes_on : ∃ s : State, (s.me.chain = [] ∧ s.me.windows = []) ∧ s.me.mode ≠ .u
    ∧ ¬ (s.me.mode = .s ∧ s.me.mstatus.getLsbD stTW = true) ∧ s.wfiEnds = true :=
  ⟨served ctx0 (fun k => { k with img := { k.img with mie := 2, mip := 2 } }), by decide +kernel⟩

theorem witness_sfence : ∃ s s1 : State, (s.me.chain = [] ∧ s.me.windows = []) ∧ s.me.mode ≠ .u
    ∧ ¬ (s.me.mode = .s ∧ s.me.mstatus.getLsbD stTVM = true) ∧ (s.img s.cur.core).mq = [] ∧ s.flush s.cur.core = .ok () s1 :=
  ⟨served ctx0 id, ((served ctx0 id).flush 16).state, by decide +kernel, by decide +kernel, by decide +kernel,
    by decide +kernel, ok_is _ _ (by decide +kernel)⟩

/-! Witnesses: CSRs. -/

theorem witness_csr : ∃ (i : Instr) (s : State) (d : Reg) (c : Nat) (f : Word → Word) (old : Word),
    csrOf i s = some (d, c, true, f) ∧ s.idle ∧ s.readCsr c = some old ∧ s.me.mode.atLeast (csrMode c) = true
    ∧ csrWritable c s.me.mode = true ∧ ¬ (c = 0x180 ∧ s.forbids stTVM = true) ∧ (c = 0x800 → vtypeOk (f old) = true) :=
  ⟨.csrrwi 1 5 0x806, State.reset, 1, 0x806, fun _ => (5 : BitVec 5).setWidth 64, 0, rfl, ⟨rfl, rfl⟩, by decide +kernel,
    by decide +kernel, by decide +kernel, by decide +kernel, by decide⟩

theorem witness_csr_vtype : ∃ (s : State) (old : Word), s.readCsr 0x800 = some old ∧ csrWritable 0x800 s.me.mode = true
    ∧ vtypeOk 0x0A = true ∧ s.idle :=
  ⟨State.reset, 0, by decide +kernel, by decide +kernel, by decide +kernel, ⟨rfl, rfl⟩⟩

theorem witness_csr_none : State.reset.readCsr 0xFFF = none := by decide +kernel

theorem witness_csr_below_mode : ∃ s : State, s.me.mode.atLeast (csrMode 0x300) = false ∧ s.idle :=
  ⟨served ctx0 id, by decide +kernel, ⟨by decide +kernel, by decide +kernel⟩⟩

theorem witness_csr_read_only : csrWritable 0xCC2 State.reset.me.mode = false := by decide +kernel

theorem witness_csr_bad_vtype : ∃ old, State.reset.readCsr 0x800 = some old ∧ vtypeOk 0x3F = false :=
  ⟨0, by decide +kernel⟩

theorem witness_vtype_ok : vtypeOk 0x0A = true := by decide +kernel

theorem witness_satp_ignored : (served ctx0 id).myCore.serving.isSome = true := by decide +kernel

theorem witness_satp_mode : State.reset.myCore.serving = none ∧ field (0x9000000000000000 : Word) 60 4 ≠ 0
    ∧ field (0x9000000000000000 : Word) 60 4 ≠ 10 := by decide +kernel

theorem witness_shares : State.reset.myCore.img.helperUnits = 0 ∧ field (0x2003 : Word) 8 6 + 0 = 32 ∧ field (0x2103 : Word) 8 6 + 0 = 33 := by
  decide +kernel

/-- R23: of 32 units, 12 for the control context and a NEXT of 3 leave 20. -/
theorem test_shares : (State.reset.writeCsr 0x5C0 0x0C03).readCsr 0x5C0 = some 0x140C03 := by decide +kernel

/-- A chain record of an instruction in flight, of one with a carry, and of two empty entries. -/
def recordS : State :=
  onMgr (fun t => { t with chainRec := [some { flight1 (.hyield 0) with vl := 12, idx := 8 }, some { flight1 (.hyield 0) with carry := some [] }, none, none] })

theorem witness_chain_record : ∃ f g : Flight, recordS.me.chainRec.length = 4 ∧ recordS.me.chainRec.getD 0 none = some f
    ∧ f.carry = none ∧ field (0x1000C : Word) 0 16 ≠ f.idx ∧ f.vl ≤ field (0x1000C : Word) 0 16 ∧ (0x1000C : Word).getLsbD 16 = true
    ∧ recordS.me.chainRec.getD 1 none = some g ∧ g.carry.isSome = true ∧ recordS.me.chainRec.getD 2 none = none :=
  ⟨{ flight1 (.hyield 0) with vl := 12, idx := 8 }, { flight1 (.hyield 0) with carry := some [] }, by decide +kernel⟩

theorem witness_pending_bits : ∃ old new, State.reset.readCsr 0x144 = some old
    ∧ (State.reset.writeCsr 0x344 0x20002).readCsr 0x144 = some new :=
  ⟨_, _, some_of_isSome _ 0 (by decide +kernel), some_of_isSome _ 0 (by decide +kernel)⟩

/-! Witnesses: atomics, acquires, releases and fences. -/

theorem witness_amo : ∃ (i : Instr) (s s1 : State) (d a b : Reg) (n : Nat) (aq rl : Bool) (old : List Byte), amoOf i = some (d, a, b, n, aq, rl) ∧ s.idle ∧ (s.img s.cur.core).mq = []
    ∧ s.atomicAt (s.x a) n aq rl (amoBytes i n (s.x b)) = .ok old s1 :=
  ⟨.amoaddD 1 0 0 true true, State.reset, (State.reset.atomicAt 0 8 true true (amoBytes (.amoaddD 1 0 0 true true) 8 0)).state,
    1, 0, 0, 8, true, true, valOf (State.reset.atomicAt 0 8 true true (amoBytes (.amoaddD 1 0 0 true true) 8 0)) [], rfl,
    ⟨rfl, rfl⟩, rfl, ok_of_isOk _ _ (by decide +kernel)⟩

/-- The function of a matching amocas.d of zeros. -/
def casZero (o : List Byte) : Option (List Byte) := if o = lowBytes 8 0 then some (lowBytes 8 0) else none

theorem witness_amocas : ∃ s1 old, State.reset.atomicAt 0 8 false false casZero = .ok old s1 :=
  ⟨_, _, ok_of_isOk (State.reset.atomicAt 0 8 false false casZero) [] (by decide +kernel)⟩

theorem witness_atomic_scratch : ∃ (s t : State) (k off n : Nat) (f : List Byte → Option (List Byte)) (old : List Byte),
    (∀ l v, f l = some v → v.length = n) ∧ s.modify (.scratch k off) n false false f = .ok old t :=
  ⟨served ctx0 id, ((served ctx0 id).modify (.scratch 16 0) 4 false false (fun _ => some [1, 2, 3, 4])).state, 16, 0, 4,
    fun _ => some [1, 2, 3, 4], valOf ((served ctx0 id).modify (.scratch 16 0) 4 false false (fun _ => some [1, 2, 3, 4])) [],
    fun l v h => by cases h; rfl, ok_of_isOk _ _ (by decide +kernel)⟩

theorem casZero_length (l v : List Byte) (h : casZero l = some v) : v.length = 8 := by
  unfold casZero at h; split at h
  · cases h; rfl
  · cases h

theorem witness_atomic_memory : ∃ t : State, State.reset.coherent ∧ (∀ l v, casZero l = some v → v.length = 8) ∧ 0x78 % 128 + 8 ≤ 128
    ∧ State.reset.modify (.mem 0x78 false false) 8 false false casZero = .ok (List.replicate 8 0) t :=
  ⟨_, reset_coherent, casZero_length, by decide, ok_is _ _ (by decide +kernel)⟩

theorem witness_lr : ∃ (s s1 s2 s3 : State) (pl : Place) (bs : List Byte), (s.img s.cur.core).mq = []
    ∧ (s.x 0).toNat % 8 = 0 ∧ s.dataPlace .load (s.x 0) 8 = .ok pl s1 ∧ s1.flush s1.cur.core = .ok () s2
    ∧ s2.reserve pl 8 true = .ok bs s3 :=
  let s1 := (State.reset.dataPlace .load 0 8).state
  let s2 := (s1.flush s1.cur.core).state
  ⟨State.reset, s1, s2, (s2.reserve (.mem 0 false false) 8 true).state, .mem 0 false false,
    valOf (s2.reserve (.mem 0 false false) 8 true) [], rfl, rfl, ok_is _ _ (by decide +kernel), ok_is _ _ (by decide +kernel),
    ok_of_isOk _ _ (by decide +kernel)⟩

/-- Reset with a reservation on line 0. -/
def reserved : State := onMgr (fun t => { t with resv := some { line := .phys 0 } })

theorem witness_sc_succeeds : ∃ (s1 s2 s3 : State) (pl : Place), reserved.dataPlace .store 0 8 = .ok pl s1
    ∧ s1.flush s1.cur.core = .ok () s2 ∧ s2.scHolds pl = true ∧ s2.scStore pl true (lowBytes 8 0) = .ok () s3 :=
  let s1 := (reserved.dataPlace .store 0 8).state
  let s2 := (s1.flush s1.cur.core).state
  ⟨s1, s2, (s2.scStore (.mem 0 false false) true (lowBytes 8 0)).state, .mem 0 false false, ok_is _ _ (by decide +kernel),
    ok_is _ _ (by decide +kernel), by decide +kernel, ok_is _ _ (by decide +kernel)⟩

theorem witness_sc_fails : ∃ (s1 s2 : State) (pl : Place), State.reset.dataPlace .store 0 8 = .ok pl s1
    ∧ s1.flush s1.cur.core = .ok () s2 ∧ s2.scHolds pl = false :=
  let s1 := (State.reset.dataPlace .store 0 8).state
  ⟨s1, (s1.flush s1.cur.core).state, .mem 0 false false, ok_is _ _ (by decide +kernel), ok_is _ _ (by decide +kernel),
    by decide +kernel⟩

theorem witness_misaligned_atomic : ∃ s : State, s.idle ∧ (s.img s.cur.core).mq = [] ∧ (s.x 5).toNat % 4 ≠ 0 ∧ (s.x 5).toNat % 8 ≠ 0 :=
  ⟨onMgr (fun t => t.put 5 2), ⟨by decide +kernel, by decide +kernel⟩, by decide +kernel, by decide +kernel, by decide +kernel⟩

theorem witness_ldacq : ∃ s1 bs, State.reset.idle ∧ State.reset.acquireLoad (State.reset.x 0) (2 ^ 2) 7 = .ok bs s1
    ∧ s1.me.windows = [] :=
  ⟨(State.reset.acquireLoad 0 4 7).state, valOf (State.reset.acquireLoad 0 4 7) [], ⟨rfl, rfl⟩,
    ok_of_isOk _ _ (by decide +kernel), by decide +kernel⟩

theorem witness_strel : ∃ s1, State.reset.releaseStore (State.reset.x 0) (lowBytes (2 ^ 3) (State.reset.x 0)) 4 = .ok () s1 :=
  ⟨_, ok_is (State.reset.releaseStore 0 (lowBytes 8 0) 4) () (by decide +kernel)⟩

theorem witness_fence_empty : (0x030 : BitVec 12).extractLsb' 0 4 = 0 ∧ (0x033 : BitVec 12).extractLsb' 0 4 ≠ 0
    ∧ (0x033 : BitVec 12).extractLsb' 4 4 ≠ 0 := by decide

theorem witness_ofence : State.reset.idle ∧ (State.reset.img State.reset.cur.core).mq = []
    ∧ (∃ s1, State.reset.flush State.reset.cur.core = .ok () s1) ∧ State.reset.engineBusy State.reset.cur = false :=
  ⟨⟨rfl, rfl⟩, rfl, ⟨_, ok_is (State.reset.flush 0) () (by decide +kernel)⟩, by decide +kernel⟩

/-- A job of context 1 submitted by the executing hardware context, still in its die's table: engine work. -/
theorem witness_ofence_waits : ((streamS ctx1 (fun d => { d with jobs := [job0] }) []).engineBusy
    (streamS ctx1 (fun d => { d with jobs := [job0] }) []).cur) = true
    ∧ (streamS ctx1 (fun d => { d with jobs := [job0] }) []).me.chain = [] := by decide +kernel

/-! Witnesses: vector configuration. -/

theorem witness_share : ∃ share : Nat, share ≤ 32 ∧ (grantOf share 8 0).faulty 0 = false := ⟨32, by decide +kernel⟩

theorem witness_vcfg : ∃ (s : State) (g : Grant), s.idle ∧ s.me.annex = none
    ∧ g = grantOf s.shareOf (2 ^ (3 : BitVec 3).toNat + 12 * (3 : BitVec 4).toNat) (s.x 0) ∧ g.faulty 3 = false ∧ g.annex = 0 :=
  ⟨State.reset.onImg 0 (fun m => { m with hctrl := 32 }), grantOf 32 44 0, ⟨by decide +kernel, by decide +kernel⟩,
    by decide +kernel, by decide +kernel, by decide +kernel, by decide +kernel⟩

theorem witness_vcfg_faulty : ∃ (s : State) (g : Grant), s.idle
    ∧ g = grantOf s.shareOf (2 ^ (3 : BitVec 3).toNat + 12 * (0 : BitVec 4).toNat) (s.x 0) ∧ g.faulty 0 = true :=
  ⟨State.reset, grantOf 0 8 0, ⟨rfl, rfl⟩, by decide +kernel, by decide +kernel⟩

/-- The hypotheses of vsetl's statement for a count. -/
theorem witness_vsetl : ∃ (s : State) (f : Fmt) (b cap need : Nat), s.idle ∧ cfgOn s.me.vcfgst = true
    ∧ Fmt.ofCode (0x0A : BitVec 6).toNat = some f ∧ f.sew ≤ cfgWidth s.me.vcfgst ∧ ¬ (f.isScaled = true ∧ (2 : BitVec 3) = 0)
    ∧ b = (if (2 : BitVec 3) = 0 then 1 else 2 ^ ((2 : BitVec 3).toNat + 2)) ∧ cap = cfgVlmax s.me.vcfgst / b * b ∧ cap ≠ 0
    ∧ cap < 2 ^ 16 ∧ need = ((s.x 5).toNat + b - 1) / b * b ∧ need ≤ cap :=
  ⟨vecS 0 0 (fun t => t.put 5 17), .fp .fp32, 16, 512, 32, ⟨by decide +kernel, by decide +kernel⟩, by decide +kernel⟩

theorem witness_vsetl_capped : ∃ (s : State), s.idle ∧ cfgVlmax s.me.vcfgst = 512 ∧ 512 < ((s.x 5).toNat + 1 - 1) / 1 * 1 :=
  ⟨vecS 0 0 (fun t => t.put 5 513), ⟨by decide +kernel, by decide +kernel⟩, by decide +kernel⟩

/-! Witnesses: vector arithmetic. -/

theorem witness_ready (s : State) (cls : Nat)
    (h : (s.me.chain = [] ∧ s.me.windows = []) ∧ s.hold = false ∧ cfgOn s.me.vcfgst = true ∧ s.annexBad s.me = none
      ∧ s.badCore = [] ∧ s.soft = [] ∧ s.myCore.capmask.getLsbD cls = true) : vectorReady s cls := h

/-- Eight FP32 elements, none masked. -/
def vecF : State := vecS 0x0A 8 id

/-- Eight elements of I32, the last two of them padding. -/
def vecI : State := vecS 0x02 8 (fun t => { t with vpad := 2 })

theorem witness_fits (s : State) (h : s.me.vl.toNat * cfgWidth s.me.vcfgst ≤ cfgVlen s.me.vcfgst
    ∧ cfgVlen s.me.vcfgst ≤ 16384 ∧ s.me.vpad.toNat ≤ s.me.vl.toNat) : s.me.lengthFits := h

theorem witness_elementwise : ∃ (i : Instr) (s : State) (f : Fmt) (e : Elementwise), Instr.wf i = true ∧ s.fmt = some f
    ∧ elementwise i (flightOf s i 0 0) = some e ∧ (0 : Word) = (match e.scalar with | some r => s.x r | none => 0)
    ∧ vectorReady s (e.cls f) ∧ s.me.lengthFits ∧ s.me.fmtFits f = true ∧ e.fmtOk f = true ∧ e.imm = false :=
  ⟨.vadd { m := true, agn := true, vd := 4, vs2 := 5, s := .vv 6 }, vecF, .fp .fp32, _, rfl, by decide +kernel, rfl, rfl,
    witness_ready _ _ (by decide +kernel), witness_fits _ (by decide +kernel), by decide +kernel, by decide +kernel, rfl⟩

theorem witness_elementwise_imm : ∃ (i : Instr) (s : State) (f : Fmt) (e : Elementwise), Instr.wf i = true ∧ s.fmt = some f
    ∧ elementwise i (flightOf s i 0 0) = some e ∧ vectorReady s (e.cls f) ∧ e.immAny = false ∧ e.imm = true ∧ f.isInt = true :=
  ⟨.vadd { m := false, agn := false, vd := 4, vs2 := 5, s := .vi 31 }, vecI, .int true 32, _, rfl, by decide +kernel, rfl,
    witness_ready _ _ (by decide +kernel), rfl, rfl, by decide +kernel⟩

theorem witness_integers : (8 : Nat) ∈ [8, 16, 32, 64] ∧ (0x80 : Nat) < 2 ^ 8 ∧ intVal true 8 0x80 = -(2 ^ 7) ∧ intVal true 8 0xFF = -1
    ∧ intVal false 8 0 = 0 ∧ intVal true 8 0x7F ≠ 0 := by decide +kernel

/-- R145, R146, R148, R149: hand calculation on 8-bit elements. -/
theorem test_integer_elements : (mulhOp (.int true 8) .rne 0x80 0x7F).1 = 0xC0 ∧ (divOp (.int true 8) .rne 0xF9 2).1 = 0xFD
    ∧ (remOp (.int true 8) .rne 0xF9 2).1 = 0xFF ∧ (saddOp (.int false 8) .rne 0xF0 0x20).1 = 0xFF
    ∧ (sraOp (.int false 8) .rne 0x81 9).1 = 0xC0 := by decide +kernel

/-- Rounding 1/3, 2^200 and 2^-160/3 to FP32: a value between two, an overflow and a tiny value. -/
theorem witness_rounding : (FFmt.fp32.round .rne false { n := 1, d := 3, e := 0 }) = (0x3EAAAAAB, Fl.inexact)
    ∧ (FFmt.fp32.round .rtz true { n := 1, d := 1, e := 200 }) = (0xFF7FFFFF, { Fl.none with of := true, nx := true })
    ∧ (FFmt.fp32.round .rup false { n := 1, d := 3, e := -160 }) = (1, { Fl.none with uf := true, nx := true }) := by decide +kernel

/-- 3 = 2 + 1, 1 = 2 − 1, 2 = 2 · 1 = 2 / 1 and 2 · 1 + 1 = 3 in FP16. -/
theorem witness_arithmetic : FiniteIn .fp16 0x4000 ∧ FiniteIn .fp16 0x3C00 ∧ FiniteIn .fp16 0x8000
    ∧ (FFmt.fp16.decode 0x4000) = .fin false 1024 (-9) ∧ (FFmt.fp16.decode 0x3C00) = .fin false 1024 (-10) := by
  unfold FiniteIn; decide +kernel

theorem witness_arithmetic_sums : magnitude { n := 3, d := 1, e := 0 } = |valueOf (FFmt.fp16.decode 0x4000) + valueOf (FFmt.fp16.decode 0x3C00)|
    ∧ magnitude { n := 1, d := 1, e := 0 } = |valueOf (FFmt.fp16.decode 0x4000) - valueOf (FFmt.fp16.decode 0x3C00)|
    ∧ magnitude { n := 1, d := 1, e := 1 } = |valueOf (FFmt.fp16.decode 0x4000) * valueOf (FFmt.fp16.decode 0x3C00)|
    ∧ magnitude { n := 1, d := 1, e := 1 } = |valueOf (FFmt.fp16.decode 0x4000) / valueOf (FFmt.fp16.decode 0x3C00)|
    ∧ valueOf (FFmt.fp16.decode 0x3C00) + valueOf (FFmt.fp16.decode 0xBC00) = 0 := by
  rw [witness_arithmetic.2.2.2.1, witness_arithmetic.2.2.2.2,
    show FFmt.fp16.decode 0xBC00 = .fin true 1024 (-10) by decide +kernel]
  norm_num [valueOf, magnitude]

theorem witness_vid : ∃ (s : State) (f : Fmt), Instr.wf (.vid { m := true, agn := false, vd := 4, vs2 := 0 }) = true
    ∧ s.fmt = some f ∧ f.isInt = true ∧ vectorReady s f.arithClass ∧ s.me.lengthFits ∧ s.me.fmtFits f = true :=
  ⟨vecI, .int true 32, rfl, by decide +kernel, by decide +kernel, witness_ready _ _ (by decide +kernel),
    witness_fits _ (by decide +kernel), by decide +kernel⟩

theorem witness_reduction : ∃ (i : Instr) (s : State) (o : VaArgs) (op : BinOp) (f : Fmt), reductionOf i = some (o, op)
    ∧ s.fmt = some f ∧ Fmt.numeric f = true ∧ o.s.isImm = false ∧ vectorReady s f.arithClass ∧ s.me.lengthFits
    ∧ s.me.fmtFits f = true ∧ s.me.vl ≠ 0 ∧ vtCanon s.me.vtype = false :=
  ⟨.vredsum { m := false, agn := false, vd := 4, vs2 := 5, s := .vv 6 }, vecF,
    { m := false, agn := false, vd := 4, vs2 := 5, s := .vv 6 }, addOp, .fp .fp32, rfl, by decide +kernel, by decide +kernel, rfl,
    witness_ready _ _ (by decide +kernel), witness_fits _ (by decide +kernel), by decide +kernel, by decide +kernel,
    by decide +kernel⟩

theorem witness_scan : ∃ (s : State) (o : VaArgs) (f : Fmt), Instr.wf (.vscan o) = true ∧ s.fmt = some f
    ∧ Fmt.numeric f = true ∧ vectorReady s f.arithClass ∧ s.me.lengthFits ∧ s.me.fmtFits f = true :=
  ⟨vecI, { m := true, agn := false, vd := 4, vs2 := 5, s := .vx 6 }, .int true 32, rfl, by decide +kernel, by decide +kernel,
    witness_ready _ _ (by decide +kernel), witness_fits _ (by decide +kernel), by decide +kernel⟩

theorem witness_compress : ∃ (s : State) (o : VvArgs) (f : Fmt), Instr.wf (.vcompress o) = true ∧ s.fmt = some f
    ∧ vectorReady s 2 ∧ s.me.lengthFits ∧ s.me.fmtFits f = true :=
  ⟨vecI, { m := false, agn := false, vd := 4, vs2 := 5, vs1 := 6 }, .int true 32, rfl, by decide +kernel,
    witness_ready _ _ (by decide +kernel), witness_fits _ (by decide +kernel), by decide +kernel⟩

theorem witness_mask_counts : ∃ (s : State) (f : Fmt), s.fmt = some f ∧ vectorReady s 2 ∧ s.me.fmtFits f = true ∧ s.me.vl ≠ 0 :=
  ⟨vecI, .int true 32, by decide +kernel, witness_ready _ _ (by decide +kernel), by decide +kernel, by decide +kernel⟩

theorem witness_mask_counts_empty : ∃ (s : State) (f : Fmt), s.fmt = some f ∧ vectorReady s 2 ∧ s.me.fmtFits f = true ∧ s.me.vl = 0 :=
  ⟨vecS 0x02 0 id, .int true 32, by decide +kernel, witness_ready _ _ (by decide +kernel), by decide +kernel, by decide +kernel⟩

theorem witness_convert : ∃ (s : State) (o : VcArgs) (f g : Fmt), Instr.wf (.vcvt o) = true ∧ s.fmt = some f
    ∧ Fmt.ofCode o.t.toNat = some g ∧ vectorReady s f.cvtClass ∧ s.me.lengthFits ∧ s.me.fmtFits f = true
    ∧ s.cvtOk o f = true :=
  ⟨vecF, { m := false, agn := false, vd := 4, vs2 := 5, t := 0x02 }, .fp .fp32, .int true 32, rfl, by decide +kernel,
    by decide +kernel, witness_ready _ _ (by decide +kernel), witness_fits _ (by decide +kernel), by decide +kernel,
    by decide +kernel⟩

/-- Eight elements of a block-scaled format, in blocks of 8. -/
def vecB : State := vecS (0x10 + 0x40) 8 id

theorem witness_blocks : ∃ (s : State) (el sc : Nat), s.fmt = some (.blk el sc) ∧ s.me.lengthFits
    ∧ s.me.fmtFits (.blk el sc) = true ∧ s.me.vl ≠ 0 ∧ vectorReady s (39 + el) ∧ 32 ≤ cfgWidth s.me.vcfgst
    ∧ vectorReady s (27 + 3 * el + sc) ∧ Instr.wf (.vbexp { m := false, agn := false, vd := 4, vs2 := 2 }) = true
    ∧ Instr.wf (.vbpack { m := false, agn := false, vd := 4, vs2 := 2 }) = true :=
  ⟨vecB, 0, 0, by decide +kernel, witness_fits _ (by decide +kernel), by decide +kernel, by decide +kernel,
    witness_ready _ _ (by decide +kernel), by decide +kernel, witness_ready _ _ (by decide +kernel), rfl, rfl⟩

theorem witness_blocks_empty : ∃ (s : State) (el sc : Nat), s.me.vl = 0 ∧ blockReady s el sc (39 + el)
    ∧ blockReady s el sc (27 + 3 * el + sc) ∧ 32 ≤ cfgWidth s.me.vcfgst :=
  ⟨vecS (0x10 + 0x40) 0 id, 0, 0, by decide +kernel,
    ⟨witness_ready _ _ (by decide +kernel), by decide +kernel, witness_fits _ (by decide +kernel), by decide +kernel⟩,
    ⟨witness_ready _ _ (by decide +kernel), by decide +kernel, witness_fits _ (by decide +kernel), by decide +kernel⟩,
    by decide +kernel⟩

theorem witness_vbdot : ∃ (s : State) (el sc : Nat), Instr.wf (.vbdot { m := false, agn := false, vd := 4, vs2 := 6, vs1 := 8 }) = true
    ∧ blockReady s el sc (27 + 3 * el + sc) ∧ s.me.vl ≠ 0 :=
  ⟨vecB, 0, 0, by decide +kernel, ⟨witness_ready _ _ (by decide +kernel), by decide +kernel, witness_fits _ (by decide +kernel),
    by decide +kernel⟩, by decide +kernel⟩

theorem witness_vsetl_traps : cfgOn State.reset.me.vcfgst = false
    ∧ cfgWidth (vecS 0x0A 0 id).me.vcfgst < 64 ∧ Fmt.ofCode 0x0A = some (.fp .fp32)
    ∧ (let st := (grantOf 1 8 0).status 1 3 0 3
       cfgOn st = true ∧ 32 ≤ cfgWidth st ∧ cfgVlmax st / 64 * 64 = 0)
    ∧ fmtDefined 0x0F = false := by decide +kernel

/-! Witnesses: vector memory. -/

theorem witness_flight_ready (s : State) (cls : Nat)
    (h : ((s.me.chain = [] ∧ s.me.windows = []) ∧ s.hold = false ∧ cfgOn s.me.vcfgst = true ∧ s.annexBad s.me = none
      ∧ s.badCore = [] ∧ s.soft = [] ∧ s.myCore.capmask.getLsbD cls = true) ∧ cfgAnx s.me.vcfgst = false) : flightReady s cls := h

theorem witness_quiet (s : State) (h : (s.me.chain = [] ∧ s.me.windows = []) ∧ ((s.img s.cur.core).mq = [] ∧ s.me.rayReading = none)
      ∧ s.myCore.img.stores = []) : s.quiet := h

theorem witness_settled (s : State) (h : (s.me.chain = [] ∧ s.me.windows = []) ∧ (s.img s.cur.core).mq = []
      ∧ s.myCore.img.stores = []) : s.settled := h

/-- vld v4, 0(x5). -/
def vldOp : VmArgs := { l := 2, ovt := false, ord := false, m := false, b := 0, a := 5, d := 4 }

/-- Where vldOp runs. -/
def vldS : State := vecS 0x0A 4 (fun t => t.put 5 0x100)

/-- vldOp as it flies. -/
def vldFly : Flying := { xa := vldS.x 5, xb := 0, l := 2, move := goVld vldOp, also := id }

theorem witness_vector_load : ∃ s1 : State, vmOf (.vld vldOp) vldS = some (vldFly, VmMode.fmtOk .unit, 0) ∧ flightReady vldS 0
    ∧ vldS.fmt = some (.fp .fp32) ∧ vldS.me.fmtFits (.fp .fp32) = true ∧ VmMode.fmtOk .unit (.fp .fp32) = true
    ∧ runsTo vldFly.move 280 (flightOf vldS (.vld vldOp) vldFly.xa vldFly.xb) (launched vldS (.vld vldOp) vldFly) = some s1 :=
  ⟨_, rfl, witness_flight_ready _ _ (by decide +kernel), by decide +kernel, by decide +kernel, by decide +kernel,
    some_of_isSome _ State.reset (by decide +kernel)⟩

theorem witness_vector_store : ∃ s1 k fm cls, vmOf (.vst vldOp) vldS = some (k, fm, cls)
    ∧ runsTo k.move 280 (flightOf vldS (.vst vldOp) k.xa k.xb) (launched vldS (.vst vldOp) k) = some s1 :=
  ⟨_, { xa := vldS.x 5, xb := 0, l := 2, move := goVst vldOp, also := id }, VmMode.fmtOk .unit, 0, by unfold vmOf; exact if_pos (by decide +kernel), some_of_isSome _ State.reset (by decide +kernel)⟩

theorem witness_vector_atomic : ∃ s1 k fm cls,
    vmOf (.vamoadd { l := 0, m := false, b := 6, a := 5, d := 4 }) (vecS 0x02 1 (fun t => t.put 5 0x100)) = some (k, fm, cls)
    ∧ runsTo k.move 280 (flightOf (vecS 0x02 1 (fun t => t.put 5 0x100)) (.vamoadd { l := 0, m := false, b := 6, a := 5, d := 4 }) k.xa k.xb)
        (launched (vecS 0x02 1 (fun t => t.put 5 0x100)) (.vamoadd { l := 0, m := false, b := 6, a := 5, d := 4 }) k) = some s1 :=
  ⟨_, _, _, _, rfl, some_of_isSome _ State.reset (by decide +kernel)⟩

theorem witness_vector_load_elements : ∃ (s : State) (o : VmArgs) (f : Fmt), VmMode.unit ≠ .indexed ∧ s.fmt = some f
    ∧ VmMode.fmtOk .unit f = true ∧ flightReady s 0 ∧ s.me.lengthFits ∧ s.me.fmtFits f = true ∧ (o.m = true → o.d ≠ 0)
    ∧ s.myCore.serving = none ∧ s.me.dataPriv.mode = .m ∧ s.myCore.img.stores = [] ∧ s.unshadowed
    ∧ (∀ i, i < s.me.vl.toNat - s.me.vpad.toNat → (!o.m || (s.me.v.get 0).getLsbD i) = true →
      plainAt s (addressOf s.me (s.x o.a) .unit o.b f.sew i).toNat (max 1 (f.sew / 8))) :=
  ⟨vldS, vldOp, .fp .fp32, by decide, by decide +kernel, by decide +kernel, witness_flight_ready _ _ (by decide +kernel),
    witness_fits _ (by decide +kernel), by decide +kernel, by decide, by decide +kernel, by decide +kernel, by decide +kernel,
    unshadowed_of _ (by decide +kernel), fun i hi _ => by
      have h : i < 4 := hi
      have e : i = 0 ∨ i = 1 ∨ i = 2 ∨ i = 3 := by omega
      rcases e with rfl | rfl | rfl | rfl <;> (unfold plainAt; decide +kernel)⟩

/-- vst.st v4, 0(x5), x6 with a progress word at x6. -/
def notifyOp : VmArgs := { l := 0, ovt := false, ord := false, m := false, b := 6, a := 5, d := 4 }

theorem witness_progress_misaligned : ∃ (s : State) (f : Fmt), flightReady s 0 ∧ s.fmt = some f ∧ s.me.fmtFits f = true
    ∧ VmMode.fmtOk .strided f = true ∧ (s.x 6).toNat % 8 ≠ 0 :=
  ⟨vecS 0x0A 4 (fun t => (t.put 5 0x100).put 6 4), .fp .fp32, witness_flight_ready _ _ (by decide +kernel), by decide +kernel,
    by decide +kernel, by decide +kernel, by decide +kernel⟩

theorem witness_progress_page : ∃ (s s1 : State) (f : Fmt) (tr : Trap), flightReady s 0 ∧ s.fmt = some f
    ∧ (s.x 6).toNat % 8 = 0 ∧ s.me.vl ≠ 0 ∧ s.dataPlace .store (s.x 6) 8 = .trap tr s1 :=
  ⟨servedVec ctx0 0x0A 4 (fun t => (t.put 5 0x100).put 6 8), _, .fp .fp32, _, witness_flight_ready _ _ (by decide +kernel),
    by decide +kernel, by decide +kernel, by decide +kernel, (trap_of_isTrap _ (by decide +kernel)).choose_spec⟩

/-- Where a vst with a progress word runs. -/
def notifyS : State := vecS 0x0A 4 (fun t => (t.put 5 0x100).put 6 0x200)

/-- What the address of the progress word comes to, with the translations held. -/
def notifyPl : Acc (Place × List TlbEntry) := notifyS.elemPlace [] .store (notifyS.x 6) 8

theorem witness_notify : ∃ (s1 s2 : State), flightReady notifyS 0 ∧ notifyS.fmt = some (.fp .fp32)
    ∧ (notifyS.x 6).toNat % 8 = 0 ∧ notifyS.me.vl ≠ 0
    ∧ notifyS.elemPlace [] .store (notifyS.x 6) 8 = .ok (.mem 0x200 false false, []) s1
    ∧ s1.me = notifyS.me ∧ s1.cur = notifyS.cur ∧ s1.hold = false ∧ notifyS.submitsTo notifyOp = none
    ∧ runsTo (goVst notifyOp) 280 { flightOf s1 (.vst notifyOp) (notifyS.x 5) (notifyS.x 6) with pages := [] }
        ((launched s1 (.vst notifyOp) { xa := notifyS.x 5, xb := notifyS.x 6, l := 0, move := goVst notifyOp, also := id }).onMe
          (fun t => t.holdPages [])) = some s2 :=
  ⟨notifyPl.state, _, witness_flight_ready _ _ (by decide +kernel), by decide +kernel,
    by decide +kernel, by decide +kernel, ok_is _ _ (by decide +kernel), by decide +kernel, by decide +kernel,
    by decide +kernel, by decide +kernel, some_of_isSome _ State.reset (by decide +kernel)⟩

/-- A vst of 64 bytes at the first raster port of a context with a pass. -/
def submitS : State := servedVec ctxP 0x0A 16 (fun t => t.put 5 (BitVec.ofNat 64 rasterBase))

theorem witness_submission : ∃ c p, flightReady submitS 0 ∧ submitS.quiet ∧ submitS.fmt = some (.fp .fp32)
    ∧ submitS.me.fmtFits (.fp .fp32) = true ∧ submitS.unshadowed ∧ submitS.tagOf submitS.cur.core = some 1
    ∧ submitS.submitsTo { vldOp with l := 0 } = some 0
    ∧ (submitS.drain (dieOf submitS.cur.core) submitS.myCore.ptick).ctx 1 = some c ∧ Tab.get? c.passes 0 = some p
    ∧ c.submitWaits p (dieOf submitS.cur.core) (at_ (submitS.primBytes { vldOp with l := 0 }) 48 4) = false :=
  ⟨_, pass0, witness_flight_ready _ _ (by decide +kernel),
    ⟨⟨by decide +kernel, by decide +kernel⟩, ⟨by decide +kernel, by decide +kernel⟩, by decide +kernel⟩,
    by decide +kernel, by decide +kernel, unshadowed_of _ (by decide +kernel), by decide +kernel, by decide +kernel,
    some_of_isSome _ ctx0 (by decide +kernel), by decide +kernel, by decide +kernel⟩

theorem untranslated_of (s : State) (va : Word) (h : s.tagOf s.cur.core = none ∧ s.me.dataPriv.mode = .m) : untranslated s va :=
  .inl ⟨h.1, .inl h.2⟩

/-- The accesses of notifyOp: four elements of 32 bits and its progress word, as a vst and as a vst.st. -/
theorem witness_vst_elements : ∃ u, flightReady notifyS 0 ∧ notifyS.fmt = some (.fp .fp32) ∧ 8 ≤ (Fmt.fp .fp32).sew
    ∧ VmMode.fmtOk .unit (.fp .fp32) = true ∧ VmMode.fmtOk .strided (.fp .fp32) = true
    ∧ notifyS.me.lengthFits ∧ notifyS.me.fmtFits (.fp .fp32) = true ∧ notifyS.unshadowed ∧ notifyOp.b ≠ 0
    ∧ notifyS.performed ∧ (notifyS.x 6).toNat % 8 = 0 ∧ (∀ va, untranslated notifyS va) ∧ notifyS.submitsTo notifyOp = none
    ∧ reaching notifyS false = [0, 1, 2, 3]
    ∧ allOf (storeAct notifyS.me notifyOp .unit (.fp .fp32)) (storeActs notifyS false true (.fp .fp32))
        (launched notifyS (.vst notifyOp)
          { xa := notifyS.x 5, xb := notifyS.x 6, l := 0, move := goVst notifyOp, also := id }) = some u :=
  ⟨_, witness_flight_ready _ _ (by decide +kernel), by decide +kernel, by decide, by decide +kernel, by decide +kernel,
    witness_fits _ (by decide +kernel), by decide +kernel, unshadowed_of _ (by decide +kernel), by decide, ⟨by decide +kernel, by decide +kernel⟩,
    by decide +kernel, fun va => untranslated_of _ va (by decide +kernel), by decide +kernel, by decide +kernel,
    some_of_isSome _ State.reset (by decide +kernel)⟩

theorem witness_vst_strided : (allOf (storeAct notifyS.me notifyOp .strided (.fp .fp32)) (storeActs notifyS false true (.fp .fp32))
    (launched notifyS (.vstSt notifyOp)
      { xa := notifyS.x 5, xb := notifyS.x 6, l := 0, move := goVst notifyOp, also := id })).isSome = true := by decide +kernel

theorem witness_vst_indexed : VmMode.fmtOk .indexed (.fp .fp32) = true
    ∧ (allOf (storeAct notifyS.me notifyOp .indexed (.fp .fp32)) (storeActs notifyS false false (.fp .fp32))
    (launched notifyS (.vstIx notifyOp)
      { xa := notifyS.x 5, xb := 0, l := 0, move := goVst notifyOp, also := id })).isSome = true := by decide +kernel

/-- The progress word follows the group of eight, and the second group of two. -/
theorem witness_progress_acts : (storeActs (vecS 0x0A 10 id) false true (.fp .fp32)).length = 12 ∧ (vecS 0x0A 10 id).me.vl ≠ 0 := by
  decide +kernel

theorem witness_nibble : ∃ t, State.reset.coherent ∧ State.reset.myCore.img.stores = [] ∧ State.reset.unshadowed
    ∧ State.reset.writeNibble (.scratch 0 3) (BitVec.ofNat 64 (localWindow + 3)) true 5 = .ok () t :=
  ⟨_, reset_coherent, by decide +kernel, unshadowed_of _ rfl, ok_is _ _ (by decide +kernel)⟩

theorem witness_nibble_memory : ∃ t, State.reset.writeNibble (.mem 0x100 false false) 0x100 false 5 = .ok () t :=
  ⟨_, ok_is _ _ (by decide +kernel)⟩

/-- vamoadd v4, (x5), v6. -/
def vamoOp : VamoArgs := { l := 0, m := false, b := 6, a := 5, d := 4 }

/-- Where it runs, on three elements of I32 of which the last is padding. -/
def vamoS : State := vecS 0x02 3 (fun t => { t.put 5 0x100 with vpad := 1 })

theorem witness_vector_atomic_elements : ∃ u, Instr.wf (.vamoadd vamoOp) = true ∧ vamoOf (.vamoadd vamoOp) = some (vamoOp, addOp)
    ∧ flightReady vamoS 1 ∧ vamoS.fmt = some (.int true 32) ∧ Fmt.atomicOk (.int true 32) = true ∧ vamoS.me.lengthFits
    ∧ vamoS.me.fmtFits (.int true 32) = true ∧ (∀ va, untranslated vamoS va)
    ∧ allOf (atomicAct vamoS.me vamoOp addOp (.int true 32) (flightOf vamoS (.vamoadd vamoOp) 0 0).rm) (List.range 3)
        (launched vamoS (.vamoadd vamoOp) { xa := vamoS.x 5, xb := 0, l := 0, move := fun _ s => .over s, also := id }) = some u :=
  ⟨_, rfl, rfl, witness_flight_ready _ _ (by decide +kernel), by decide +kernel, by decide +kernel,
    witness_fits _ (by decide +kernel), by decide +kernel, fun va => untranslated_of _ va (by decide +kernel),
    some_of_isSome _ State.reset (by decide +kernel)⟩

/-! Witnesses: distributions. -/

theorem witness_distribution : ∃ s act, distOf (.dadd 0 0 1 2) s = some act ∧ flightReady s 60 ∧ s.me.vl.toNat ≤ 512
    ∧ vtFmt s.me.vtype = 0x0A ∧ s.me.fmtFits (.fp .fp32) = true ∧ act.2.1.all (fun d => decide (d.val < cfgNd s.me.vcfgst)) = true :=
  ⟨distS 4 id, _, rfl, witness_flight_ready _ _ (by decide +kernel), by decide +kernel⟩

theorem witness_dtag : ∃ s : State, flightReady s 60 ∧ vtFmt s.me.vtype = 0x0A ∧ s.me.fmtFits (.fp .fp32) = true
    ∧ (2 : DReg8).val < cfgNd s.me.vcfgst ∧ s.me.vl = 0 :=
  ⟨distS 0 id, witness_flight_ready _ _ (by decide +kernel), by decide +kernel⟩

theorem witness_dld_misaligned : ∃ s : State, flightReady s 60 ∧ vtFmt s.me.vtype = 0x0A ∧ (2 : DReg8).val < cfgNd s.me.vcfgst
    ∧ s.me.vl ≠ 0 ∧ (s.x 5).toNat % 16 ≠ 0 :=
  ⟨distS 1 (fun t => t.put 5 8), witness_flight_ready _ _ (by decide +kernel), by decide +kernel⟩

/-- Where a dst and a dld run. -/
def dldS : State := distS 1 (fun t => t.put 5 0x100)

theorem witness_dld : ∃ s1, (dldS.x 5).toNat % 16 = 0 ∧ runsTo (goDld 1) 514 (flightOf dldS (.dld 0 1 5) (dldS.x 5) 0)
    (launched dldS (.dld 0 1 5) { xa := dldS.x 5, xb := 0, l := 0, move := goDld 1, also := fun t => t.setTags 1 0 }) = some s1 :=
  ⟨_, by decide +kernel, some_of_isSome _ State.reset (by decide +kernel)⟩

theorem witness_dst : ∃ s1, runsTo (goDst 1) 514 (flightOf dldS (.dst 0 1 5) (dldS.x 5) 0)
    (launched dldS (.dst 0 1 5) { xa := dldS.x 5, xb := 0, l := 0, move := goDst 1, also := id }) = some s1 :=
  ⟨_, some_of_isSome _ State.reset (by decide +kernel)⟩

theorem witness_dld_elements : ∃ u, dldS.unshadowed ∧ (∀ va, untranslated dldS va)
    ∧ allOf (dldAct dldS.me 1 (dldS.x 5)) (List.range dldS.me.vl.toNat)
        (launched dldS (.dld 0 1 5) { xa := dldS.x 5, xb := 0, l := 0, move := goDld 1, also := fun t => t.setTags 1 0 }) = some u :=
  ⟨_, unshadowed_of _ (by decide +kernel), fun va => untranslated_of _ va (by decide +kernel), some_of_isSome _ State.reset (by decide +kernel)⟩

theorem witness_dst_elements : ∃ u, allOf (dstAct dldS.me 1 (dldS.x 5)) (List.range (dldS.me.vl.toNat - dldS.me.vpad.toNat))
    (launched dldS (.dst 0 1 5) { xa := dldS.x 5, xb := 0, l := 0, move := goDst 1, also := id }) = some u :=
  ⟨_, some_of_isSome _ State.reset (by decide +kernel)⟩

/-- An element of eight slots. -/
theorem witness_element : (List.replicate 8 ({ v := 0, w := 8192 } : Point)).length = 8
    ∧ (List.replicate 48 (0 : Byte)).length = 48 := by decide

/-! Witnesses: graphics. -/

theorem witness_records : ∃ s l cls per act, recordOfGfx (.xbox 1 4 5 6) s = some (l, cls, true, per, act) ∧ flightReady s cls
    ∧ s.me.vl.toNat ≤ 512 ∧ s.me.vl ≠ 0 :=
  ⟨vecS 0x0A 8 id, 1, 61, 8, _, rfl, witness_flight_ready _ _ (by decide +kernel), by decide +kernel⟩

theorem witness_xedge : ∃ s : State, flightReady s 63 ∧ s.gfxOk fmtI32 512 anyVl = true :=
  ⟨vecS 0x02 16 id, witness_flight_ready _ _ (by decide +kernel), by decide +kernel⟩

theorem witness_vdedup : ∃ s : State, flightReady s 63 ∧ s.me.lengthFits
    ∧ s.gfxOk fmtN32 256 (fun vl => decide (1 ≤ vl) && decide (vl ≤ 32)) = true :=
  ⟨vecS 0x06 32 id, witness_flight_ready _ _ (by decide +kernel), witness_fits _ (by decide +kernel), by decide +kernel⟩

/-- Where a tfetch of one record runs. -/
def texS : State := withBytes (vecS 0x0A 8 (fun t => t.put 5 0x1000)) 0x1000 texDesc

theorem witness_tfetch : ∃ s1 s2 : State, texS.readRecord (texS.x 5) 64 64 = .ok texDesc s1 ∧ texDesc ≠ []
    ∧ texError s1 texDesc = none ∧ s1.idle ∧ s1.hold = false ∧ flightReady texS 62 ∧ texS.gfxOk fmtFP32 256 (vlTimes 8) = true
    ∧ runsTo (goTfetch 4 6) 140 { flightOf s1 (.tfetch 0 4 6 5) 0 (texS.x 5) with desc := texDesc }
        (s1.onMe (fun t => (t.launch (.tfetch 0 4 6 5) 0 true 0 (texS.x 5)).describe texDesc)) = some s2 :=
  ⟨(texS.readRecord 0x1000 64 64).state, _, ok_is _ _ (by decide +kernel), by decide, by decide +kernel,
    ⟨by decide +kernel, by decide +kernel⟩, by decide +kernel, witness_flight_ready _ _ (by decide +kernel), by decide +kernel,
    some_of_isSome _ State.reset (by decide +kernel)⟩

theorem witness_tfetch_error : texError State.reset (texDesc.set 14 0) = some 14 := by decide +kernel

/-- Where a gfeat of one record runs. -/
def gridS : State :=
  withBytes (servedVec ctx1 0x0A 4 (fun t => (t.put 5 0x1000).put 7 (BitVec.ofNat 64 localWindow))) 0x1000 gridDesc

theorem witness_gfeat : ∃ s1 s2 : State, gridS.readRecord (gridS.x 5) 64 64 = .ok gridDesc s1 ∧ gridError s1 gridDesc = none
    ∧ s1.idle ∧ s1.hold = false ∧ flightReady gridS 62
    ∧ gridS.gfxOk fmtFP32 256 (fun vl => vlTimes 4 vl && decide (vl ≤ 32)) = true
    ∧ (gridS.x 7).toNat % 64 = 0 ∧ s1.ownPanel (gridS.x 7) (at_ gridDesc 12 2 + 128) = true
    ∧ runsTo (goGfeat 6) 140 { flightOf s1 (.gfeat 0 7 6 5) (gridS.x 7) (gridS.x 5) with desc := gridDesc }
        (s1.onMe (fun t => (t.launch (.gfeat 0 7 6 5) 0 true (gridS.x 7) (gridS.x 5)).describe gridDesc)) = some s2 :=
  ⟨(gridS.readRecord 0x1000 64 64).state, _, ok_is _ _ (by decide +kernel), by decide +kernel,
    ⟨by decide +kernel, by decide +kernel⟩, by decide +kernel, witness_flight_ready _ _ (by decide +kernel), by decide +kernel,
    by decide +kernel, by decide +kernel, some_of_isSome _ State.reset (by decide +kernel)⟩

/-- Where a zcommit runs. -/
def commitS : State := withBytes (servedVec ctxP 0x0A 4 (fun t => t.put 5 0x1000)) 0x1000 commitRec

theorem witness_zcommit : ∃ s1 s2 : State, commitS.readRecord (commitS.x 5) 32 32 = .ok commitRec s1
    ∧ commitError s1 commitRec = none ∧ s1.idle ∧ s1.hold = false ∧ flightReady commitS 63
    ∧ commitS.gfxOk fmtFP32 1024 anyVl = true
    ∧ runsTo (goZcommit 6) 140 { flightOf s1 (.zcommit 0 6 5) 0 (commitS.x 5) with desc := commitRec }
        (s1.onMe (fun t => (t.launch (.zcommit 0 6 5) 0 true 0 (commitS.x 5)).describe commitRec)) = some s2 :=
  ⟨(commitS.readRecord 0x1000 32 32).state, _, ok_is _ _ (by decide +kernel), by decide +kernel,
    ⟨by decide +kernel, by decide +kernel⟩, by decide +kernel, witness_flight_ready _ _ (by decide +kernel), by decide +kernel,
    some_of_isSome _ State.reset (by decide +kernel)⟩

theorem witness_zcommit_error : commitError (served ctx1 id) commitRec = some 8 := by decide +kernel

theorem witness_tfetch_records : ∃ s1 u : State, texS.readRecord (texS.x 5) 64 64 = .ok texDesc s1
    ∧ (s1.die (dieOf s1.cur.core)).parked = [] ∧ s1.unshadowed
    ∧ allOf (fetchAct s1.me 4 6 texDesc) [0]
        (describedAt s1 (.tfetch 0 4 6 5) { xa := 0, xb := texS.x 5, l := 0, move := goTfetch 4 6, also := id } texDesc) = some u :=
  ⟨(texS.readRecord 0x1000 64 64).state, _, ok_is _ _ (by decide +kernel), by decide +kernel, unshadowed_of _ (by decide +kernel),
    some_of_isSome _ State.reset (by decide +kernel)⟩

theorem witness_gfeat_records : ∃ s1 u : State, gridS.readRecord (gridS.x 5) 64 64 = .ok gridDesc s1
    ∧ (s1.die (dieOf s1.cur.core)).parked = [] ∧ s1.unshadowed ∧ s1.slotFault (gridS.x 7) gridDesc = none
    ∧ allOf (featAct s1.me (gridS.x 7) 6 gridDesc) [0]
        (describedAt s1 (.gfeat 0 7 6 5) { xa := gridS.x 7, xb := gridS.x 5, l := 0, move := goGfeat 6, also := id } gridDesc) = some u :=
  ⟨(gridS.readRecord 0x1000 64 64).state, _, ok_is _ _ (by decide +kernel), by decide +kernel, unshadowed_of _ (by decide +kernel), by decide +kernel,
    some_of_isSome _ State.reset (by decide +kernel)⟩

/-- What an offer of a commit comes to: accepted, or not. -/
def offerTaken (o : Offer) : Bool :=
  match o with
  | .accepted _ => true
  | _ => false

theorem witness_zcommit_record : ∃ s1 : State, commitS.readRecord (commitS.x 5) 32 32 = .ok commitRec s1 ∧ s1.quiet
    ∧ (s1.die (dieOf s1.cur.core)).parked = [] ∧ s1.unshadowed
    ∧ s1.commitUnitOf s1.myTag commitRec = some (pass0, { lcore := 0, region := 0, inbox := [], pos := 0, live := [], blended := [], retired := [], store := [], voids := [] })
    ∧ offerTaken ((describedAt s1 (.zcommit 0 6 5) { xa := 0, xb := commitS.x 5, l := 0, move := goZcommit 6, also := id } commitRec).offer
        s1.myTag (at_ commitRec 8 4) 0 (commitMade s1 pass0 commitRec 6)) = true :=
  ⟨(commitS.readRecord 0x1000 32 32).state, ok_is _ _ (by decide +kernel), witness_quiet _ (by decide +kernel), by decide +kernel,
    unshadowed_of _ (by decide +kernel), by decide +kernel, by decide +kernel⟩

/-- A texel of texDesc's texture. -/
theorem witness_texel : ∃ s1 bs, (texOf texDesc).format = 1 ∧ 0 < (texOf texDesc).w ∧ 0 < (texOf texDesc).h
    ∧ texS.anyRead 0x2000 4 = .ok bs s1 ∧ bs.length = 4 :=
  ⟨_, [0, 0, 0, 0], by decide +kernel, by decide +kernel, by decide +kernel, ok_is _ _ (by decide +kernel), rfl⟩

/-! Witnesses: the matrix unit. -/

theorem witness_matrix_ready (s : State) (cls : Option Nat)
    (h : s.quiet ∧ s.hold = false ∧ cfgAnx s.me.vcfgst = false ∧ (∀ c, cls = some c → s.myCore.capmask.getLsbD c = true)
      ∧ s.badCore = [] ∧ s.soft = [] ∧ (∀ e, e ∈ s.myCore.img.harts → e.2.chain = []) ∧ s.myCore.img.rings = []) : matrixReady s cls := h

/-- A serving core whose matrix unit is configured for BF16 products on four tiles. -/
def matS (f : Hart → Hart) : State :=
  served ctx1 (fun k => { k with img := { k.img with
    harts := [(0, f (((Hart.init .s).put 5 (BitVec.ofNat 64 localWindow)).put 6 0x40))]
    mcfg := { nt := 4, iacc := false, afmt := 9, bfmt := 9, ablk := 0, bblk := 0, soff := 512 } } })

theorem witness_matrix : matrixReady (matS id) (matS id).myCore.img.mcfg.cls ∧ (3 : TileNo).val < (matS id).myCore.img.mcfg.nt :=
  ⟨witness_matrix_ready _ _ ⟨⟨⟨by decide +kernel, by decide +kernel⟩, ⟨by decide +kernel, by decide +kernel⟩, by decide +kernel⟩, by decide +kernel,
    by decide +kernel, fun c h => by
      have e : (matS id).myCore.img.mcfg.cls = some 43 := by decide +kernel
      rw [e] at h; cases h; decide +kernel,
    by decide +kernel, by decide +kernel, by decide +kernel, by decide +kernel⟩, by decide +kernel⟩

theorem witness_mcfg : ∃ s : State, s.myCore.img.inUse = 0 ∧ field (s.x 7) 16 48 = 0 ∧ field (s.x 7) 0 3 ≤ 4
    ∧ matPair ((s.x 7).getLsbD 3) (field (s.x 7) 4 6) (field (s.x 7) 10 6) = true
    ∧ matrixReady s (matClass ((s.x 7).getLsbD 3) (field (s.x 7) 4 6) (field (s.x 7) 10 6)) :=
  ⟨matS (fun t => t.put 7 9364), by decide +kernel, by decide +kernel, by decide +kernel, by decide +kernel,
    witness_matrix_ready _ _ ⟨⟨⟨by decide +kernel, by decide +kernel⟩, ⟨by decide +kernel, by decide +kernel⟩, by decide +kernel⟩, by decide +kernel,
    by decide +kernel, fun c h => by
      have e : matClass (((matS (fun t => t.put 7 9364)).x 7).getLsbD 3) (field ((matS (fun t => t.put 7 9364)).x 7) 4 6)
        (field ((matS (fun t => t.put 7 9364)).x 7) 10 6) = some 43 := by decide +kernel
      rw [e] at h; cases h; decide +kernel,
    by decide +kernel, by decide +kernel, by decide +kernel, by decide +kernel⟩⟩

theorem witness_mwexp : ∃ s : State, field (s.x 7) 0 3 ≤ 4 ∧ field (s.x 7) 3 3 ≤ 4 ∧ field (s.x 7) 6 58 = 0
    ∧ (s.x 8).toNat % 64 = 0 ∧ 512 ≤ (s.x 8).toNat ∧ (s.x 8).toNat ≤ 24064 :=
  ⟨matS (fun t => (t.put 7 0x24).put 8 24064), by decide +kernel⟩

theorem witness_mopa : ∃ pa pb : Nat × Nat, (matS id).myCore.img.mcfg.noBlock = false ∧ ((matS id).x 5).toNat % 64 = 0
    ∧ (matS id).scratchAt 16 ((matS id).x 5) ((matS id).myCore.img.mcfg.extent (matFmt (matS id).myCore.img.mcfg.afmt)) = some pa
    ∧ (matS id).scratchAt 16 ((matS id).x 5) ((matS id).myCore.img.mcfg.extent (matFmt (matS id).myCore.img.mcfg.bfmt)) = some pb :=
  ⟨(16, 0), (16, 0), by decide +kernel⟩

theorem witness_tile_rows : ((matS id).x 5).toNat % 4 = 0 ∧ ((matS id).x 6).toNat % 4 = 0 ∧ (∀ i, i < 8 →
    (matS id).scratchAt 16 ((matS id).x 5 + BitVec.ofNat 64 i * (matS id).x 6) 32 = some (16, 64 * i)) := by decide +kernel

/-! Witnesses: rays. -/

theorem witness_ray_ready (s : State) (v : Bool) (h : ((s.me.chain = [] ∧ s.me.windows = []) ∧ (s.img s.cur.core).mq = []
      ∧ s.myCore.img.stores = []) ∧ cfgAnx s.me.vcfgst = false ∧ s.myCore.capmask.getLsbD 61 = true ∧ s.badCore = [] ∧ s.soft = []
      ∧ (v = true → cfgOn s.me.vcfgst = true ∧ 256 ≤ cfgVlen s.me.vcfgst ∧ s.vtypeFits = true)) : rayReady s v := h

/-- A ray in a phase, with a status and a number of outstanding tasks. -/
def ray0 (phase : RayPhase) (status tasks : Nat) : Ray where
  uid := 1
  ray := List.replicate 8 0
  shtab := 0
  payload := 0
  flags := 0
  mask := 0xFF
  depth := 1
  key := 0
  prio := 0
  launch := 0
  paybytes := 0
  work := []
  inst := none
  tmax := 0x7F800000
  best := none
  cand := none
  token := 9
  stopAll := false
  phase := phase
  tasks := tasks
  status := status
  returned := false
  order := 0

/-- Where ray instructions run: slot 3 holds a ray; a trace record of depth 1 stands at 0x1000. -/
def rayS (r : Tab Ray) : State :=
  withBytes (servedVec ctx1 0x0A 8 (fun t => { ((t.put 5 0x1000).put 6 3).put 7 9 with rays := r })) 0x1000
    (List.replicate 29 0 ++ [1] ++ List.replicate 34 0)

theorem witness_trace : ∃ s1 bs, rayReady (rayS []) true ∧ (rayS []).readRecord ((rayS []).x 5) 64 64 = .ok bs s1
    ∧ traceError bs = none ∧ s1.quiet ∧ s1.cur = (rayS []).cur ∧ s1.me.freeSlot = some 0 :=
  ⟨((rayS []).readRecord 0x1000 64 64).state, List.replicate 29 0 ++ [1] ++ List.replicate 34 0, witness_ray_ready _ _ (by decide +kernel),
    ok_is _ _ (by decide +kernel), by decide +kernel, witness_quiet _ (by decide +kernel), by decide +kernel, by decide +kernel⟩

theorem witness_trace_full : (rayS ((List.range 8).map (fun k => (k, ray0 .running 0 0)))).me.freeSlot = none := by decide +kernel

theorem witness_rwait : ∃ s r, rayReady s false ∧ s.me.nextCompletion = some (3, r) :=
  ⟨rayS [(3, ray0 .complete 0 0)], ray0 .complete 0 0, witness_ray_ready _ _ (by decide +kernel), by decide +kernel⟩

theorem witness_rwait_none : (rayS []).me.nextCompletion = none ∧ (rayS []).me.rayOutstanding = false := by decide +kernel

theorem witness_rwait_waits : (rayS [(3, ray0 .running 0 0)]).me.nextCompletion = none
    ∧ (rayS [(3, ray0 .running 0 0)]).me.rayOutstanding = true := by decide +kernel

theorem witness_rget : ∃ s : State, rayReady s true ∧ (∃ r, Tab.get? s.me.rays (field (s.x 6) 0 3) = some r ∧ r.status < 2 ^ 32) :=
  ⟨rayS [(3, ray0 .complete 0 0)], witness_ray_ready _ _ (by decide +kernel), ray0 .complete 0 0, by decide +kernel⟩

theorem witness_rhit : ∃ s : State, rayReady s false ∧ s.tagOf s.cur.core = some 1
    ∧ s.tokenRay 1 (s.x 7).toNat = some (s.myCore.lcore, 0, 3) ∧ s.residentCore 1 s.myCore.lcore = some s.cur.core :=
  ⟨rayS [(3, ray0 .verdict 0 0)], witness_ray_ready _ _ (by decide +kernel), by decide +kernel⟩

theorem witness_rhit_none : (rayS []).tokenRay 1 ((rayS []).x 7).toNat = none := by decide +kernel

theorem witness_rcancel : ∃ s : State, rayReady s false
    ∧ Tab.get? s.me.rays (field (s.x 6) 0 3) = some (ray0 .running 0 1) :=
  ⟨rayS [(3, ray0 .running 0 1)], witness_ray_ready _ _ (by decide +kernel), by decide +kernel⟩

theorem witness_ofence_ray : (rayS [(3, ray0 .running 0 0)]).me.rayReading = some 3 ∧ (rayS [(3, ray0 .running 0 0)]).idle
    ∧ (rayS []).me.rayReading = none := ⟨by decide +kernel, ⟨by decide +kernel, by decide +kernel⟩, by decide +kernel⟩

/-! Witnesses: tasks and queues. -/

/-- The task record of zeros, read at 0x1000. -/
def readS : Acc (TaskRec × KernelFacts × List Byte) := (taskS ctxK id id).readTask 0x1000

theorem witness_hstart : ∃ r f bs s1 h, (taskS ctxK id id).quiet ∧ (taskS ctxK id id).cur.h = 0
    ∧ (taskS ctxK id id).readStart ((taskS ctxK id id).x 5) = .ok (r, f, bs) s1 ∧ s1.cur = (taskS ctxK id id).cur
    ∧ s1.startStatus 0 f = .ok h ∧ h ≠ 0 ∧ ∃ o s2, s1.readObligation r = .ok o s2 ∧ s2.cur = (taskS ctxK id id).cur :=
  ⟨taskRecOf (List.replicate 64 0), KernelFacts.none, List.replicate 64 0, readS.state, 1, witness_quiet _ (by decide +kernel), by decide +kernel,
    ok_is _ _ (by decide +kernel), by decide +kernel, by
      have h : (match readS.state.startStatus 0 KernelFacts.none with | .ok n => n == 1 | .error _ => false) = true := by decide +kernel
      revert h; cases readS.state.startStatus 0 KernelFacts.none with
      | error e => intro h; cases h
      | ok n => intro h; exact congrArg _ (beq_iff_eq.mp h), by decide,
    none, (readS.state.readObligation (taskRecOf (List.replicate 64 0))).state, ok_is _ _ (by decide +kernel), by decide +kernel⟩

theorem witness_hstart_refused : ∃ v, (taskS ctxK (fun m => { m with hnext := 0 }) id).startStatus 0 KernelFacts.none = .error v :=
  ⟨minus 2, rfl⟩

theorem witness_hjoin : (taskS ctxK id id).myCore.img.joined 15 = true
    ∧ (taskS ctxK (fun m => { m with harts := [(1, { Hart.init .u with live := true })] }) id).myCore.img.joined 15 = false := by
  decide +kernel

/-- The same core, holding the task of that record as taken. -/
def takenS : State := taskS ctxK (fun m => { m with taken := [{ addr := 0x1000, task := task0 }] }) id

theorem witness_hstart_taken : ∃ k r f bs s1, takenS.boundAt (takenS.x 5) = some k
    ∧ takenS.readStart (takenS.x 5) = .ok (r, f, bs) s1 ∧ f = k.facts :=
  ⟨task0, taskRecOf (List.replicate 64 0), KernelFacts.none, List.replicate 64 0, (takenS.readStart 0x1000).state,
    by decide +kernel, ok_is _ _ (by decide +kernel), rfl⟩

/-- A live helper with a task of the service launch. -/
def helper0 : Hart :=
  let k : HelperTask := { task := task0, obligation := none, met := false, folds := false, hash := 0, stored := [] }
  { Hart.init .u with live := true, task := some k }

/-- That helper, executing. -/
def helperS : State :=
  let s := served ctx1 (fun k => { k with img := { k.img with harts := [(1, helper0)] } })
  { s with cur := { core := 16, h := 1 } }

theorem witness_hexit : ∃ s : State, s.cur.h ≠ 0 ∧ s.settled ∧ (s.markDone s.cur s.myTag 0).settled
    ∧ (s.markDone s.cur s.myTag 0).cur = s.cur :=
  ⟨helperS, by decide +kernel, witness_settled _ (by decide +kernel), witness_settled _ (by decide +kernel), by decide +kernel⟩

theorem witness_hyield : helperS.idle ∧ helperS.readyOthers = [0] ∧ (served ctx1 id).idle ∧ (served ctx1 id).readyOthers = [] :=
  ⟨⟨by decide +kernel, by decide +kernel⟩, by decide +kernel, ⟨by decide +kernel, by decide +kernel⟩, by decide +kernel⟩

theorem witness_qdone : ∃ k, helperS.me.task = some k ∧ k.task.done = false := ⟨{ task := task0, obligation := none, met := false, folds := false, hash := 0, stored := [] }, by decide +kernel⟩

/-- A helper that runs a task meets what the statements about its accesses ask for. -/
theorem witness_unshadowed_helper : helperS.unshadowed ∧ helperS.me.task.isSome = true := ⟨unshadowed_of _ (by decide +kernel), by decide +kernel⟩

theorem witness_qdone_control : (taskS ctxK id id).me.task = none := by decide +kernel

theorem witness_qput_bound : ∃ s t, s.cur.h = 0 ∧ State.boundAt s (s.x 5) = some t :=
  ⟨taskS ctxK (fun m => { m with taken := [{ addr := 0x1000, task := task0 }] }) id, task0, by decide +kernel⟩

theorem witness_qput : ∃ (s s1 s2 : State) (r : TaskRec) (f : KernelFacts) (bs : List Byte) (q : Queue), s.quiet ∧ s.boundAt (s.x 5) = none ∧ s.readTask (s.x 5) = .ok (r, f, bs) s1
    ∧ ((s1.ctx s1.myTag).map (fun c => c.partFull (dieOf s1.cur.core) (r.cont && s1.cur.h != 0))).getD false = false
    ∧ s1.submit s1.myTag (dieOf s1.cur.core) (some (s1.myCore.lcore / 4))
        { newTask r f (s1.putter r).2 (dieOf s1.cur.core) with heldBy := (s1.putter r).1 } = (some q, s2) :=
  ⟨taskS ctxK id id, readS.state, _, taskRecOf (List.replicate 64 0), KernelFacts.none, List.replicate 64 0, .quad 0 0,
    witness_quiet _ (by decide +kernel), by decide +kernel, ok_is _ _ (by decide +kernel), by decide +kernel, Prod.ext (by decide +kernel) rfl⟩

/-- The facts of a kernel that needs a class which no core has. -/
def factsNone : KernelFacts := { KernelFacts.none with opmask := 1 }

/-- The context's core without that class. -/
def lackS : State := (taskS ctxK id id).onCore 16 (fun k => { k with capmask := 0 })

theorem witness_qput_nowhere : (lackS.submit lackS.myTag 0 (some 0)
    { newTask (taskRecOf (List.replicate 64 0)) factsNone (lackS.putter (taskRecOf (List.replicate 64 0))).2 0 with
      heldBy := (lackS.putter (taskRecOf (List.replicate 64 0))).1 }).1 = none := by decide +kernel

theorem witness_qput_full : ({ ctxK with qpart := 0 } : Ctx).partFull 0 false = true := by decide +kernel

theorem witness_qtake : ∃ s s1 : State, s.quiet ∧ s.cur.h = 0 ∧ (s.x 5).toNat % 64 = 0
    ∧ s.dataPlace .store (s.x 5) 64 = .ok (.mem 0x1000 false false) s1 ∧ s1.cur = s.cur ∧ s1.myImg.qsel ≠ 0
    ∧ s1.myImg.taken.length < 4 ∧ s1.search s1.myTag s.cur.core 0 s1.myImg.qsel = none :=
  ⟨taskS ctxK id id, ((taskS ctxK id id).dataPlace .store 0x1000 64).state, witness_quiet _ (by decide +kernel), by decide +kernel,
    by decide +kernel, ok_is _ _ (by decide +kernel), by decide +kernel⟩

theorem witness_qtake_finds : ∃ s1 s2 : State, s1 = ((taskS { ctxK with tasks := [task0] } id id).dataPlace .store 0x1000 64).state
    ∧ s1.search s1.myTag 16 0 s1.myImg.qsel = some task0 ∧ s1.search s1.myTag 16 1 s1.myImg.qsel = some task0
    ∧ s1.writeDwords 0x1000 task0.tr.bytes = .ok () s2 ∧ s2.cur = (taskS ctxK id id).cur :=
  ⟨_, (((taskS { ctxK with tasks := [task0] } id id).dataPlace .store 0x1000 64).state.writeDwords 0x1000 task0.tr.bytes).state,
    rfl, by decide +kernel, by decide +kernel, ok_is _ _ (by decide +kernel), by decide +kernel⟩

theorem witness_qtake_refused : (taskS ctxK (fun m => { m with qsel := 0 }) id).myImg.qsel = 0 := by decide +kernel

/-- The storage of a queued task holds an error, or none. -/
theorem witness_qtake_bad : ([CoreCell.queued 1 0].any (CoreCell.isQueued 1 task0.seq)) = true
    ∧ ([] : List CoreCell).any (CoreCell.isQueued 1 task0.seq) = false := by decide +kernel

/-! Witnesses: barriers and rings. -/

/-- A domain of a die for two arrivals, with one made. -/
def dom0 (count : Nat) : Domain where
  scope := 4
  inst := 0
  dom := 1
  n := 2
  count := count
  phase := 0
  tick := 0
  doneTick := 0

/-- Where barriers run: x5 names domain 1; the hardware context's pending arrivals. -/
def barS (count : Nat) (p : List Pending) : State :=
  (served { ctx1 with domains := [dom0 count] } id).onMe (fun t => { (t.put 5 1) with pending := p })

theorem witness_arrival : ∃ c, (barS 1 []).ctx 1 = some c ∧ (dom0 1).scope.toNat < 5 ∧ (dom0 1).count + 1 = (dom0 1).n :=
  ⟨_, some_of_isSome _ ctx0 (by decide +kernel), by decide⟩

theorem witness_bar_none : (served ctx1 id).barDomain 4 1 = none := by decide +kernel

theorem witness_barr : (barS 0 []).quiet ∧ (barS 0 []).barDomain 4 ((barS 0 []).x 5) = some (dom0 0)
    ∧ (barS 0 []).barPending (dom0 0) = false ∧ (barS 0 []).barStands (dom0 0) = false :=
  ⟨witness_quiet _ (by decide +kernel), by decide +kernel⟩

theorem witness_barr_twice : (barS 1 [{ scope := 4, inst := 0, dom := 1, phase := 0 }]).barPending (dom0 1) = true := by
  decide +kernel

theorem witness_barw : ∃ s1, (barS 0 []).barPast (dom0 0) = some s1 :=
  ⟨_, some_of_isSome _ State.reset (by decide +kernel)⟩

theorem witness_barw_waits : (barS 1 [{ scope := 4, inst := 0, dom := 1, phase := 0 }]).barPast (dom0 1) = none := by decide +kernel

theorem witness_bar_arrives : ∃ d1, ((barS 0 []).arrive (barS 0 []).cur (barS 0 []).myTag (dom0 0)).cur = (barS 0 []).cur
    ∧ ((barS 0 []).arrive (barS 0 []).cur (barS 0 []).myTag (dom0 0)).barDomain 4 1 = some d1
    ∧ ((barS 0 []).arrive (barS 0 []).cur (barS 0 []).myTag (dom0 0)).barPast d1 = none :=
  ⟨dom0 1, by decide +kernel⟩

theorem witness_bar_completes : ∃ d1 s1, ((barS 1 []).arrive (barS 1 []).cur (barS 1 []).myTag (dom0 1)).barDomain 4 1 = some d1
    ∧ ((barS 1 []).arrive (barS 1 []).cur (barS 1 []).myTag (dom0 1)).barPast d1 = some s1 :=
  ⟨{ dom0 0 with phase := 1 }, _, by decide +kernel, some_of_isSome _ State.reset (by decide +kernel)⟩

/-- A ring of two slots of 128 bytes, with a number of them filled. -/
def ring0 (filled : Nat) : Ring where
  launch := 0
  desc := 0
  base := 128
  slotsz := 128
  count := 2
  wptr := filled % 2
  rptr := 0
  fills := (List.range filled).map (fun k => (k, 1))
  reads := []
  checked := []
  ticks := []

/-- Where ring instructions run: x5 names ring 1, x6 a descriptor in the local window. -/
def ringS (r : Tab Ring) : State :=
  (served ctx1 (fun k => { k with img := { k.img with rings := r, scratch := Memory.write [] 0 (bytesLE 4 128 ++ bytesLE 2 128 ++ bytesLE 2 2) } })).onMe
    (fun t => (t.put 5 1).put 6 (BitVec.ofNat 64 localWindow))

/-- The ring descriptor of ringS. -/
def ringDesc : List Byte := bytesLE 4 128 ++ bytesLE 2 128 ++ bytesLE 2 2 ++ List.replicate 24 0

theorem witness_rinit : ∃ s s1 : State, s.quiet ∧ (s.x 6).toNat % 32 = 0 ∧ localWindow ≤ (s.x 6).toNat
    ∧ (s.x 6).toNat - localWindow + 32 ≤ s.partition s.cur.core ∧ s.readRecord (s.x 6) 32 32 = .ok ringDesc s1 ∧ s1.quiet
    ∧ s1.cur = s.cur
    ∧ ringError ringDesc ((s.x 6).toNat - localWindow) (s1.partition s.cur.core) (fun j => s1.myCore.inAnnex s.cur.core j) = none
    ∧ s1.ringBound s1.myTag s1.myCore.lcore s.cur.core 1 = false :=
  ⟨ringS [], ((ringS []).readRecord (BitVec.ofNat 64 localWindow) 32 32).state, witness_quiet _ (by decide +kernel), by decide +kernel,
    by decide +kernel, by decide +kernel, ok_is _ _ (by decide +kernel), witness_quiet _ (by decide +kernel), by decide +kernel,
    by decide +kernel, by decide +kernel⟩

theorem witness_ring_unset : Tab.get? (ringS []).myCore.img.rings 1 = none := by decide +kernel

theorem witness_ring_filled : ∃ s1, Tab.get? (ringS [(1, ring0 1)]).myCore.img.rings 1 = some (ring0 1)
    ∧ (ring0 1).isFilled (ring0 1).rptr = true ∧ (ringS [(1, ring0 1)]).acquireTick true false (Tab.getD (ring0 1).ticks 0 0) = some s1 :=
  ⟨_, by decide +kernel, by decide, some_of_isSome _ State.reset (by decide +kernel)⟩

theorem witness_ring_empty : Tab.get? (ringS [(1, ring0 0)]).myCore.img.rings 1 = some (ring0 0)
    ∧ (ring0 0).isFilled (ring0 0).rptr = false := by decide +kernel

/-! Witnesses: streams and jobs. -/

theorem witness_sbind_full : ∃ s : State, s.quiet
    ∧ 4 ≤ (((s.die 0).portQueue s.myTag s.myCore.lcore 16).filter (fun p => !p.running)).length :=
  ⟨streamS ctx1 (fun d => { d with patterns := List.replicate 4 (pat0 16) }) [], witness_quiet _ (by decide +kernel), by decide +kernel⟩

theorem witness_sbind : ∃ s s1 : State, s.quiet ∧ field (s.x 5) 0 5 = 16
    ∧ (((s.die 0).portQueue s.myTag s.myCore.lcore 16).filter (fun p => !p.running)).length < 4
    ∧ s.readPattern (s.x 6) 16 none = .ok (pat0 16) s1 ∧ s1.quiet ∧ s1.cur = s.cur :=
  ⟨streamS ctx1 id patDesc, ((streamS ctx1 id patDesc).readPattern 0x1000 16 none).state, witness_quiet _ (by decide +kernel),
    by decide +kernel, by decide +kernel, ok_is _ _ (by decide +kernel), witness_quiet _ (by decide +kernel), by decide +kernel⟩

theorem witness_jobs_full : 4096 ≤ ((streamS ctx1 (fun d => { d with jobs := List.replicate 4096 job0 }) []).die 0).jobs.length := by
  decide +kernel

theorem witness_sjob : ∃ s s1 : State, s.quiet ∧ (s.die 0).jobs.length < 4096
    ∧ s.readRecord (s.x 6) 64 192 = .ok copyCard s1 ∧ s1.quiet ∧ s1.cur = s.cur
    ∧ cardError copyCard false (fun _ => false) = none ∧ at_ copyCard 0 1 ≠ 2 :=
  ⟨streamS ctx1 id copyCard, ((streamS ctx1 id copyCard).readRecord 0x1000 64 192).state, witness_quiet _ (by decide +kernel),
    by decide +kernel, ok_is _ _ (by decide +kernel), witness_quiet _ (by decide +kernel), by decide +kernel, by decide +kernel,
    by decide +kernel⟩

theorem witness_sjob_error : cardError collCard false (fun _ => false) = some 0 := by decide +kernel

/-- The context with collective group 5, of which its logical core 0 is the one member. -/
def ctxG : Ctx := { ctx1 with groups := [(5, { members := [(0, 0, 0, 0)], submitted := [], rounds := 0 })] }

theorem witness_scoll : ∃ s s1 : State, s.readRecord (s.x 6) 64 192 = .ok collCard s1
    ∧ cardError collCard true (fun g => (s1.rankIn g).isSome) = none :=
  ⟨streamS ctxG id collCard, ((streamS ctxG id collCard).readRecord 0x1000 64 192).state, ok_is _ _ (by decide +kernel), by decide +kernel⟩

theorem witness_swait_waits : ∃ s : State, (s.x 5) ≠ 0 ∧ ¬ s.jobNumber s.myTag ≤ (s.x 5).toNat ∧ s.jobLive s.myTag 16 = true :=
  ⟨streamS { ctx1 with nextJob := 20 } (fun d => { d with jobs := [{ job0 with num := 16 }] }) [], by decide +kernel⟩

theorem witness_swait_done : ∃ s s1 : State, s.jobLive s.myTag 16 = false ∧ s.jobTick s.myTag 16 = some 3
    ∧ s.acquireTick true false 3 = some s1 :=
  ⟨streamS { ctx1 with nextJob := 20, jobDone := [(16, 3)] } id [], _, by decide +kernel, by decide +kernel,
    some_of_isSome _ State.reset (by decide +kernel)⟩

theorem witness_swait_nothing : (if (0 : Word) = 0 then (streamS ctx1 id []).me.jobs else []).all
    (fun n => ((streamS ctx1 id []).jobTick (streamS ctx1 id []).myTag n).isNone) = true := by decide +kernel

/-! Witnesses: the machine. -/

theorem witness_step_event : ∃ (s : State) (e : Event) (i : Instr), s.agenda = [e] ∧ isStepOf e i :=
  ⟨{ State.reset with agenda := [.tickAdvance] }, .tickAdvance, .tickAdvance, rfl, rfl⟩

/-- Nobody has a turn. -/
theorem witness_no_turn : ∃ s s1 : State, s.agenda = [] ∧ s.cycle.turn = (none, s1) :=
  ⟨{ State.reset with running := [] }, _, rfl, Prod.ext (by decide +kernel) rfl⟩

/-- The state whose hardware context has its turn. -/
def turnS (s : State) : State := (s.cycle.turn.1).getD State.reset

theorem witness_turn_interrupt : ∃ (s s1 s0 : State) (tag code : Nat), s.agenda = [] ∧ s.cycle.turn = (some s1, s0)
    ∧ s1.interruptNow = some (tag, code) :=
  ⟨(served ctx1 (fun k => { k with img := { k.img with mie := 2, mip := 2 } })).onMe (fun t => { t with mstatus := 2 }),
    _, _, 1, 1, by decide +kernel,
    Prod.ext (some_of_isSome _ State.reset (by decide +kernel)) rfl, by decide +kernel⟩

theorem witness_turn_runs : ∃ (s s1 s0 s2 : State) (bs : List Byte) (d : Decoded), s.agenda = [] ∧ s.cycle.turn = (some s1, s0)
    ∧ s1.interruptNow = none ∧ s1.fetch = .ok bs s2 ∧ decode bs = .ok d
    ∧ s1.me.inside = false ∧ (∀ k, s2.me.task = some k → k.folds = true → s2.me.chain = [] ∧ isOutside d.instr = false) :=
  ⟨State.reset.withFetchWord 32 0x00500093, turnS (State.reset.withFetchWord 32 0x00500093), _,
    ((turnS (State.reset.withFetchWord 32 0x00500093)).fetch).state, [0x93, 0x00, 0x50, 0x00],
    { instr := .addi 1 0 5, len := 4, bits := 0x00500093 }, by decide +kernel,
    Prod.ext (some_of_isSome _ State.reset (by decide +kernel)) rfl, by decide +kernel, ok_is _ _ (by decide +kernel), by rfl,
    by decide +kernel, fun k h => by
      have e : ((turnS (State.reset.withFetchWord 32 0x00500093)).fetch).state.me.task = none := by decide +kernel
      rw [e] at h; cases h⟩

theorem witness_turn_undecodable : ∃ (s : State) (bs : List Byte) (s2 : State) (r : Reject), (turnS s).fetch = .ok bs s2
    ∧ decode bs = .error r :=
  ⟨State.reset.withFetchWord 32 0, [0, 0], ((turnS (State.reset.withFetchWord 32 0)).fetch).state, _,
    ok_is _ _ (by decide +kernel), rfl⟩

theorem witness_turn_fetch_trap : ∃ (s : State) (t : Trap) (s2 : State), (turnS s).fetch = .trap t s2 :=
  ⟨served ctx0 id, _, _, (trap_of_isTrap _ (by decide +kernel)).choose_spec⟩

theorem witness_fetch : ∃ s : State, s.tagOf s.cur.core = none ∧ s.me.mode = .m ∧ s.myCore.icache = [] ∧ s.pc.toNat % 2 = 0
    ∧ s.pc.toNat + 4 ≤ 2 ^ 42 ∧ (∀ d ln, Tab.get? (s.die d).owned ln = none) ∧ s.bad = [] ∧ s.errorFree :=
  ⟨State.reset, by decide +kernel, by decide +kernel, by decide +kernel, by decide +kernel, by decide +kernel, fun _ _ => rfl, rfl,
    rfl, rfl⟩

theorem witness_memory_wf : Memory.wf State.reset.mem = true ∧ Memory.wf (Memory.write [] 5 [1, 0, 2]) = true := by decide +kernel

theorem witness_step_next : ∃ t, Memory.wf State.reset.mem = true ∧ step State.reset = .next t :=
  ⟨nextOf (step State.reset), by decide +kernel, by
    have h : (match step State.reset with | .next _ => true | _ => false) = true := by decide +kernel
    revert h; unfold nextOf; cases step State.reset with
    | next t => intro _; rfl
    | fault f => intro h; cases h
    | refused r => intro h; cases h⟩

theorem witness_line_write : 100 + ([1, 2] : List Byte).length ≤ 128 ∧ 127 < 128 := by decide

theorem witness_wf : Instr.wf (.addi 1 2 0xFFF) = true ∧ (Instr.addi 1 2 0xFFF).isCompressed = false := by decide +kernel

theorem witness_decodes : ∃ d, decode [0x01, 0x00] = .ok d ∧ d.len = 2 := ⟨{ instr := .cNop, len := 2, bits := 1 }, by rfl, rfl⟩

/-! Witnesses: units. -/

/-- A flight of a hardware context of the manager core, of a length. -/
def flyS (i : Instr) (vl : Nat) (xa : Word) : State :=
  vecS 0x0A (BitVec.ofNat 16 vl) (fun t => { t with chain := [{ flight1 i with vl := vl, xa := xa }] })

/-- The flight of flyS. -/
def flyF (i : Instr) (vl : Nat) (xa : Word) : Flight := { flight1 i with vl := vl, xa := xa }

/-- What a move comes to: more (0), over (1), a trap (2) or a wait (3). -/
def moveKind : Option Move → Nat
  | some (.more _ _) => 0
  | some (.over _) => 1
  | some (.trap _ _ _) => 2
  | some (.wait _) => 3
  | none => 4

/-- The sequencer's move of a flight. -/
def seqKind (i : Instr) (vl : Nat) (xa : Word) (s : State) : Nat :=
  moveKind ((seqMove i).map (fun g => g (flyF i vl xa) s))

/-- vadd v1, v2, v3. -/
def vaddI : Instr := .vadd { m := false, agn := false, vd := 1, vs2 := 2, s := .vv 3 }

theorem witness_group_moves : (flyS vaddI 16 0).me.chain = [flyF vaddI 16 0] ∧ (flyF vaddI 16 0).idx = 0
    ∧ seqKind vaddI 16 0 (flyS vaddI 16 0) = 0 ∧ seqKind vaddI 8 0 (flyS vaddI 8 0) = 1
    ∧ seqKind (.vld vldOp) 8 1 (flyS (.vld vldOp) 8 1) = 2 := by decide +kernel

theorem witness_group_waits : seqKind (.vst vldOp) 8 0x100
    { flyS (.vst vldOp) 8 0x100 with home := [(2, { wts := 8300, due := 8300, owner := none, grant := 0, rel := none })] } = 3 := by
  decide +kernel

theorem witness_dist_moves : ∃ g, distUnitMove (.dpoint 0 1 4) = some g := ⟨_, rfl⟩

theorem witness_graphics_moves : ∃ g, graphicsMove (.xbox 0 4 5 6) = some g := ⟨_, rfl⟩

theorem witness_not_moved : seqMove (.dpoint 0 1 4) = none ∧ distUnitMove (.xbox 0 4 5 6) = none
    ∧ graphicsMove (.dpoint 0 1 4) = none := ⟨rfl, rfl, rfl⟩

/-- A hardware context with an annex: 16 registers of 8,192 bits in a pool of 4 KiB. -/
def annexS : State :=
  onMgr (fun t => { t with
    vcfgst := ((grantOf 8 16 8192).status 8 4 0 2), annex := some { place := .phys 0x10000, bytes := 0x3000 },
    resident := (List.range 4).map RegName.v })

theorem witness_annex_swap : ∃ (s : State) (names : List RegName), cfgAnx s.me.vcfgst = true ∧ s.me.chain = []
    ∧ slotsOf (names.filter RegName.isVd).dedup ≤ cfgSlots s.me.vcfgst ∧ s.annexBad s.me = none ∧ s.me.resident.Nodup
    ∧ RegName.v 9 ∈ names ∧ RegName.v 9 ∉ s.me.resident :=
  ⟨annexS, [.v 9, .v 10], by decide +kernel⟩

/-- A vst that waits, with a vadd behind it that stands apart from it. -/
def behindS : State :=
  let s := vecS 0x0A 8 (fun t => { t with chain := [flyF (.vst vldOp) 8 0x100, { flyF vaddI 8 0 with id := 1 }] })
  { s with home := [(2, { wts := 8300, due := 8300, owner := none, grant := 0, rel := none })] }

theorem witness_younger_moves : behindS.me.chain = [flyF (.vst vldOp) 8 0x100, { flyF vaddI 8 0 with id := 1 }]
    ∧ seqKind (.vst vldOp) 8 0x100 behindS = 3
    ∧ ({ flyF vaddI 8 0 with id := 1 } : Flight).apart (flyF (.vst vldOp) 8 0x100) = true
    ∧ moveKind ((seqMove vaddI).map (fun g => g { flyF vaddI 8 0 with id := 1 } behindS)) = 1
    ∧ ({ flyF vaddI 8 0 with id := 1 } : Flight).apart (flyF (.dpoint 0 1 5) 8 0) = true
    ∧ seqMove (.dpoint 0 1 5) = none := by
  decide +kernel

/-- A misaligned vld behind an instruction of the condenser's, and a tfetch that faults before a vst that stands inside a group. -/
def trapS (l : List Flight) : State := vecS 0x0A 8 (fun t => { t with chain := l })

/-- The tfetch of trapS. -/
def badFetch : Flight := { flyF (.tfetch 0 4 6 5) 8 0 with desc := bytesLE 8 0x0000F00000000000 ++ texDesc.drop 8 }

theorem witness_traps_held : ({ flyF (.vld vldOp) 8 1 with id := 1 } : Flight).apart (flyF (.dpoint 0 1 5) 8 0) = true
    ∧ seqMove (.dpoint 0 1 5) = none
    ∧ moveKind ((seqMove (.vld vldOp)).map (fun g => g { flyF (.vld vldOp) 8 1 with id := 1 }
        (trapS [flyF (.dpoint 0 1 5) 8 0, { flyF (.vld vldOp) 8 1 with id := 1 }]))) = 2
    ∧ [({ flyF (.vst vldOp) 8 0x100 with id := 1, sub := 1 } : Flight)].any Flight.inside = true
    ∧ moveKind ((graphicsMove badFetch.instr).map (fun g => g badFetch
        (trapS [badFetch, { flyF (.vst vldOp) 8 0x100 with id := 1, sub := 1 }]))) = 2 := by decide +kernel

/-- No other hardware context of the core has a flight of the condenser's. -/
theorem witness_condenser_alone : (0 : Nat) < 11 ∧ ∀ k, k < 11 → k ≠ 0 →
    ((flyS (.dpoint 0 1 4) 8 0).hart { core := 0, h := k }).chain = [] := by decide +kernel

/-- A core with commands in its matrix queue. -/
def queueS (l : List MatCmd) : State := (matS id).onImg 16 (fun m => { m with mq := l })

/-- A command of mzero. -/
def mzero0 : MatCmd := { instr := .mzero 0 1, h := 0, xa := 0, xb := 0, cfg := (matS id).myCore.img.mcfg }

theorem witness_matrix_command : ∃ s2, ((queueS [mzero0]).img 16).mq = [mzero0]
    ∧ ((queueS [mzero0]).onImg 16 (fun i => { i with mq := [] })).matPerform 16 mzero0 = some s2 :=
  ⟨_, by decide +kernel, some_of_isSome _ State.reset (by decide +kernel)⟩

theorem witness_matrix_none : ((queueS []).img 16).mq = [] := by decide +kernel

/-- A command of mld that names an address outside the windows. -/
def mldBad : MatCmd := { mzero0 with instr := .mld 0 1 5 6, xa := 0x10 }

theorem witness_matrix_fails : ((queueS [mldBad]).onImg 16 (fun i => { i with mq := [] })).matPerform 16 mldBad = none := by
  decide +kernel

/-- A core whose command reads a tile with an uncorrectable error, and whose SRAM has one. -/
def mst0 : MatCmd := { mzero0 with instr := .mst 0 1 5 6, xa := BitVec.ofNat 64 localWindow, xb := 0x40 }

theorem witness_matrix_meets : ([CoreCell.tile 16 1].any (({ queueS [mst0] with badCore := [.tile 16 1] } : State).matMeets 16 mst0)) = true
    ∧ ([] : List CoreCell).any ((queueS [mst0]).matMeets 16 mst0) = false
    ∧ ({ queueS [mst0] with badCore := [.tile 16 1] } : State).badCore = [.tile 16 1] := by decide +kernel

theorem witness_interrupt : ∃ (s : State) (c : Ctx), s.tagOf 16 = some 1 ∧ s.dueInterrupt 16 = some 1 ∧ s.ctx 1 = some c
    ∧ (s.img 16).stvec ≠ c.rt ∧ (s.hart { core := 16, h := 0 }).inside = false :=
  ⟨(served ctx1 (fun k => { k with img := { k.img with mie := 2, mip := 2 } })).onMe (fun t => { t with mstatus := 2 }), ctx1,
    by decide +kernel⟩

theorem witness_interrupt_inside : ∃ s : State, s.tagOf 16 = some 1 ∧ s.dueInterrupt 16 = some 1
    ∧ (s.hart { core := 16, h := 0 }).inside = true :=
  ⟨(served ctx1 (fun k => { k with img := { k.img with mie := 2, mip := 2 } })).onMe
    (fun t => { t with mstatus := 2, chain := [{ flyF (.vst vldOp) 8 0x100 with sub := 1 }] }), by decide +kernel⟩

theorem witness_no_interrupt : (served ctx1 id).dueInterrupt 16 = none := by decide +kernel

/-- A core with pending stores. -/
def pendS (l : List PendStore) (f : State → State) : State := f (served ctx1 (fun k => { k with img := { k.img with stores := l } }))

/-- A store to scratchpad. -/
def store0 : PendStore := { h := 0, loc := .scratch 16 0x100, data := [1, 2], wt := false }

theorem witness_pending_store : ((pendS [store0] id).img 16).stores = [store0] ∧ store0.loc = .scratch 16 0x100
    ∧ ((pendS [] id).img 16).stores = [] := by decide +kernel

/-- A store to memory whose line may be written only far ahead of the horizon. -/
def store1 : PendStore := { h := 0, loc := .phys 0x100, data := [1, 2], wt := true }

/-- The machine with a line whose due tick lies 8,300 ahead of the horizon. -/
def farS : State :=
  pendS [store1] (fun s => { s with home := [(2, { wts := 8300, due := 8300, owner := none, grant := 0, rel := none })], horizon := 0 })

theorem witness_store_waits : ∃ s1, farS.writePlace { core := 16, h := store1.h } store1.place store1.data = .wait s1 :=
  ⟨_, wait_of_isWait _ (by decide +kernel)⟩

/-- A store of the manager core that is pending for memory. -/
def ownStore : State := State.reset.onImg 0 (fun m => { m with stores := [{ store1 with wt := false }] })

theorem ownStore_coherent : ownStore.coherent := fun d ln o h => by
  have e : Tab.get? (ownStore.die d).owned ln = none := rfl
  rw [e] at h; cases h

theorem witness_store_performed : ∃ s1 : State, (ownStore.img 0).stores = [{ store1 with wt := false }] ∧ ownStore.coherent
    ∧ 0x100 % 128 + store1.data.length ≤ 128
    ∧ ownStore.writePlace { core := 0, h := 0 } ({ store1 with wt := false } : PendStore).place store1.data = .ok () s1 :=
  ⟨_, by decide +kernel, ownStore_coherent, by decide, ok_is _ _ (by decide +kernel)⟩

/-! Witnesses: memory. -/

/-- Line 2 of memory, owned by die 0, dirty or clean, since cycle 0. -/
def ownS (dirty : Bool) (cc : Nat) (bad : List Nat) : State :=
  let s := State.reset
  let o : Owned := { val := 7, wts := 3, dirty := dirty, since := 0, tag := 1 }
  { s with
    home := [(2, { wts := 1, due := 1, owner := some 0, grant := 0, rel := none })]
    dies := [(0, { Die.init with owned := [(2, o)] })]
    cc := cc
    bad := bad }

theorem witness_writeback : ((ownS true 0 []).homeLine 2).owner = some 0
    ∧ Tab.get? ((ownS true 0 []).die 0).owned 2 = some { val := 7, wts := 3, dirty := true, since := 0, tag := 1 } := by decide +kernel

theorem witness_writeback_none : (State.reset.homeLine 2).owner = none := by decide +kernel

theorem witness_writeback_clean : Tab.get? ((ownS false 0 []).die 0).owned 2 = some { val := 7, wts := 3, dirty := false, since := 0, tag := 1 } := by
  decide +kernel

theorem witness_writeback_bad : (true && (ownS true 0 [2]).bad.contains 2) = true := by decide +kernel

theorem witness_timeout : 0 + 16384 ≤ (ownS true 16384 []).cc := by decide +kernel

theorem witness_host_access : ∃ s : State, (∀ ln, (s.homeLine ln).owner = none) ∧ s.mgmt.started = true ∧ s.bad = [] ∧ 0x100 + 8 ≤ 2 ^ 42 :=
  ⟨{ State.reset with mgmt := { Mgmt.init 1 2 with started := true } }, fun _ => rfl, rfl, rfl, by decide⟩

theorem witness_host_early : (∀ ln, (State.reset.homeLine ln).owner = none) ∧ State.reset.mgmt.started = false := ⟨fun _ => rfl, rfl⟩

/-- A context with a granted remote port to module (1, 0, 0), context 9. -/
def ctxR : Ctx := { ctx1 with routes := [{ granted := true, remote := true, x := 1, y := 0, z := 0, tag := 9, links := 1 }] }

theorem witness_pod_write : ∃ (s1 : State) (p : Tick), (served ctxR id).ctx 1 = some ctxR
    ∧ ctxR.routes.any (fun r => r.granted && r.remote && r.x == 1 && r.y == 0 && r.z == 0 && r.tag == 9) = true
    ∧ (served ctxR id).engineHome 0 1 (served ctxR id).podTick 0x100 [1, 2, 3, 4, 5, 6, 7, 8] = some (p, s1) :=
  ⟨_, _, by decide +kernel, by decide +kernel, some_of_isSome _ (0, State.reset) (by decide +kernel)⟩

theorem witness_pod_write_dropped : (served ctxR id).engineHome 0 1 (served ctxR id).podTick 0x600000 [1] = none
    ∧ ctxR.routes.any (fun r => r.granted && r.remote && r.x == 2 && r.y == 0 && r.z == 0 && r.tag == 9) = false
    ∧ State.reset.ctx 1 = none := by decide +kernel

/-- A pod write that meets a page fault: an unbacked page of U-mode at 0x700000 with a frame for it, or an address that
nothing maps. -/
def ctxQ : Ctx := { ctxR with leaves := ctxR.leaves ++
  [{ va := 0x700000, size := 0x1000, pte := 0xDE, share := false, cow := false, alloc := true, die := 0xFF }], pool := [(0, [0x2000000])] }

theorem witness_pod_write_fate : (served ctxR id).engineStop 1 .store 0x100 8 = none
    ∧ (served ctxQ id).engineStop 1 .store 0x700000 8 = some (.page 0x700000)
    ∧ okIs ((served ctxQ id).quietAt 1 0x700000) () = true
    ∧ (served ctxR id).mayJump (served ctxR id).podTick ((((served ctxR id).engineHome 0 1 (served ctxR id).podTick 0x100 [1]).map Prod.fst).getD 0) = true
    ∧ (served ctxR id).engineStop 1 .store 0x700000 8 = some (.page 0x700000)
    ∧ (served ctxR id).engineStop 1 .store controlWindow.toNat 8 = some .dead := by decide +kernel

theorem witness_pod_write_waits : ∃ s : State, s.mayJump s.podTick (((s.engineHome 0 1 s.podTick 0x100 [1]).map Prod.fst).getD 0) = false
    ∧ (s.engineHome 0 1 s.podTick 0x100 [1]).isSome = true :=
  ⟨{ served ctxR id with home := [(2, { wts := 8300, due := 8300, owner := none, grant := 0, rel := none })] }, by decide +kernel⟩

theorem witness_snoop : 2 ^ 55 ≤ 2 ^ 55 + 64 ∧ 2 ^ 55 + 64 + ([1] : List Byte).length ≤ 2 ^ 56 := by decide

/-- The module at (1, 2, 3), with a port to (1, 2, 4), and a write bound for (1, 2, 5). -/
def transitS (down : List Nat) : State :=
  let m : PodMap := { self := (1, 2, 3), links := [(2, (1, 2, 4)), (5, (1, 1, 3))] }
  { served ctxR id with podmap := some m, linksDown := down }

theorem witness_transit : (transitS []).podmap.isSome = true ∧ (1, 2, 5) ≠ (transitS []).selfCoord
    ∧ (transitS []).portToward (fun _ => true) (1, 2, 5) = some 2 ∧ (transitS [2]).portToward (fun _ => true) (1, 2, 5) = some 5
    ∧ (transitS [2, 5]).portToward (fun _ => true) (1, 2, 5) = none := by decide +kernel

/-! Witnesses: engines. -/

theorem witness_pattern_none : startable (streamS ctx1 id []) 0 16 (1, 0) = none ∧ deliverable (streamS ctx1 id []) 0 16 (1, 0) = none := by
  decide +kernel

theorem witness_pattern_unset : startable (streamS ctx1 (fun d => { d with patterns := [pat0 16] }) []) 0 16 (1, 0) = some (pat0 16)
    ∧ (streamS ctx1 (fun d => { d with patterns := [pat0 16] }) []).targetRing (pat0 16) = some (16, none) := by decide +kernel

/-- Where a pattern fills ring 0 of core 16. -/
def fillS (p : Pattern) (g : Ring) : State :=
  (streamS ctx1 (fun d => { d with patterns := [p] }) []).onImg 16 (fun m => { m with rings := [(0, g)] })

theorem witness_pattern_starts : startable (fillS (pat0 16) (ring0 0)) 0 16 (1, 0) = some (pat0 16)
    ∧ (fillS (pat0 16) (ring0 0)).targetRing (pat0 16) = some (16, some (ring0 0)) := by decide +kernel

theorem witness_pattern_away : ∃ (s : State), startable s 0 16 (1, 0) = some { pat0 16 with dst := 9 } ∧ s.targetRing { pat0 16 with dst := 9 } = none :=
  ⟨streamS ctx1 (fun d => { d with patterns := [{ pat0 16 with dst := 9 }] }) [], by decide +kernel⟩

/-- A running pattern. -/
def patR : Pattern := { pat0 16 with running := true }

theorem witness_element_outside : ({ pat0 16 with bound := [3] } : Pattern).inside 3 = false ∧ (pat0 16).inside 3 = true
    ∧ ((pat0 16).addr 3).toNat % (pat0 16).size = 0 ∧ (fillS patR (ring0 0)).jobOf 0 (pat0 16) = none := by decide +kernel

/-- What a tile's elements come to: done (0), waiting (1) or dead (2). -/
def tileKind (r : TileRun) : Nat :=
  match r with
  | .ok _ _ => 0
  | .wait _ _ => 1
  | .dead _ _ => 2

/-- The same of a tile that is read and then written. -/
def tileKind2 (r : TileRun) (g : Pattern → State → TileRun) : Nat :=
  match r with
  | .ok p s => tileKind (g p s)
  | _ => 3

theorem witness_tile : deliverable (fillS patR (ring0 0)) 0 16 (1, 0) = some patR ∧ (fillS patR (ring0 0)).targetRing patR = some (16, some (ring0 0))
    ∧ (ring0 0).room.isSome = true ∧ patR.ending = none ∧ patR.posting = false
    ∧ min (128 / patR.size) (patR.total - 0) - patR.buf.length / patR.size = 4
    ∧ tileKind ((fillS patR (ring0 0)).readTile 0 0 4 patR) = 0 := by decide +kernel

theorem witness_tile_no_room : (ring0 2).room = none ∧ deliverable (fillS patR (ring0 2)) 0 16 (1, 0) = some patR := by decide +kernel

theorem witness_tile_dead : tileKind ((fillS { patR with src := 0x00FFFFF000000001 } (ring0 0)).readTile 0 0 4
    { patR with src := 0x00FFFFF000000001 }) = 2 := by decide +kernel

theorem witness_tile_waits : tileKind ((fillS { patR with src := 0x600000 } (ring0 0)).readTile 0 0 4 { patR with src := 0x600000 }) = 1 := by
  decide +kernel

/-- A running pattern of a local fabric port. -/
def patF : Pattern := { pat0 0 with running := true, dst := 0x5000 }

theorem witness_tile_memory : deliverable (fillS patF (ring0 0)) 0 0 (1, 0) = some patF ∧ patF.port < 8
    ∧ tileKind2 ((fillS patF (ring0 0)).readTile 0 0 4 patF) (fun p s => s.writeTile 0 0x5000 (4 - p.elem) p) = 0 := by decide +kernel

theorem witness_tile_posts : (0 : Nat) < 16 ∧ ({ patR with posting := true, bytes := 16 } : Pattern).total * 4 ≤ 16
    ∧ ({ patR with ending := some 2 } : Pattern).ending = some 2 := by decide +kernel

/-- A die with one job. -/
def jobS (j : Job) : State := streamS ctx1 (fun d => { d with jobs := [j] }) []

theorem witness_job_stands : (jobS { job0 with running := true }).standingJob 0 = some { job0 with running := true } := by decide +kernel

theorem witness_job_next : (jobS job0).standingJob 0 = none ∧ (jobS job0).nextJobFor 0 4 = some job0 := by decide +kernel

theorem witness_job_none : (streamS ctx1 id []).nextJobFor 0 4 = none := by decide +kernel

/-- The job of copyCard with its bytes moved, and no done dword. -/
def jobD : Job := { job0 with running := true, image := List.replicate 128 0, next := 1, done := 0 }

theorem witness_job_complete : ((jobS jobD).die 0).jobs.find? (fun j => j.tag == 1 && j.num == 1) = some jobD ∧ jobD.running = true
    ∧ jobD.op < 2 ∧ jobD.performed = true ∧ jobD.ending = none ∧ (jobS jobD).residentOn 1 0 = true
    ∧ (jobS jobD).isParked 0 1 (.job jobD.num) = false ∧ ((jobS jobD).ctx 1).isSome = true := by decide +kernel

theorem witness_job_posts : (jobS jobD).donePost 0 1 (.job 1) jobD.tick jobD.scope jobD.done (doneWord 0) = .ok () jobD.tick (jobS jobD) := rfl

/-- What an engine makes of a job's reads and then of its writes: done (0), waiting (1) or dead (2). -/
def jobKind (r : JobRun) : Nat :=
  match r with
  | .done j s =>
    match jobWrite 0 Job.data j j.target s with
    | .done _ _ => 0
    | .wait _ _ => 1
    | .dead _ _ => 2
  | _ => 3

/-- A fill of 128 bytes. -/
def fillJ (dst : Word) : Job := { job0 with op := 1, param := 0x0807060504030201, reads := [], writes := [{ base := dst, len := 128 }] }

theorem witness_job_moves : job0.op = 0 ∧ job0.reads = [{ base := 0x3000, len := 128 }] ∧ job0.image = [] ∧ job0.next = 0
    ∧ job0.source = [(0x3000, 128)] ∧ job0.target = [(0x4000, 128, 0)]
    ∧ jobKind (jobRead 0 job0 job0.source (jobS job0)) = 0 := by decide +kernel

theorem witness_fill_moves : jobKind (.done (fillJ 0x4010) (jobS (fillJ 0x4010))) = 0
    ∧ jobKind (.done (fillJ 0x00FFFFF000000000) (jobS (fillJ 0x00FFFFF000000000))) = 2 := by decide +kernel

/-- R347: a fill of 128 bytes from 0x4010 takes two lines, and byte 112 of it is byte 0 of the pattern. -/
theorem test_fill : (fillJ 0x4010).target = [(0x4010, 112, 0), (0x4080, 16, 112)] ∧ (fillJ 0x4010).data 112 2 = [1, 2] := by decide +kernel

/-- The collective job of group 5. -/
def collJ : Job := jobOfCard collCard 1 1 0 0 0 0 0 0 none

/-- Where its round runs. -/
def roundS (l : List Job) : State := streamS ctxG (fun d => { d with jobs := l }) []

theorem witness_round : ((roundS [collJ]).roundJobs 1 5 0).length = 1
    ∧ (∀ m ∈ (roundS [collJ]).roundJobs 1 5 0, (roundS [collJ]).jobReady m.1 m.2 = true
        ∧ (roundS [collJ]).isParked m.1 1 (.job m.2.num) = false)
    ∧ mismatched ((roundS [collJ]).roundJobs 1 5 0) = false
    ∧ ((roundS [collJ]).roundJobs 1 5 0).any (fun m => m.2.misaligned) = false := by decide +kernel

/-- What the members of a round come to: done (0), waiting (1) or dead (2). -/
def roundKind (r : RoundRun) : Nat :=
  match r with
  | .done _ _ => 0
  | .wait _ => 1
  | .dead _ => 2

/-- The member of group 5 with one FP32 element at an address, and its output at another. -/
def collJ1 (a b : Word) : Job :=
  { collJ with param := collJ.param + 0x10000000000000000, reads := [{ base := a, len := 4 }], writes := [{ base := b, len := 4 }] }

/-- A round of one member: its reads, and then its writes. -/
def collKind (a b : Word) : Nat × Nat :=
  match eachMember (fun die j s => s.readInput die j) [(0, collJ1 a b)] (roundS [collJ1 a b]) with
  | .done l s => (0, roundKind (eachMember (writeOutput (l.map (fun m => m.2.image))) l s))
  | r => (roundKind r, 3)

theorem witness_round_moves : mismatched [(0, collJ1 0x3000 0x4000)] = false ∧ (collJ1 0x3000 0x4000).collective.count = 1
    ∧ collKind 0x3000 0x4000 = (0, 0) ∧ collKind 0x00FFFFF000000000 0x4000 = (2, 3)
    ∧ collKind 0x3000 0x00FFFFF000000000 = (0, 2) := by decide +kernel

/-- R288: two members' I32 values; an all-reduce of a sum, of a minimum, and a reduce-scatter's part of rank 1. -/
theorem test_collective : collectiveOutput { kind := 0, fmt := 2, op := 0, group := 5, count := 1 } [[0xFF, 0xFF, 0xFF, 0xFF], [3, 0, 0, 0]] 1
      = [2, 0, 0, 0]
    ∧ collectiveOutput { kind := 0, fmt := 2, op := 1, group := 5, count := 1 } [[0xFF, 0xFF, 0xFF, 0xFF], [3, 0, 0, 0]] 0
      = [0xFF, 0xFF, 0xFF, 0xFF]
    ∧ collectiveOutput { kind := 1, fmt := 6, op := 2, group := 5, count := 2 } [[1, 0, 0, 0, 7, 0, 0, 0], [2, 0, 0, 0, 3, 0, 0, 0]] 1
      = [7, 0, 0, 0] := by decide +kernel

theorem witness_collective_fmt : collectiveFmt 2 = true ∧ Fmt.ofCode 2 = some (.int true 32) ∧ (0xFFFFFFFF : Nat) < 2 ^ 32 := by decide +kernel

theorem witness_round_misaligned : ((roundS [collJ1 0x3002 0x4000]).roundJobs 1 5 0).any (fun m => m.2.misaligned) = true
    ∧ mismatched ((roundS [collJ1 0x3002 0x4000]).roundJobs 1 5 0) = false ∧ (collJ1 0x3000 0x4000).misaligned = false
    ∧ (collJ1 0x3000 0x4001).misaligned = true := by decide +kernel

theorem witness_round_waits : ((roundS []).roundJobs 1 5 0).length ≠ 1 ∧ Tab.get? ctxG.groups 6 = none := by decide +kernel

/-- A fault of a pattern that waits. -/
def parked0 (va : Word) : Parked := { tag := 1, va := va, store := false, user := false, who := .pattern 0 16 }

/-- Where it waits. -/
def parkS (va : Word) : State := streamS ctx1 (fun d => { d with parked := [parked0 va] }) []

theorem witness_engine_fault : ((parkS 0x100).die 0).parked.find? ((parkS 0x100).mayService 0) = some (parked0 0x100)
    ∧ okIs ((parkS 0x100).quietAt 1 0x100) () = true
    ∧ ((((parkS 0x100).quietAt 1 0x100).state.onDie 0 (fun d => { d with parked := d.parked.erase (parked0 0x100) })).service 1 .load
        0x100 (parked0 0x100).priv 0).1 = .ok := by decide +kernel

theorem witness_engine_fault_ends : ((((parkS 0x600000).quietAt 1 0x600000).state.onDie 0
    (fun d => { d with parked := d.parked.erase (parked0 0x600000) })).service 1 .load 0x600000 (parked0 0x600000).priv 0).1 ≠ .ok := by
  decide +kernel

theorem witness_engine_fault_none : ((streamS ctx1 id []).die 0).parked.find? ((streamS ctx1 id []).mayService 0) = none := by
  decide +kernel

theorem witness_engine_fault_waits : ∃ s : State, (s.die 0).parked.find? (s.mayService 0) = some (parked0 0x100) ∧ isWait (s.quietAt 1 0x100) = true :=
  ⟨(parkS 0x100).onMe (fun t => { t with chain := [{ flyF (.vld vldOp) 8 0x100 with pages := cached ctx1 }] }), by decide +kernel⟩

/-! Witnesses: what stands, rays, rendering and launches. -/

/-- An instruction's bytes. -/
def wordBytes (i : Instr) : List Byte := bytesLE 4 ((encode32 i).getD 0).toNat

/-- A control context that stands at a qtake, with a task in its queue. -/
def qtakeS : State := withBytes (taskS { ctxK with tasks := [task0] } id id) 0 (wordBytes (.qtake 0 1 5))

/-- What an access to an instruction gives. -/
def isInstr (a : Acc Instr) (i : Instr) : Bool :=
  match a with
  | .ok j _ => decide (j = i)
  | _ => false

theorem ok_isInstr (a : Acc Instr) (i : Instr) (h : isInstr a i = true) : a = .ok i a.state := by
  cases a with
  | ok w s => exact congrArg (fun u => Acc.ok u s) (of_decide_eq_true h)
  | trap t s => cases h
  | wait s => cases h

theorem witness_qtake_stands : ∃ s2, qtakeS.queueReady 16 = true ∧ qtakeS.controlReady 16 = true
    ∧ ({ qtakeS with cur := { core := 16, h := 0 } } : State).nextInstr = .ok (.qtake 0 1 5) s2 :=
  ⟨_, by decide +kernel, by decide +kernel, ok_isInstr _ _ (by decide +kernel)⟩

/-- What the control context of qtakeS has fetched. -/
def qtakeF : State := ({ qtakeS with cur := { core := 16, h := 0 } } : State).nextInstr.state

/-- The place of its record. -/
def qtakeP : Acc Place := qtakeF.dataPlace .store (qtakeF.x 5) 64

theorem witness_qtake_takes : ∃ t, takesTask qtakeF 5 t :=
  ⟨_, ⟨by decide +kernel, by decide +kernel⟩, by decide +kernel, by decide +kernel, .mem 0x1000 false false,
    qtakeP.state, (qtakeP.state.writeDwords (qtakeF.x 5) task0.tr.bytes).state, task0,
    ok_is qtakeP _ (by decide +kernel), by decide +kernel, by decide +kernel, by decide +kernel, by decide +kernel,
    by decide +kernel, ok_is _ _ (by decide +kernel), by decide +kernel, rfl⟩

theorem witness_queue_not_ready : (taskS ctxK id id).queueReady 16 = false := by decide +kernel

/-- A control context that stands at the vst of submitS. -/
def submitI : Instr := .vst { vldOp with l := 0 }

theorem witness_vst_stands : ∃ s2, (withBytes submitS 0 (wordBytes submitI)).stands { core := 16, h := 0 } = true
    ∧ ({ withBytes submitS 0 (wordBytes submitI) with cur := { core := 16, h := 0 } } : State).nextInstr = .ok submitI s2
    ∧ (s2.submitsTo { vldOp with l := 0 }).isSome = true :=
  ⟨({ withBytes submitS 0 (wordBytes submitI) with cur := { core := 16, h := 0 } } : State).nextInstr.state, by decide +kernel,
    ok_isInstr _ _ (by decide +kernel), by decide +kernel⟩

/-- What the control context of submitS has fetched. -/
def submitF : State := ({ withBytes submitS 0 (wordBytes submitI) with cur := { core := 16, h := 0 } } : State).nextInstr.state

theorem witness_vst_submits : ∃ c p, submission submitF { vldOp with l := 0 } 0 1 c p :=
  ⟨_, pass0, witness_flight_ready _ _ (by decide +kernel), witness_quiet _ (by decide +kernel),
    ⟨.fp .fp32, by decide +kernel, by decide +kernel⟩, unshadowed_of _ (by decide +kernel), by decide +kernel, by decide +kernel,
    some_of_isSome _ ctx0 (by decide +kernel), by decide +kernel, by decide +kernel⟩

theorem witness_stands_not : (served ctx1 id).stands { core := 16, h := 3 } = false := by decide +kernel

/-- The context with 2 MiB for U-mode as well, at 0x400000. -/
def ctxU : Ctx :=
  { ctx1 with leaves := ctx1.leaves ++
      [{ va := 0x400000, size := 0x200000, pte := 0x1000DF, share := false, cow := false, alloc := false, die := 0 }] }

/-- A helper that runs a task with a shadow, and stands at an amoswap. -/
def shadowHelper : Hart :=
  let k : HelperTask := { task := task0, obligation := none, met := false, folds := true, hash := 0, stored := [] }
  { Hart.init .u with live := true, task := some k, pc := 0x400000 }

/-- Where it has its turn. -/
def shadowS : State :=
  withBytes (served ctxU (fun k => { k with img := { k.img with harts := [(0, { Hart.init .s with stopped := true }), (1, shadowHelper)] } })) 0x400000
    (wordBytes (.amoswapD 1 5 6 false false))

theorem witness_turn_compares : ∃ (s1 s0 s2 : State) (k : HelperTask), shadowS.agenda = [] ∧ shadowS.cycle.turn = (some s1, s0)
    ∧ s1.interruptNow = none ∧ s1.fetch = .ok (wordBytes (.amoswapD 1 5 6 false false)) s2
    ∧ decode (wordBytes (.amoswapD 1 5 6 false false))
        = .ok { instr := .amoswapD 1 5 6 false false, len := 4, bits := (encode32 (.amoswapD 1 5 6 false false)).getD 0 }
    ∧ s2.me.task = some k ∧ (k.folds && isOutside (.amoswapD 1 5 6 false false)) = true ∧ s2.me.chain = [] :=
  ⟨turnS shadowS, _, (turnS shadowS).fetch.state, _, by decide +kernel,
    Prod.ext (some_of_isSome _ State.reset (by decide +kernel)) rfl, by decide +kernel, ok_is _ _ (by decide +kernel), by rfl,
    some_of_isSome _ { task := task0, obligation := none, met := false, folds := true, hash := 0, stored := [] } (by decide +kernel),
    by decide +kernel, by decide +kernel⟩

/-- A helper that runs a selected task, with instructions in flight, where it has its turn at an instruction. -/
def foldS (chain : List Flight) (i : Instr) : State :=
  let k : HelperTask := { task := { task0 with shadow := false }, obligation := none, met := false, folds := true, hash := 0, stored := [] }
  let t : Hart := { Hart.init .u with live := true, task := some k, pc := 0x400000, chain := chain }
  withBytes (served ctxU (fun c => { c with img := { c.img with harts := [(0, { Hart.init .s with stopped := true }), (1, t)] } })) 0x400000
    (wordBytes i)

theorem witness_turn_folds : ∃ (s1 s0 s2 : State) (k : HelperTask), (foldS [] (.addi 1 0 5)).agenda = []
    ∧ (foldS [] (.addi 1 0 5)).cycle.turn = (some s1, s0) ∧ s1.interruptNow = none ∧ s1.me.inside = false
    ∧ s1.fetch = .ok (wordBytes (.addi 1 0 5)) s2 ∧ s2.me.task = some k ∧ k.folds = true ∧ s2.me.chain = []
    ∧ isOutside (.addi 1 0 5) = false :=
  ⟨turnS (foldS [] (.addi 1 0 5)), _, (turnS (foldS [] (.addi 1 0 5))).fetch.state, _, by decide +kernel,
    Prod.ext (some_of_isSome _ State.reset (by decide +kernel)) rfl, by decide +kernel, by decide +kernel, ok_is _ _ (by decide +kernel),
    some_of_isSome _ { task := task0, obligation := none, met := false, folds := true, hash := 0, stored := [] } (by decide +kernel),
    by decide +kernel, by decide +kernel, rfl⟩

theorem witness_turn_stalls : ∃ (s1 s0 s2 : State) (k : HelperTask), (foldS [flyF vaddI 8 0] (.addi 1 0 5)).agenda = []
    ∧ (foldS [flyF vaddI 8 0] (.addi 1 0 5)).cycle.turn = (some s1, s0) ∧ s1.me.inside = false ∧ s1.interruptNow = none
    ∧ s1.fetch = .ok (wordBytes (.addi 1 0 5)) s2 ∧ s2.me.task = some k ∧ k.folds = true ∧ s2.me.chain ≠ [] :=
  ⟨turnS (foldS [flyF vaddI 8 0] (.addi 1 0 5)), _, (turnS (foldS [flyF vaddI 8 0] (.addi 1 0 5))).fetch.state, _, by decide +kernel,
    Prod.ext (some_of_isSome _ State.reset (by decide +kernel)) rfl, by decide +kernel, by decide +kernel, ok_is _ _ (by decide +kernel),
    some_of_isSome _ { task := task0, obligation := none, met := false, folds := true, hash := 0, stored := [] } (by decide +kernel),
    by decide +kernel, by decide +kernel⟩

theorem witness_turn_inside : ∃ (s s1 s0 : State), s.agenda = [] ∧ s.cycle.turn = (some s1, s0) ∧ s1.me.inside = true :=
  ⟨servedHart ctx1 (fun t => { t with chain := [{ flyF (.vst vldOp) 8 0x100 with sub := 1 }] }), _, _, by decide +kernel,
    Prod.ext (some_of_isSome _ State.reset (by decide +kernel)) rfl, by decide +kernel⟩

/-- A ray about to visit the node at 0x402000. -/
def nodeR : Ray :=
  { ray0 .running 0 0 with
    work := [.node 0x402000 false], ray := [0, 0, 0, 0, 0x3F800000, 0x3F800000, 0x3F800000, 0x7F800000] }

/-- Its node: boxes of zeros, of which the first has a child node. -/
def nodeBytes : List Byte := List.replicate 96 0 ++ bytesLE 8 (2 ^ 62 + 0x403000) ++ List.replicate 24 0

/-- Where it is. -/
def nodeS : State := withBytes (servedVec ctxU 0x0A 8 (fun t => { t with rays := [(3, nodeR)] })) 0x402000 nodeBytes

/-- The read of its node. -/
def nodeA : Acc (List Byte) := nodeS.rayReads { core := 16, h := 0 } 0x402000 128

theorem witness_ray_node : Tab.get? (nodeS.hart { core := 16, h := 0 }).rays 3 = some nodeR ∧ nodeS.tagOf 16 = some 1
    ∧ nodeR.phase = .running ∧ nodeS.isParked 0 1 (.ray 0 0 3 nodeR.uid) = false ∧ nodeR.cand = none ∧ nodeR.stopAll = false
    ∧ okIs nodeA nodeBytes = true ∧ Tab.get? (nodeA.state.hart { core := 16, h := 0 }).rays 3 = some nodeR
    ∧ nodeBad nodeBytes = false ∧ nodeWork nodeBytes (nodeR.frame false) false ++ [] ≠ nodeR.work := by
  decide +kernel

theorem witness_ray_bad_node : nodeBad (List.replicate 96 0 ++ bytesLE 8 (2 ^ 62 + 2 ^ 48) ++ List.replicate 24 0) = true := by
  decide +kernel

theorem witness_ray_complete : (ray0 .complete 0 0).phase ≠ .running := by decide

/-- An owner with an inbox, or a log. -/
def ownerS (closure : Nat) (inbox : List Prim) (g : Ring) (logged : Nat) : State :=
  let p : Pass := { pass0 with closure := closure, owners := pass0.owners.map (fun u => { u with inbox := inbox }) }
  served { ctx1 with passes := [(0, p)] } (fun k => { k with img := { k.img with
    rings := [(0, g)], scratch := Memory.write [] 0x4000 (bytesLE 4 logged) } })

/-- A record with ticket 2. -/
def prim0 : Prim := { die := 0, ticket := 2, data := List.replicate 64 1 }

theorem witness_inbox : ∃ p u, (ownerS 3 [prim0] (ring0 0) 0).pass 1 0 = some p
    ∧ (ownerS 3 [prim0] (ring0 0) 0).residentCore 1 0 = some 16 ∧ p.unit 0 = some u
    ∧ Tab.get? ((ownerS 3 [prim0] (ring0 0) 0).img 16).rings p.ring = some (ring0 0) ∧ u.inbox = [prim0]
    ∧ prim0.ticket < p.closure ∧ (ring0 0).room.isSome = true :=
  ⟨{ pass0 with closure := 3, owners := pass0.owners.map (fun u => { u with inbox := [prim0] }) }, _, by decide +kernel, by decide +kernel,
    rfl, by decide +kernel, rfl, by decide, by decide⟩

theorem witness_inbox_bad : [CoreCell.inbox 16].any (CoreCell.isInbox 16) = true
    ∧ ((ownerS 3 [prim0] (ring0 0) 0).badCore ++ (ownerS 3 [prim0] (ring0 0) 0).soft).any (CoreCell.isInbox 16) = false := by
  decide +kernel

theorem witness_inbox_keeps : pass0.closure ≤ prim0.ticket ∧ (ring0 2).room = none := by decide

theorem witness_inbox_away : (served { ctxP with ctab := [] } id).residentCore 1 0 = none := by decide +kernel

theorem witness_log : ∃ p u m, (ownerS 0 [] (ring0 0) 1).pass 1 0 = some p ∧ (ownerS 0 [] (ring0 0) 1).residentCore 1 0 = some 16
    ∧ p.unit 0 = some u ∧ (ownerS 0 [] (ring0 0) 1).logicalImg 1 0 = some m
    ∧ ((ownerS 0 [] (ring0 0) 1).ownerWord 1 0 p.loff + 2 ^ 32 - u.pos % 2 ^ 32) % 2 ^ 32 = 1 ∧ 1 ≤ p.logn
    ∧ at_ (Memory.read m.scratch (p.loff + 128 + 16 * (u.pos % p.logn)) 16) 6 2 % 2 = 0 ∧ u.live = [] ∧ u.blended = [] :=
  ⟨{ pass0 with owners := pass0.owners.map (fun u => { u with inbox := [] }) }, _, (ownerS 0 [] (ring0 0) 1).img 16, by decide +kernel,
    by decide +kernel, rfl, by decide +kernel, by decide +kernel, by decide, by decide +kernel, rfl, rfl⟩

/-- A store into the entry that the log has published, and one that lets lwp run 65 entries beyond lrp. -/
theorem witness_log_broken : ∃ (c : Ctx) (u : OwnerUnit), ((ownerS 0 [] (ring0 0) 1).core 16).serving = some (1, 0)
    ∧ (ownerS 0 [] (ring0 0) 1).ctx 1 = some c ∧ u ∈ pass0.owners ∧ u.lcore = 0 ∧ 0 < pass0.logn
    ∧ 0 < (natLE (Memory.read ((ownerS 0 [] (ring0 0) 1).img 16).scratch pass0.loff 4) + 2 ^ 32 - 0) % 2 ^ 32
    ∧ 0x4090 - 1 < pass0.loff + 128 + 16 * (0 % pass0.logn) + 16 ∧ pass0.loff + 128 < (0x4090 - 1) + 1
    ∧ pass0.logn < (natLE (bytesLE 4 65) + 2 ^ 32 - 0) % 2 ^ 32 ∧ ¬ pass0.logn < (natLE (bytesLE 4 64) + 2 ^ 32 - 0) % 2 ^ 32 :=
  ⟨_, _, by decide +kernel, some_of_isSome _ ctx0 (by decide +kernel), List.mem_cons_self, by decide +kernel⟩

/-- R359: lwp stored too high, and the published entry rewritten, spoil the pass; lwp stored at logn beyond lrp does not. -/
theorem test_log_broken : ((((ownerS 0 [] (ring0 0) 1).putScratch 16 0x4000 (bytesLE 4 65)).pass 1 0).map Pass.spoiled) = some true
    ∧ ((((ownerS 0 [] (ring0 0) 1).putScratch 16 0x408F [1]).pass 1 0).map Pass.spoiled) = some true
    ∧ ((((ownerS 0 [] (ring0 0) 1).putScratch 16 0x4000 (bytesLE 4 64)).pass 1 0).map Pass.spoiled) = some false := by decide +kernel

/-- What a commit unit meets: a reserved byte of its log's header, reserved bits in an entry, a log once broken, bad SRAM. -/
theorem witness_log_meets : ((ownerS 0 [] (ring0 0) 1).onImg 16 (fun m => { m with scratch := Memory.write m.scratch 0x400C [1] })).headerReserved 1 0 0x4000 = true
    ∧ (ownerS 0 [] (ring0 0) 1).headerReserved 1 0 0x4000 = false
    ∧ 2 ≤ at_ (Memory.read (Memory.write [] 0x4086 [2]) 0x4080 16) 6 2
    ∧ ({ pass0 with spoiled := true } : Pass).filled = false
    ∧ ([CoreCell.unit 16].any (CoreCell.isUnit 16)) = true ∧ (ownerS 0 [] (ring0 0) 1).errorFree := by
  refine ⟨?_, ?_, ?_, ?_, ?_, ?_, ?_⟩ <;> decide +kernel

theorem witness_log_empty : ((ownerS 0 [] (ring0 0) 0).ownerWord 1 0 0x4000 + 2 ^ 32 - 0 % 2 ^ 32) % 2 ^ 32 = 0 := by decide +kernel

/-- A LAUNCH of the host. -/
def launchCmd : Cmd := { path := .host, tag := 1, seq := 5, args := 0, src := { core := 0, h := 0 }, sstatus := 0 }

/-- Launch 1 with a root to deliver, with none left, and closed. -/
def launchS (l : Launch) (qpart : Nat) : State := served { ctx1 with launches := [(0, Launch.init 0), (1, l)], qpart := qpart, nextLaunch := 2 } id

/-- A launch with one root of zeros for die 0. -/
def rootL : Launch := { Launch.init 0 with undelivered := [(taskRecOf (List.replicate 64 0), KernelFacts.none, 0, 0)], pendingCmd := some launchCmd }

theorem witness_launch_delivers : ∃ x, (launchS rootL 4096).ctx 1 = some x ∧ Tab.get? x.launches 1 = some rootL
    ∧ x.partFull 0 false = false :=
  ⟨_, some_of_isSome _ ctx0 (by decide +kernel), by decide +kernel⟩

/-- Launch 1 with a root of a kernel of the context's table, at its delivery. -/
def deliverS : State := (taskS ctxK id id).onCtx 1 (fun c => { c with launches := [(1, rootL)] })

theorem witness_delivery_facts : (deliverS.deliveryFacts 0 1 (taskRecOf (List.replicate 64 0)) KernelFacts.none).isSome = true
    ∧ (deliverS.deliveryFacts 0 1 (taskRecOf (List.replicate 16 0 ++ bytesLE 4 1 ++ List.replicate 44 0)) KernelFacts.none).isNone = true := by
  decide +kernel

theorem witness_launch_full : ∃ x, (launchS rootL 0).ctx 1 = some x ∧ x.partFull 0 false = true :=
  ⟨_, some_of_isSome _ ctx0 (by decide +kernel), by decide +kernel⟩

theorem witness_launch_answers : ({ rootL with undelivered := [] } : Launch).pendingCmd = some launchCmd ∧ launchCmd.path = .host := by
  decide +kernel

theorem witness_launch_complete : ({ Launch.init 0 with closed := true } : Launch).outstanding = 0
    ∧ ({ Launch.init 0 with closed := true } : Launch).completed = false ∧ (launchS rootL 4096).mgmt.events.length < 4096 := by
  decide +kernel

theorem witness_launch_performs : ∃ s1, (launchS rootL 4096).performAll 1 (Tab.keys (launchS rootL 4096).cores) = .ok () s1 ∧ s1 = launchS rootL 4096 :=
  ⟨_, ok_is _ _ (by decide +kernel), by decide +kernel⟩

/-! Witnesses: the sequencer. -/

theorem witness_preempt : ∃ t : Hart, t.chain.length ≤ 4 ∧ t.chain ≠ [] := ⟨{ Hart.init .u with chain := [flight1 vaddI] }, by decide⟩

theorem witness_preempt_empty : (Hart.init .u).chain = [] := rfl

/-- Context 1 on cluster 2, at a point of its slice and idle; context 2 with a task in the die's queue, of a priority. -/
def seqS (slice idle prio : Nat) (f : State → State) : State :=
  let s := served ctx1 id
  f { s with
    ctxs := [(1, ctx1), (2, { ctx1 with prio := prio, tasks := [task0] })]
    dies := [(0, { Die.init with clusters := [(2, { tag := 1, image := 0, slice := slice, idle := idle, evict := false })] })] }

/-- The cluster of seqS. -/
def seqC (slice idle : Nat) : Cluster := { tag := 1, image := 0, slice := slice, idle := idle, evict := false }

theorem witness_slice_none : Tab.get? ((seqS 0 0 0 id).die 0).clusters 3 = none := by decide +kernel

theorem witness_slice_running : Tab.get? ((seqS 0 0 0 id).die 0).clusters 2 = some (seqC 0 0) ∧ (seqS 0 0 0 id).misfits 0 2 = false
    ∧ (seqC 0 0).slice < (seqS 0 0 0 id).sliceCc 1 := by decide +kernel

theorem witness_slice_over : (seqS 1700000 0 0 id).misfits 0 2 = false ∧ (seqS 1700000 0 0 id).sliceCc 1 ≤ 1700000
    ∧ (seqS 1700000 0 0 id).successor 0 2 (seqC 1700000 0) = some (2, 0) := by decide +kernel

theorem witness_slice_anew : ({ seqS 1700000 0 0 id with ctxs := [(1, ctx1)] } : State).successor 0 2 (seqC 1700000 0) = none
    ∧ ({ seqS 1700000 0 0 id with ctxs := [(1, ctx1)] } : State).sliceCc 1 ≤ 1700000 := by decide +kernel

theorem witness_misfits : ((seqS 0 0 0 (fun s => s.onCore 16 (fun k => { k with crec := { k.crec with state := 1 } })))).misfits 0 2 = true := by
  decide +kernel

theorem witness_evicted : ∃ s : State, Tab.get? (s.die 0).clusters 2 = some { seqC 0 0 with evict := true } ∧ s.misfits 0 2 = true :=
  ⟨seqS 0 0 0 (fun s => s.onDie 0 (fun d => { d with clusters := [(2, { seqC 0 0 with evict := true })] })), by decide +kernel⟩

theorem witness_slice_saves : ∃ s : State, s.misfits 0 2 = true ∧ s.canSave 0 2 = true :=
  ⟨seqS 0 0 0 (fun s => s.onCore 16 (fun k => { k with crec := { k.crec with state := 1 } })), by decide +kernel⟩

theorem witness_slice_stays : ∃ s : State, s.misfits 0 2 = true ∧ s.canSave 0 2 = false :=
  ⟨{ seqS 0 0 0 (fun s => (s.onCore 16 (fun k => { k with crec := { k.crec with state := 1 } })).onImg 16 (fun m => { m with stores := [store1] }))
      with home := [(2, { wts := 8300, due := 8300, owner := none, grant := 0, rel := none })] }, by decide +kernel⟩

theorem witness_idle_kept : (seqC 0 4095).idle < 4096 := by decide

theorem witness_idle_taken : ∃ c, 4096 ≤ (seqC 0 4096).idle ∧ (seqS 0 4096 0 id).keepsIdle 0 (seqC 0 4096) = false
    ∧ ((seqS 0 4096 0 id).waitingContexts 0).head? = some (2, 0) ∧ (seqS 0 4096 0 id).ctx 2 = some c ∧ (seqS 0 4096 0 id).clusterFits c 0 0 2 = true :=
  ⟨{ ctx1 with prio := 0, tasks := [task0] }, by decide +kernel⟩

/-- Context 1 has a second image, saved with a live helper, while its first stands idle on cluster 2. -/
def twoImages : State :=
  let m : Img := { Img.init with harts := [(1, { Hart.init .u with live := true })] }
  let s := served { ctx1 with ncores := 9, ctab := [(0, 16), (8, 24)], placed := [0, 1], images := [(1, { cores := [(0, (m, 0))] })] } id
  s.onDie 0 (fun d => { d with clusters := [(2, seqC 0 4096)] })

theorem witness_idle_own : (twoImages.waitingContexts 0).head? = some (1, 1) ∧ twoImages.keepsIdle 0 (seqC 0 4096) = false
    ∧ ((twoImages.ctx 1).map (fun c => twoImages.clusterFits c 1 0 2)) = some true := by decide +kernel

theorem witness_cluster_inside : ∃ s : State, s.insideCluster 0 2 = true ∧ s.canSave 0 2 = false :=
  ⟨seqS 0 0 0 (fun s => s.onImg 16 (fun m => { m with harts := [(0, { Hart.init .s with chain := [{ flyF (.vst vldOp) 8 0x100 with sub := 1 }] })] })),
    by decide +kernel⟩

theorem witness_not_runnable : (seqS 0 0 0 id).runnable 1 0 = false := by decide +kernel

theorem witness_gets_cluster : (seqS 0 0 0 id).runnable 2 0 = true ∧ ((seqS 0 0 0 id).freePlace 0).isSome = true := by decide +kernel

/-- Context 2 with an image that holds a taken task, whose kernel needs a class that cluster 2 alone has. -/
def needS : State :=
  let k : Task := { task0 with facts := { KernelFacts.none with opmask := 1 } }
  let m : Img := { Img.init with taken := [{ addr := 0x1000, task := k }] }
  seqS 0 0 1 (fun s => s.onCtx 2 (fun c => { c with images := [(0, { cores := [(0, (m, 0))] })] }))

theorem witness_takes_cluster : needS.runnable 2 0 = true ∧ needS.freePlace 0 = none ∧ needS.takenPlace 0 = some (2, 0, 2) := by
  decide +kernel

theorem witness_takes_none : (seqS 0 0 0 id).victim 2 0 0 = none := by decide +kernel

theorem witness_placed : ∃ c, (seqS 0 0 0 id).ctx 2 = some c ∧ (Tab.get? ((seqS 0 0 0 id).die 0).clusters 3).isNone = true
    ∧ c.imageDie 0 = some 0 ∧ (seqS 0 0 0 id).imageResident 2 0 0 = false ∧ c.fault = none ∧ (seqS 0 0 0 id).clusterFits c 0 0 3 = true
    ∧ (0 ∈ c.imageIndices 0) ∧ Tab.get? c.images 0 = none :=
  ⟨{ ctx1 with prio := 0, tasks := [task0] }, by decide +kernel⟩

theorem witness_stays_away : (seqS 0 0 0 id).ctx 3 = none ∧ (Tab.get? ((seqS 0 0 0 id).die 0).clusters 2).isSome = true := by decide +kernel

theorem witness_context_fault : ∃ c, (seqS 0 0 0 id).ctx 1 = some c ∧ c.fault = none ∧ (seqS 0 0 0 id).mgmt.events.length < 4096 :=
  ⟨ctx1, by decide +kernel⟩

theorem witness_context_fault_again : ({ ctx1 with fault := some 1 } : Ctx).fault.isSome = true := rfl

theorem witness_events_full : 4096 ≤ (List.replicate 4096 ({ seq := 0, cmd := 0, tag := 0, status := 0, value := 0, detail := 0 } : Completion)).length := by
  decide +kernel

/-! Witnesses: repair. -/

theorem witness_sentinel : ∃ r : CoreRec, r.caps.getLsbD 5 = true := ⟨CoreRec.init 0, by decide⟩

theorem witness_sentinel_fenced : ∃ r : CoreRec, r.caps.getLsbD 5 = false ∧ r.perm.getLsbD 5 = false ∧ Tab.getD r.streak 5 0 = 2 :=
  ⟨{ CoreRec.init 0 with caps := 0, fenced := 0x20, streak := [(5, 2)] }, by decide⟩

theorem witness_sentinel_early : Tab.getD ({ CoreRec.init 0 with caps := 0, streak := [(5, 1)] } : CoreRec).streak 5 0 < 2 := by decide

theorem witness_sentinel_perm : ({ CoreRec.init 0 with caps := 0, perm := 0x20 } : CoreRec).perm.getLsbD 5 = true := by decide

theorem witness_quarantine : ({ CoreRec.init 0 with quar := 0x20 } : CoreRec).quar.getLsbD 5 = true ∧ (CoreRec.init 0).quar.getLsbD 5 = false := by
  decide

theorem witness_core_fails : (CoreRec.init 0).state = 0 ∧ (CoreRec.init 1).state ≠ 0 := by decide

theorem witness_hour : ∃ s : State, ∃ c k, (c, k) ∈ s.cores ∧ 16 ≤ k.crec.corr :=
  ⟨State.reset.onCore 16 (fun k => { k with crec := { k.crec with corr := 16 } }), 16, _, List.mem_cons_self, by decide +kernel⟩

theorem witness_core_fails_empty : (∀ k ∈ clusterCores (dieOf 16) (clusterOf 16), ((served ctx1 id).img k).stores = [])
    ∧ (served ctx1 id).insideCluster (dieOf 16) (clusterOf 16) = false := by decide +kernel

theorem witness_sentinel_restores : ∃ s : State, (s.core 16).crec.caps.getLsbD 50 = false ∧ (s.core 16).crec.state = 0
    ∧ (s.core 16).crec.perm.getLsbD 50 = false ∧ 2 ≤ Tab.getD (s.core 16).crec.streak 50 0 :=
  ⟨State.reset.onCore 16 (fun k => { k with crec := { CoreRec.init 0 with caps := 0, streak := [(50, 2)] } }), by decide +kernel⟩

theorem witness_link_tries : 15 ≤ Tab.getD ({ State.reset with tries := [(2, 15)] } : State).tries 2 0 := by decide +kernel

/-- A shadow of the context that waits since the start. -/
def shadow0 : Shadow := { seq := 1, die := 0, opmask := 0, primary := none, copy := none, hp := none, hc := none, since := 0 }

theorem witness_stale : ({ ctx1 with shadows := [shadow0], residentCc := [(0, 2 ^ 20 + 1)] } : Ctx).staleShadow 0 shadow0 = true
    ∧ ({ ctx1 with shadows := [shadow0], residentCc := [(0, 2 ^ 20)] } : Ctx).staleShadow 0 shadow0 = false := by decide +kernel

theorem witness_scrub_bad : ∃ (s : State) (e : Nat × Ctx), s.bad = [3] ∧ 3 * 128 < 2 ^ 42 ∧ homeDie (3 * 128) = 0 ∧ s.ctxs = [e]
    ∧ e.2.held.any (fun h => h.2.contains (3 * 128 / 2 ^ 21 * 2 ^ 21)) = true :=
  ⟨{ served { ctx1 with held := [(0, [0])] } id with bad := [3] }, (1, { ctx1 with held := [(0, [0])] }), by decide +kernel⟩

theorem witness_scrub_free : ∀ e ∈ (served ctx1 id).ctxs, e.2.held.any (fun h => h.2.contains (3 * 128 / 2 ^ 21 * 2 ^ 21)) = false := by
  decide +kernel

/-! Witnesses: commands. -/

/-- A command of a path for context 1, with its bytes from 16 on. -/
def cmdOf (path : CmdPath) (bs : List Byte) : Cmd :=
  { path := path, tag := 1, seq := 5, args := BitVec.ofNat 384 (natLE bs), src := { core := 16, h := 0 }, sstatus := 0 }

theorem witness_permitted : permitted (served ctx1 id) (cmdOf .host []) true false ∧ permitted (served ctx1 id) (cmdOf .window []) false true :=
  ⟨⟨by decide +kernel, fun _ => rfl, fun h => by cases h⟩, ⟨by decide +kernel, (fun h => by cases h), fun _ => rfl⟩⟩

theorem witness_not_permitted : commandOf (.create (cmdOf .window [])) = some (cmdOf .window [], 0x01, true, false, false)
    ∧ ¬permitted (served ctx1 id) (cmdOf .window []) true false :=
  ⟨rfl, fun h => by
    have e := h.2.2 rfl
    cases e⟩

theorem witness_no_context : ({ cmdOf .host [] with tag := 9 } : Cmd).tag = 9 ∧ (served ctx1 id).ctx 9 = none := by decide +kernel

/-- The module with its completion ring of eight at host address 0x1000. -/
def ringsS (n : Nat) : State :=
  { served ctx1 id with mgmt := { Mgmt.init 1 2 with
      started := true, ready := true, qen := true, cplqBase := 0x1000, cplqSize := 8, cplqTail := BitVec.ofNat 32 n } }

theorem witness_answer_waits : ((ringsS 8).mgmt.waiting.isEmpty && (ringsS 8).mgmt.ringOpen) = false := by decide +kernel

theorem witness_answer_posts : ((ringsS 7).mgmt.waiting.isEmpty && (ringsS 7).mgmt.ringOpen) = true
    ∧ (ringsS 7).mgmt.cplqBase.toNat % 4096 = 0
    ∧ (ringsS 7).mgmt.cplqBase.toNat + 32 * (ringsS 7).mgmt.cplqSize.toNat ≤ 2 ^ 55 := by decide +kernel

/-- The window's answer at an address. -/
def windowWrite (a : Nat) : Option (Tick × State) :=
  ((served ctx1 id).flush 16).state.engineWrite 0 1 0 a (bytesLE 8 (2 ^ 63))

theorem witness_answer_window : (windowWrite 0x100).isSome = true ∧ windowWrite 0x600000 = none := by decide +kernel

/-- A template of one logical core on die 0. -/
def tmpl0 : Template := { leaves := [], root := 0x1000, tables := [0x1000], ncores := 1, ctab := [(0, 16)], self := (0, 0, 0), routes := [], frames := [], pool := [] }

/-- CREATE's parameter block: template 1, a partition of 1,024 tasks, four frames. -/
def createBlock : List Byte := [1, 0, 0, 0] ++ bytesLE 4 0 ++ bytesLE 4 1024 ++ bytesLE 4 4 ++ List.replicate 48 0

/-- Where CREATE runs: its block at device address 0x1000. -/
def createS : State := withBytes { State.reset with templates := [(1, tmpl0)] } 0x1000 createBlock

/-- CREATE with that block. -/
def createC : Cmd := { cmdOf .host (bytesLE 8 0x1000) with tag := 0 }

/-- Its read. -/
def createR : List Byte × State := (createS.cmdRead createC (createC.arg 16 8) 64).getD ([], State.reset)

/-- Its core table. -/
def createT : Tab Nat × State :=
  match createR.2.createCores createBlock tmpl0 with
  | .ok r => r
  | .error _ => ([], State.reset)

theorem witness_create_cores : createR.2.createCores createBlock tmpl0 = .ok createT := by
  have h : (match createR.2.createCores createBlock tmpl0 with
    | .ok _ => true
    | .error _ => false) = true := by decide +kernel
  revert h; unfold createT
  cases createR.2.createCores createBlock tmpl0 with
  | ok r => intro _; rfl
  | error e => intro h; cases h

/-- Its route table. -/
def createQ : State :=
  match createT.2.createRoutes createBlock tmpl0 with
  | .ok r => r.2
  | .error _ => State.reset

theorem witness_create_routes : createT.2.createRoutes createBlock tmpl0 = .ok (((0, 0, 0), []), createQ) := by
  have h : (match createT.2.createRoutes createBlock tmpl0 with
    | .ok r => decide (r.1 = ((0, 0, 0), []))
    | .error _ => false) = true := by decide +kernel
  revert h; unfold createQ
  cases createT.2.createRoutes createBlock tmpl0 with
  | ok r => intro h; exact congrArg _ (Prod.ext (of_decide_eq_true h) rfl)
  | error e => intro h; cases h

theorem witness_create : permitted createS createC true false ∧ createS.cmdRead createC (createC.arg 16 8) 64 = some createR
    ∧ createR.1 = createBlock ∧ createError createBlock true = none ∧ Tab.get? createR.2.templates (at_ createBlock 0 1) = some tmpl0
    ∧ createT.1 = [(0, 16)] ∧ createQ.freeTag = some 1
    ∧ (∀ d ∈ diesOf createT.1, createQ.partSum d + at_ createBlock 8 4 ≤ 262144 ∧ saveFrames createT.1 d ≤ at_ createBlock 12 4)
    ∧ (createQ.claimAll (at_ createBlock 12 4) (diesOf createT.1)).isSome = true :=
  ⟨⟨by decide +kernel, fun _ => rfl, fun h => by cases h⟩, some_of_isSome _ _ (by decide +kernel), by decide +kernel, by decide +kernel,
    by decide +kernel, by decide +kernel, by decide +kernel, by decide +kernel, by decide +kernel⟩

theorem witness_create_tables : (createQ.plantTables 1 tmpl0.root).isSome = true
    ∧ (({ createQ with nextTable := 262144 } : State).plantTables 1 tmpl0.root).isNone = true ∧ createQ.freeTables = [] := by decide +kernel

theorem witness_setsched : (cmdOf .host (bytesLE 4 7 ++ bytesLE 4 100)).arg 16 4 ≤ 7 ∧ 100 ≤ (cmdOf .host (bytesLE 4 7 ++ bytesLE 4 100)).arg 20 4
    ∧ 7 < (cmdOf .host (bytesLE 4 8)).arg 16 4 ∧ (cmdOf .host (bytesLE 4 7 ++ bytesLE 4 99)).arg 20 4 < 100
    ∧ 100000 < (cmdOf .host (bytesLE 4 7 ++ bytesLE 4 100001)).arg 20 4
    ∧ (cmdOf .host (bytesLE 4 7 ++ bytesLE 4 100000)).arg 20 4 ≤ 100000 := by decide +kernel

/-- LAUNCH's parameter block: one root at device address 0x2000, closed. -/
def launchBlock : List Byte := bytesLE 8 0x2000 ++ bytesLE 4 1 ++ bytesLE 4 1 ++ List.replicate 48 0

/-- Where LAUNCH runs. -/
def launchRunS : State := withBytes (taskS ctxK id id) 0x1000 launchBlock

/-- LAUNCH with that block. -/
def launchC : Cmd := cmdOf .host (bytesLE 8 0x1000)

/-- Its reads. -/
def launchR : List Byte × State := (launchRunS.cmdRead launchC (launchC.arg 16 8) 64).getD ([], State.reset)
def launchRoots : List Byte × State := (launchR.2.cmdRead launchC 0x2000 64).getD ([], State.reset)

theorem witness_launch : permitted launchRunS launchC true false ∧ launchRunS.ctx 1 = some ctxK
    ∧ launchRunS.cmdRead launchC (launchC.arg 16 8) 64 = some launchR ∧ launchR.1 = launchBlock ∧ launchError launchBlock true = none
    ∧ at_ launchBlock 16 8 = 0 ∧ at_ launchBlock 24 8 = 0
    ∧ launchR.2.cmdRead launchC (at_ launchBlock 0 8) (64 * at_ launchBlock 8 4) = some launchRoots
    ∧ (match launchRoots.2.readRoots 1 0 (chunksOf 64 launchRoots.1 (at_ launchBlock 8 4)) with
      | .ok (roots, s3) => roots.length == 1 && ((s3.ctx 1).map (fun y => (Tab.get? y.launches y.nextLaunch).isNone)).getD false
      | .error _ => false) = true :=
  ⟨⟨by decide +kernel, fun _ => rfl, fun h => by cases h⟩, by decide +kernel, some_of_isSome _ _ (by decide +kernel), by decide +kernel,
    by decide +kernel, by decide +kernel, by decide +kernel, some_of_isSome _ _ (by decide +kernel), by decide +kernel⟩

/-- LAUNCH's parameter block to add a root to launch 1, with a place list at 0x2100. -/
def addBlock : List Byte := bytesLE 8 0x2000 ++ bytesLE 4 1 ++ bytesLE 4 0 ++ bytesLE 8 1 ++ bytesLE 8 0x2100 ++ List.replicate 32 0

/-- The context with a launch of a number. -/
def ctxL (l : Launch) : Ctx := { ctxK with launches := [(0, Launch.init 0), (1, l)], nextLaunch := 2 }

/-- Where it runs, and its read of the place list. -/
def addS : State := withBytes (withBytes (taskS (ctxL (Launch.init 0)) id id) 0x1000 addBlock) 0x2100 (bytesLE 4 0)
def addR : List Byte × State := (addS.cmdRead launchC (launchC.arg 16 8) 64).getD ([], State.reset)
def addPlaces : List Byte × State := (addR.2.cmdRead launchC 0x2100 4).getD ([], State.reset)

theorem witness_launch_adds : addR.1 = addBlock ∧ at_ addBlock 16 8 = 1 ∧ launchError addBlock true = none ∧ at_ addBlock 24 8 = 0x2100
    ∧ Tab.get? (ctxL (Launch.init 0)).launches 1 = some (Launch.init 0) ∧ (Launch.init 0).closed = false ∧ (Launch.init 0).completed = false
    ∧ addPlaces.1 = bytesLE 4 0 ∧ (ctxL (Launch.init 0)).placeError ((chunksOf 4 addPlaces.1 1).map natLE) = none
    ∧ (ctxL (Launch.init 0)).placeError [9] = some 0 ∧ (ctxL (Launch.init 0)).placeError [0xFFFFFFFF] = none := by decide +kernel

theorem witness_launch_in_use : Tab.get? (ctxL { Launch.init 0 with closed := true }).launches 1 = some { Launch.init 0 with closed := true }
    ∧ ({ Launch.init 0 with closed := true } : Launch).closed = true ∧ ({ Launch.init 0 with completed := true } : Launch).completed = true
    ∧ Tab.get? ctxK.launches 1 = none := by decide +kernel

/-- A pass descriptor: 16 tickets, 32 by 32 pixels in one region, one sample, colours at 0, log of 64 at 0x4000, owners at
0x3000. -/
def passDesc : List Byte :=
  bytesLE 4 16 ++ bytesLE 2 32 ++ bytesLE 2 32 ++ [2, 0, 0, 0] ++ bytesLE 4 0 ++ bytesLE 4 0x4000 ++ bytesLE 2 64 ++ bytesLE 2 0
    ++ bytesLE 8 0x3000 ++ List.replicate 32 0

/-- Where OPEN_PASS runs, and the command. -/
def passS : State := withBytes (withBytes (served ctx1 id) 0x1000 passDesc) 0x3000 (bytesLE 4 0)
def passC : Cmd := cmdOf .host (bytesLE 8 2 ++ bytesLE 8 0x1000)
def passR : List Byte × State := (passS.cmdRead passC (passC.arg 24 8) 64).getD ([], State.reset)
def passOwners : List Byte × State := (passR.2.cmdRead passC 0x3000 4).getD ([], State.reset)

theorem witness_open_pass : permitted passS passC true true ∧ passS.ctx 1 = some ctx1 ∧ passC.arg 16 8 ≤ 15
    ∧ Tab.get? ctx1.passes (passC.arg 16 8) = none ∧ passC.arg 24 8 % 64 = 0 ∧ passS.cmdRead passC (passC.arg 24 8) 64 = some passR
    ∧ passR.1 = passDesc ∧ passError passDesc ctx1.scratch = none
    ∧ passR.2.cmdRead passC (at_ passDesc 24 8) (4 * passRegions passDesc) = some passOwners
    ∧ ctx1.ownersOk ((chunksOf 4 passOwners.1 (passRegions passDesc)).map natLE) = true ∧ passOwners.2.ctx 1 = some ctx1 :=
  ⟨⟨by decide +kernel, fun _ => rfl, fun _ => rfl⟩, by decide +kernel, by decide +kernel, by decide +kernel, by decide +kernel,
    some_of_isSome _ _ (by decide +kernel), by decide +kernel, by decide +kernel, some_of_isSome _ _ (by decide +kernel), by decide +kernel,
    by decide +kernel⟩

theorem witness_pass_in_use : Tab.get? ctxP.passes ((cmdOf .host (bytesLE 8 0)).arg 16 8) = some pass0
    ∧ (∀ u ∈ pass0.owners, u.live = [] ∧ u.inbox = []) := by decide +kernel

theorem witness_pass_live : ∃ u ∈ ({ pass0 with owners := pass0.owners.map (fun u => { u with inbox := [prim0] }) } : Pass).owners, u.inbox ≠ [] :=
  ⟨_, List.mem_cons_self, by decide⟩

/-- A domain command: a die's domain 1, for two arrivals. -/
def domC : Cmd := cmdOf .host ([4, 0, 1, 0] ++ bytesLE 4 2)

theorem witness_domain_args : ∃ r, (served ctx1 id).domainArgs domC ctx1 = .ok r ∧ 1 ≤ domC.arg 20 4 ∧ domC.arg 20 4 ≤ 2 ^ 24
    ∧ (served ctx1 id).domainTaken ctx1 r.1 r.2.1 r.2.2 = false := by
  have h : (match (served ctx1 id).domainArgs domC ctx1 with
    | .ok r => !(served ctx1 id).domainTaken ctx1 r.1 r.2.1 r.2.2
    | .error _ => false) = true := by decide +kernel
  revert h
  cases (served ctx1 id).domainArgs domC ctx1 with
  | ok r => intro h; exact ⟨r, rfl, by decide +kernel, by decide +kernel, by simpa using h⟩
  | error e => intro h; cases h

theorem witness_domain_held : ({ ctx1 with domains := [dom0 0] } : Ctx).domainAt 4 0 1 = some (dom0 0) ∧ (dom0 0).count = 0
    ∧ (dom0 1).count ≠ 0 ∧ (served { ctx1 with domains := [dom0 0] } id).domainTaken { ctx1 with domains := [dom0 0] } 4 0 1 = true := by
  decide +kernel

/-- ALLOC_GROUP of group 5 with two members at 0x3000. -/
def groupC : Cmd := cmdOf .host (bytesLE 4 5 ++ bytesLE 4 2 ++ bytesLE 8 0x3000)
def groupS : State := withBytes (served { ctx1 with ctab := [(0, 16), (1, 17)] } id) 0x3000 (bytesLE 8 0 ++ [0, 0, 0, 0] ++ bytesLE 4 1)
def groupR : List Byte × State := (groupS.cmdRead groupC (groupC.arg 24 8) (8 * groupC.arg 20 4)).getD ([], State.reset)

theorem witness_alloc_group : groupC.arg 16 4 ≤ 255 ∧ 2 ≤ groupC.arg 20 4 ∧ groupC.arg 20 4 ≤ 65536 ∧ Tab.get? ctx1.groups 5 = none
    ∧ groupS.cmdRead groupC (groupC.arg 24 8) (8 * groupC.arg 20 4) = some groupR
    ∧ memberError groupR.1 (groupC.arg 20 4) = none
    ∧ groupR.2.ctx 1 = some { ctx1 with ctab := [(0, 16), (1, 17)] } ∧ groupS.inService = true :=
  ⟨by decide +kernel, by decide +kernel, by decide +kernel, by decide +kernel, some_of_isSome _ _ (by decide +kernel), by decide +kernel,
    by decide +kernel, by decide +kernel⟩

theorem witness_free_group : ∃ g, Tab.get? ctxG.groups 5 = some g ∧ (∀ d ∈ (served ctxG id).dies, d.2.jobs = [])
    ∧ Tab.get? ctx1.groups ((cmdOf .host (bytesLE 8 5)).arg 16 8) = none :=
  ⟨_, some_of_isSome _ { members := [], submitted := [], rounds := 0 } (by decide +kernel), by decide +kernel, by decide +kernel⟩

theorem witness_notify_word : (served ctx1 id).residentCore 1 ((cmdOf .window (bytesLE 4 0)).arg 16 4) = some 16
    ∧ ctx1.coreOf ((cmdOf .window (bytesLE 4 3)).arg 16 4) = none := by decide +kernel

theorem witness_group_members : ctx1.ownMembersExist [(0, 0, 0, 0)] = true ∧ ctx1.ownMembersExist [(0, 0, 0, 9)] = false := by decide +kernel

/-- TEMPLATE_MAKE of context 1 with four frames. -/
def makeC : Cmd := cmdOf .host (bytesLE 4 1 ++ bytesLE 4 4)

theorem witness_template_make : (served ctx1 id).ctx (makeC.arg 16 4) = some ctx1 ∧ 1 ≤ makeC.arg 20 4 ∧ makeC.arg 20 4 ≤ 2048
    ∧ (served ctx1 id).ctxBusy 1 ctx1 = false
    ∧ ((List.range 255).map (fun j => j + 1)).find? (fun m => (Tab.get? (served ctx1 id).templates m).isNone) = some 1
    ∧ ((served ctx1 id).claimAll (makeC.arg 20 4) (diesOf ctx1.ctab)).isSome = true := by decide +kernel

/-- Every template number is in use, a die has no frame left, and the module no page for tables. -/
theorem witness_template_full : ∃ s : State, (∀ m, m < 256 → 1 ≤ m → (Tab.get? s.templates m).isSome = true) ∧ s.ctxBusy 1 ctx1 = false :=
  ⟨{ served ctx1 id with templates := (List.range 255).map (fun k => (k + 1, tmpl0)) }, by decide +kernel, by decide +kernel⟩

theorem witness_template_frames :
    (((served ctx1 id).onDie 0 (fun d => { d with nextFrame := framesOfDie })).claimAll (makeC.arg 20 4) (diesOf ctx1.ctab)).isNone = true := by
  decide +kernel

/-- The context with its page shared. -/
def ctxT : Ctx := { ctx1 with leaves := ctx1.leaves.map (fun l => { l with share := true }) }

theorem witness_template_tables : (((served ctxT id).makeTemplate 1 1 ctxT []).isSome = true)
    ∧ (({ served ctxT id with nextTable := 262144 } : State).makeTemplate 1 1 ctxT []).isNone = true := by decide +kernel

theorem witness_template_busy : (served { ctx1 with tasks := [task0] } id).ctxBusy 1 { ctx1 with tasks := [task0] } = true := by decide +kernel

theorem witness_template_drop : Tab.get? createS.templates ((cmdOf .host (bytesLE 8 1)).arg 16 8) = some tmpl0
    ∧ (∀ e ∈ createS.ctxs, e.2.template ≠ 1) ∧ Tab.get? createS.templates 2 = none := by decide +kernel

theorem witness_template_in_use : ∃ e ∈ (served { ctx1 with template := 1 } id).ctxs, e.2.template = 1 :=
  ⟨_, List.mem_cons_self, by decide +kernel⟩

/-! Witnesses: pages and custody. -/

/-- MAP of two 4 KiB pages at 0x400000 from device address 0x800000, readable and writable. -/
def mapC : Cmd := cmdOf .host (bytesLE 8 0x400000 ++ bytesLE 8 0x2000 ++ bytesLE 8 0x800000 ++ [3, 0, 0, 0])

theorem witness_map : mapError mapC ctx1 = none ∧ mapC.arg 32 8 ≠ 0 ∧ (mapLeaves mapC).length = 2 := by decide +kernel

theorem witness_map_tables : ((served ctx1 id).setLeaves 1 (ctx1.leaves ++ mapLeaves mapC)).isSome = true
    ∧ (({ served ctx1 id with nextTable := 262144 } : State).setLeaves 1 (ctx1.leaves ++ mapLeaves mapC)).isNone = true := by decide +kernel

theorem witness_map_error : mapError { mapC with args := mapC.args + 1 } ctx1 = some 16 := by decide +kernel

/-- UNMAP or PROTECT of the 2 MiB at 0, to read and write. -/
def rangeC : Cmd := cmdOf .host (bytesLE 8 0 ++ bytesLE 8 0x200000 ++ [3])

theorem witness_range : rangeError rangeC ctx1 = none ∧ rangeC.arg 32 1 / 2 % 2 = 1
    ∧ (∀ l ∈ ctx1.leaves, l.within (rangeC.arg 16 8) (rangeC.arg 24 8) = true → pteC l.pte = false ∧ pteG l.pte = false) := by decide +kernel

theorem witness_range_error : rangeError { rangeC with args := rangeC.args + 0x1000 } ctx1 = some 16 := by decide +kernel

theorem witness_protect_global : ∃ l ∈ ({ ctx1 with leaves := ctx1.leaves.map (fun l => { l with pte := 0xEB }) } : Ctx).leaves,
    l.within (rangeC.arg 16 8) (rangeC.arg 24 8) = true ∧ (pteC l.pte = true ∨ pteG l.pte = true) :=
  ⟨_, List.mem_cons_self, by decide +kernel⟩

theorem witness_range_quiet : okIs ((served ctx1 id).rangeQuiet 1 (rangeC.arg 16 8) (rangeC.arg 24 8)) () = true
    ∧ ((served ctx1 id).rangeQuiet 1 (rangeC.arg 16 8) (rangeC.arg 24 8)).state.ctx 1 = some ctx1
    ∧ (((served ctx1 id).rangeQuiet 1 (rangeC.arg 16 8) (rangeC.arg 24 8)).state.setLeaves 1 []).isSome = true
    ∧ (((served ctx1 id).rangeQuiet 1 (rangeC.arg 16 8) (rangeC.arg 24 8)).state.setLeaves 1
        (ctx1.leaves.map (fun l => { l with pte := protectPte rangeC l.pte }))).isSome = true := by decide +kernel

/-- A hardware context of the context with an instruction in flight that holds a translation of the range. -/
def holdS : State := servedHart ctx1 (fun t => { t with chain := [{ flyF (.vld vldOp) 8 0x100 with pages := cached ctx1 }] })

theorem witness_range_waits : isWait (holdS.rangeQuiet 1 (rangeC.arg 16 8) (rangeC.arg 24 8)) = true ∧ isWait (holdS.quietAt 1 0x100) = true
    ∧ okIs ((served ctx1 id).quietAt 1 0x100) () = true ∧ rangeError rangeC ctx1 = none ∧ holdS.ctx 1 = some ctx1 := by decide +kernel

/-- PAGE for a load at an address. -/
def pageC (a : Nat) : Cmd := { cmdOf .window (bytesLE 8 a) with sstatus := 0x100 }

theorem witness_page : ∃ l, pageKind ((pageC 0x100).arg 24 8) = some .load ∧ (pageC 0x100).arg 16 8 < 2 ^ 56
    ∧ inWindows ((pageC 0x100).arg 16 8) = false ∧ ctx1.leafOf ((pageC 0x100).arg 16 8) = some l
    ∧ l.permits .load (faultPriv (pageC 0x100)) = true ∧ l.unbacked = false :=
  ⟨_, by decide +kernel, by decide +kernel, by decide +kernel, some_of_isSome _ { va := 0, size := 0, pte := 0, share := false, cow := false, alloc := false, die := 0 } (by decide +kernel),
    by decide +kernel, by decide +kernel⟩

/-- A context with an unbacked page at 0x700000, and frames, or none. -/
def ctxB (frames : List Nat) : Ctx :=
  { ctx1 with leaves := ctx1.leaves ++
      [{ va := 0x700000, size := 0x1000, pte := 0xCE, share := false, cow := false, alloc := true, die := 0xFF }], pool := [(0, frames)] }

theorem witness_page_unbacked : ∃ l, (ctxB [0x2000000]).leafOf 0x700000 = some l ∧ l.unbacked = true
    ∧ l.permits .load (faultPriv (pageC 0x700000)) = true ∧ ((served (ctxB [0x2000000]) id).back 1 l 0).isSome = true
    ∧ (served (ctxB []) id).back 1 l 0 = none :=
  ⟨{ va := 0x700000, size := 0x1000, pte := 0xCE, share := false, cow := false, alloc := true, die := 0xFF }, by decide +kernel⟩

theorem witness_page_unmapped : ctx1.leafOf 0x600000 = none := by decide +kernel

/-- A command of the host for the module. -/
def modC (bs : List Byte) : Cmd := { cmdOf .host bs with tag := 0 }

theorem witness_attest : (modC (bytesLE 8 (2 ^ 55 + 0x1000))).arg 16 8 % 8 = 0 ∧ 2 ^ 55 ≤ (modC (bytesLE 8 (2 ^ 55 + 0x1000))).arg 16 8
    ∧ (modC (bytesLE 8 (2 ^ 55 + 0x1000))).arg 16 8 + 392 ≤ 2 ^ 56 := by decide +kernel

theorem witness_stage : (State.reset.cmdRead (modC (bytesLE 8 0x1000 ++ bytesLE 8 0x200)) 0x1000 0x200).isSome = true
    ∧ State.reset.inService = true ∧ ({ State.reset with mgmt := Mgmt.init 1 3 } : State).inService = false := by decide +kernel

theorem witness_lifecycle : transition State.reset.mgmt.lcs ((modC [1]).arg 16 1) = some false ∧ State.reset.ctxs = [] ∧ State.reset.templates = []
    ∧ State.reset.mgmt.rsb = false ∧ transition State.reset.mgmt.lcs 0 = none ∧ (served ctx1 id).ctxs ≠ [] := by decide +kernel

/-- The authorisation of a LIFECYCLE that needs one: 128 bytes at device address 0x1000. -/
def lifeC : Cmd := modC ([1] ++ List.replicate 7 0 ++ bytesLE 8 0x1000)

theorem witness_lifecycle_challenge : ∃ s : State, s.challenge = some 3 ∧ s.mgmt.rsb = false ∧ s.ctxs = [] ∧ s.templates = []
    ∧ transition s.mgmt.lcs (lifeC.arg 16 1) = some true
    ∧ (({ s with challenge := none } : State).cmdRead lifeC (lifeC.arg 24 8) 128).isSome = true ∧ lifeC.path = .host ∧ lifeC.tag = 0 :=
  ⟨{ State.reset with challenge := some 3, mgmt := Mgmt.init 1 0 }, by decide +kernel⟩

theorem witness_lifecycle_free : ∃ s : State, s.challenge = some 3 ∧ transition s.mgmt.lcs 3 = some false ∧ s.ctxs = [] ∧ s.templates = []
    ∧ s.mgmt.rsb = false :=
  ⟨{ State.reset with challenge := some 3 }, by decide +kernel⟩

theorem witness_lifecycle_blank : ∃ s : State, s.mgmt.lcs = 0 ∧ s.devStore.staged = none ∧ (0, Core.init 0) ∈ s.cores :=
  ⟨{ State.reset with mgmt := Mgmt.init 1 0, cores := [(0, Core.init 0)] }, by decide, by decide, List.mem_cons_self⟩

/-- FIPS 180-4: the SHA-384 digest of the three bytes of "abc" begins with cb00753f and ends with 25a7. -/
theorem test_sha384 : (sha384 [0x61, 0x62, 0x63]).take 4 = [0xcb, 0x00, 0x75, 0x3f]
    ∧ (sha384 [0x61, 0x62, 0x63]).drop 46 = [0x25, 0xa7] := by decide +kernel

/-! Witnesses: the device. -/

/-- The module under a thermal stop, with a die at a temperature. -/
def hotS (temp : Nat) : State :=
  { State.reset with mgmt := { Mgmt.init 1 2 with therm := true }, dies := [(0, { Die.init with temp := temp })] }

theorem witness_thermal : (∃ d ∈ (hotS (70 * 16)).dies, 70 * 16 ≤ d.2.temp) ∧ (∀ d ∈ (hotS (70 * 16 - 1)).dies, d.2.temp < 70 * 16)
    ∧ (hotS 0).mgmt.therm = true ∧ (hotS (70 * 16)).resetAllowed = false ∧ (hotS (70 * 16 - 1)).resetAllowed = true :=
  ⟨⟨_, List.mem_cons_self, by decide⟩, by decide, rfl, by decide, by decide⟩

theorem witness_device_ready : State.reset.mgmt.ready = false ∧ (ringsS 0).mgmt.ready = true ∧ (ringsS 0).mgmt.started = true
    ∧ ({ State.reset with mgmt := { Mgmt.init 1 2 with ready := true } } : State).mgmt.started = false := by decide +kernel

theorem witness_defects : ∃ s : State, s.mgmt.ready = false ∧ s.defects = [(16, 5)] ∧ (5 : Nat) < 64 := ⟨{ State.reset with defects := [(16, 5)] }, by decide⟩

theorem witness_defects_scalar : ∃ s : State, s.mgmt.ready = false ∧ s.defects = [(16, 64)] := ⟨{ State.reset with defects := [(16, 64)] }, by decide⟩

theorem witness_registers : (State.reset.mgmt.lcs < 8 ∧ State.reset.mgmt.rcause < 256) ∧ (0x400 : Nat) ≤ 0x400
    ∧ 0x010 ∉ [0x000, 0x008, 0x018, 0x020, 0x080] ∧ (0b1000 : Word).getLsbD 3 = true ∧ (0b0001 : Word).getLsbD 3 = false := by decide +kernel

theorem witness_resync : (ringsS 0).mgmt.rsb = false ∧ (ringsS 0).mgmt.started = true ∧ (ringsS 0).commandsOpen = false
    ∧ ({ ringsS 0 with agenda := [.setsched (cmdOf .host [])] } : State).commandsOpen = true := by decide +kernel

theorem witness_power : State.reset.mgmt.powercap * 100 < 3001 * 10 ∧ 2950 * 10 + 500 ≤ State.reset.mgmt.powercap * 100
    ∧ (105 * 16 : Nat) < 1681 ∧ (1680 : Nat) ≤ 105 * 16 ∧ State.reset.mgmt.point ≤ 17 := by decide

end Sys2Proof.Tests
end

section
/-! SUPPORT. The elements of a vector register: what writing one leaves of it and of the others, and what the agnostic fill
leaves (R35, R36). -/

namespace Sys2Proof.Machine

theorem getLsbD_extract_elem (v : VReg) (sew i j : Nat) :
    (v.extractLsb' (i * sew) sew).getLsbD j = (decide (j < sew) && v.getLsbD (i * sew + j)) := by
  simp [BitVec.getLsbD_extractLsb']

/-- Two registers hold the same element where they hold the same bits. -/
theorem elemAt_congr {v w : VReg} {sew i : Nat} (h : ∀ j, j < sew → v.getLsbD (i * sew + j) = w.getLsbD (i * sew + j)) :
    elemAt v sew i = elemAt w sew i := by
  unfold elemAt
  congr 1
  refine BitVec.eq_of_getLsbD_eq fun j hj => ?_
  simp only [getLsbD_extract_elem, hj, h j hj]

/-- A bit of a register with an element replaced: the new value's within the element, as before elsewhere. -/
theorem getLsbD_elemSet (v : VReg) (sew i x k : Nat) :
    (elemSet v sew i x).getLsbD k
      = if i * sew ≤ k ∧ k < i * sew + sew then decide (k < 16384) && x.testBit (k - i * sew) else v.getLsbD k := by
  simp only [elemSet, BitVec.getLsbD_or, BitVec.getLsbD_and, BitVec.getLsbD_not, BitVec.getLsbD_shiftLeft,
    BitVec.getLsbD_ofNat, Nat.testBit_two_pow_sub_one, Nat.testBit_mod_two_pow]
  by_cases hk : k < 16384
  · have hsub : k - i * sew < 16384 := by omega
    by_cases hlo : i * sew ≤ k
    · have hhi : k < i * sew + sew ↔ k - i * sew < sew := by omega
      by_cases hin : k - i * sew < sew <;> simp [hk, hsub, hlo, Nat.not_lt.mpr hlo, hhi, hin]
    · simp [hk, hlo, Nat.lt_of_not_le hlo]
  · simp [BitVec.getLsbD_of_ge _ _ (Nat.le_of_not_lt hk), hk]

/-- An element read after it was written. -/
theorem elemAt_elemSet_same (v : VReg) (x : Nat) {sew i : Nat} (h : (i + 1) * sew ≤ 16384) :
    elemAt (elemSet v sew i x) sew i = x % 2 ^ sew := by
  refine Nat.eq_of_testBit_eq fun j => ?_
  rw [elemAt, BitVec.testBit_toNat, getLsbD_extract_elem, getLsbD_elemSet, Nat.testBit_mod_two_pow]
  rw [Nat.add_mul, Nat.one_mul] at h
  by_cases hj : j < sew
  · have hk : i * sew + j < 16384 := by omega
    simp [hj, hk]
  · simp [hj]

/-- The other elements keep their values. -/
theorem elemAt_elemSet_ne (v : VReg) (sew x : Nat) {i k : Nat} (h : k ≠ i) :
    elemAt (elemSet v sew i x) sew k = elemAt v sew k := by
  refine elemAt_congr fun j hj => ?_
  have hout : ¬ (i * sew ≤ k * sew + j ∧ k * sew + j < i * sew + sew) := by
    rintro ⟨hlo, hhi⟩
    rcases Nat.lt_or_gt_of_ne h with hlt | hgt
    · have := Nat.mul_le_mul_right sew hlt
      rw [Nat.succ_mul] at this
      omega
    · have := Nat.mul_le_mul_right sew hgt
      rw [Nat.succ_mul] at this
      omega
  rw [getLsbD_elemSet, if_neg hout]

/-- Bits below the first that is set to ones keep their values. -/
theorem getLsbD_onesFrom_below (v : VReg) (hi : Nat) {lo k : Nat} (h : k < lo) : (onesFrom v lo hi).getLsbD k = v.getLsbD k := by
  have hdvd : 2 ^ lo ∣ 2 ^ hi - 2 ^ lo := by
    rcases Nat.le_total lo hi with hle | hge
    · exact Nat.dvd_sub (Nat.pow_dvd_pow 2 hle) (Nat.dvd_refl _)
    · rw [Nat.sub_eq_zero_of_le (Nat.pow_le_pow_right (by decide) hge)]
      exact Nat.dvd_zero _
  obtain ⟨c, hc⟩ := hdvd
  simp [onesFrom, hc, Nat.mul_comm (2 ^ lo) c, BitVec.getLsbD_ofNat, Nat.testBit_mul_two_pow, Nat.not_le.mpr h]

/-- The elements below the agnostic fill keep their values. -/
theorem elemAt_onesFrom_below (v : VReg) (hi : Nat) {lo sew i : Nat} (h : (i + 1) * sew ≤ lo) :
    elemAt (onesFrom v lo hi) sew i = elemAt v sew i := by
  rw [Nat.add_mul, Nat.one_mul] at h
  exact elemAt_congr fun j hj => getLsbD_onesFrom_below v hi (by omega)

end Sys2Proof.Machine
end

section
/-! SUPPORT. An elementwise instruction as a whole, element by element: the fold of wholeVector, one element of its result, and
its flags (R36, R138). -/

namespace Sys2Proof

open Sys2Proof.Machine

/-- One element of an elementwise instruction into its destination and flags, its sources read as they stood in `t` (R36). -/
def Elementwise.step (e : Elementwise) (t : Hart) (f : Flight) (a : VReg × Fl) (i : Nat) : VReg × Fl :=
  if !e.m || (t.v.get 0).getLsbD i then
    match e.op f t i with
    | some q => (elemSet a.1 e.dsew i q.1, if f.vl - f.vpad ≤ i then a.2 else a.2.or q.2)
    | none => a
  else if e.agn then (elemSet a.1 e.dsew i (onesOf e.dsew), a.2)
  else a

/-- The destination and the flags once the first `k` elements are done. -/
def Elementwise.below (e : Elementwise) (t : Hart) (f : Flight) (k : Nat) : VReg × Fl :=
  (List.range k).foldl (e.step t f) (t.vget e.vd, Fl.none)

theorem Elementwise.below_zero (e : Elementwise) (t : Hart) (f : Flight) : e.below t f 0 = (t.vget e.vd, Fl.none) := rfl

theorem Elementwise.below_succ (e : Elementwise) (t : Hart) (f : Flight) (k : Nat) :
    e.below t f (k + 1) = e.step t f (e.below t f k) k := by
  simp [Elementwise.below, List.range_succ]

theorem wholeVector_of_empty (t : Hart) (e : Elementwise) {f : Flight} (h : f.vl = 0) :
    wholeVector t f e = (t.vget e.vd, Fl.none) := by
  simp [wholeVector, h]

/-- The whole of an instruction of some elements: all of them, then the agnostic fill. -/
theorem wholeVector_of_nonempty (t : Hart) (e : Elementwise) {f : Flight} (h : f.vl ≠ 0) :
    wholeVector t f e = (t.tailFill e.agn (f.vl * e.dsew) (e.below t f f.vl).1, (e.below t f f.vl).2) := by
  simp only [wholeVector, if_neg h]
  rfl

/-! One element of the result. -/

/-- An element that is active and has a value takes it. -/
theorem Elementwise.elemAt_step_same {e : Elementwise} {t : Hart} {f : Flight} {i : Nat} {q : Nat × Fl} (a : VReg × Fl)
    (hact : (!e.m || (t.v.get 0).getLsbD i) = true) (hop : e.op f t i = some q) (hfit : (i + 1) * e.dsew ≤ 16384) :
    elemAt (e.step t f a i).1 e.dsew i = q.1 % 2 ^ e.dsew := by
  simp [Elementwise.step, hact, hop, elemAt_elemSet_same _ _ hfit]

/-- An element leaves the others as they are. -/
theorem Elementwise.elemAt_step_ne (e : Elementwise) (t : Hart) (f : Flight) (a : VReg × Fl) {i k : Nat} (h : k ≠ i) :
    elemAt (e.step t f a i).1 e.dsew k = elemAt a.1 e.dsew k := by
  unfold Elementwise.step
  split
  · split
    · exact elemAt_elemSet_ne _ _ _ h
    · rfl
  · split
    · exact elemAt_elemSet_ne _ _ _ h
    · rfl

theorem Elementwise.elemAt_below {e : Elementwise} {t : Hart} {f : Flight} {i k : Nat} {q : Nat × Fl}
    (hact : (!e.m || (t.v.get 0).getLsbD i) = true) (hop : e.op f t i = some q) (hfit : (i + 1) * e.dsew ≤ 16384) (hi : i < k) :
    elemAt (e.below t f k).1 e.dsew i = q.1 % 2 ^ e.dsew := by
  induction k with
  | zero => exact absurd hi (Nat.not_lt_zero i)
  | succ k ih =>
    rw [Elementwise.below_succ]
    rcases Nat.lt_succ_iff_lt_or_eq.mp hi with hlt | rfl
    · rw [Elementwise.elemAt_step_ne _ _ _ _ (Nat.ne_of_lt hlt), ih hlt]
    · exact Elementwise.elemAt_step_same _ hact hop hfit

/-- An active element below vl, of a vector that its register holds, is the value of its operation. -/
theorem elemAt_wholeVector {e : Elementwise} {t : Hart} {f : Flight} {i : Nat} {q : Nat × Fl}
    (hact : (!e.m || (t.v.get 0).getLsbD i) = true) (hop : e.op f t i = some q) (hi : i < f.vl) (hfit : f.vl * e.dsew ≤ 16384) :
    elemAt (wholeVector t f e).1 e.dsew i = q.1 % 2 ^ e.dsew := by
  have hle : (i + 1) * e.dsew ≤ f.vl * e.dsew := Nat.mul_le_mul_right _ hi
  have hbelow := Elementwise.elemAt_below (k := f.vl) hact hop (hle.trans hfit) hi
  rw [wholeVector_of_nonempty t e (Nat.ne_zero_of_lt hi)]
  unfold Hart.tailFill
  split
  · rw [elemAt_onesFrom_below _ _ hle, hbelow]
  · exact hbelow

/-! The flags. -/

theorem Fl.none_or (a : Fl) : Fl.none.or a = a := by
  simp [Fl.or, Fl.none]

theorem Fl.or_none (a : Fl) : a.or Fl.none = a := by
  simp [Fl.or, Fl.none]

theorem Fl.or_assoc (a b c : Fl) : (a.or b).or c = a.or (b.or c) := by
  simp [Fl.or, Bool.or_assoc]

/-- vexc holds of two operations together the flags of each. -/
theorem Fl.bits_or (a b : Fl) : (a.or b).bits = a.bits ||| b.bits := by
  simp only [Fl.or, Fl.bits, ← BitVec.ofBool_or_ofBool, ← BitVec.or_append]

theorem Fl.bits_none : Fl.none.bits = 0 := rfl

/-- The flags of an element add to those before it, and its value does not depend on them. -/
theorem Elementwise.step_flags (e : Elementwise) (t : Hart) (f : Flight) (w : VReg) (fl : Fl) (i : Nat) :
    e.step t f (w, fl) i = ((e.step t f (w, Fl.none) i).1, fl.or (e.step t f (w, Fl.none) i).2) := by
  unfold Elementwise.step
  split
  · split
    · split <;> simp [Fl.none_or, Fl.or_none]
    · simp [Fl.or_none]
  · split <;> simp [Fl.or_none]

theorem Elementwise.foldl_flags (e : Elementwise) (t : Hart) (f : Flight) (l : List Nat) (w : VReg) (fl : Fl) :
    l.foldl (e.step t f) (w, fl)
      = ((l.foldl (e.step t f) (w, Fl.none)).1, fl.or (l.foldl (e.step t f) (w, Fl.none)).2) := by
  induction l generalizing w fl with
  | nil => simp [Fl.or_none]
  | cons i l ih =>
    rw [List.foldl_cons, List.foldl_cons, Elementwise.step_flags]
    generalize e.step t f (w, Fl.none) i = a
    rw [ih a.1 (fl.or a.2), ih a.1 a.2, Fl.or_assoc]

/-- An instruction whose elements raise no flag raises none. -/
theorem Elementwise.below_flags_none {e : Elementwise} {t : Hart} {f : Flight}
    (h : ∀ i q, e.op f t i = some q → q.2 = Fl.none) (k : Nat) : (e.below t f k).2 = Fl.none := by
  induction k with
  | zero => rfl
  | succ k ih =>
    rw [Elementwise.below_succ, Elementwise.step]
    split
    · split
      · rename_i q hq
        simp [ih, h k q hq, Fl.or_none]
      · exact ih
    · split <;> exact ih

theorem wholeVector_flags_none {e : Elementwise} {t : Hart} {f : Flight} (h : ∀ i q, e.op f t i = some q → q.2 = Fl.none) :
    (wholeVector t f e).2 = Fl.none := by
  by_cases h0 : f.vl = 0
  · rw [wholeVector_of_empty t e h0]
  · rw [wholeVector_of_nonempty t e h0]
    exact Elementwise.below_flags_none h f.vl

end Sys2Proof
end

section
/-! SUPPORT. An elementwise instruction in flight: its element groups, one after another, give what its elements give as a whole
(R38, R39, R139). -/

namespace Sys2Proof.Machine

open Sys2Proof

/-! A destination and flags in the hardware context. -/

/-- The hardware context with a result in a register, its flags accrued, and what is in flight. -/
def Hart.partway (t : Hart) (vd : Reg) (r : VReg × Fl) (l : List Flight) : Hart :=
  { (t.vset vd r.1).raise r.2 with chain := l }

@[simp] theorem Hart.partway_chain (t : Hart) (vd : Reg) (r : VReg × Fl) (l : List Flight) : (t.partway vd r l).chain = l := rfl

@[simp] theorem Hart.partway_vcfgst (t : Hart) (vd : Reg) (r : VReg × Fl) (l : List Flight) :
    (t.partway vd r l).vcfgst = t.vcfgst := rfl

theorem Hart.partway_v (t : Hart) (vd : Reg) (r : VReg × Fl) (l : List Flight) :
    (t.partway vd r l).v = t.v.set vd.val r.1 vd.isLt := rfl

theorem Hart.vget_of_set {h : Hart} {v : Vector VReg 32} {vd : Reg} {w : VReg} (hv : h.v = v.set vd.val w vd.isLt) (r : Reg) :
    h.vget r = if r = vd then w else v.get r := by
  rw [Hart.vget, hv]
  split
  · rename_i hr
    subst hr
    exact Vector.getElem_set_self r.isLt
  · rename_i hr
    exact Vector.getElem_set_ne vd.isLt r.isLt fun e => hr (Fin.ext e.symm)

/-- The result of some elements, then that of those after them. -/
theorem Hart.vset_raise_partway (t : Hart) (vd : Reg) (r : VReg × Fl) (w : VReg) (fl : Fl) (l : List Flight) :
    ((t.partway vd r l).vset vd w).raise fl = t.partway vd (w, r.2.or fl) l := by
  simp [Hart.partway, Hart.vset, Hart.raise, Fl.bits_or, BitVec.or_assoc]

/-- Before its first element an instruction has changed neither its destination nor a flag. -/
theorem Hart.partway_none (t : Hart) (vd : Reg) : t.partway vd (t.vget vd, Fl.none) t.chain = t := by
  have hset : t.v.set vd.val (t.v.get vd) vd.isLt = t.v := Vector.set_getElem_self vd.isLt
  simp [Hart.partway, Hart.vset, Hart.raise, Hart.vget, hset, Fl.bits_none]

/-! One flight alone in the chain. -/

/-- A flight as it stands at an element. -/
def Flight.atElem (f : Flight) (k : Nat) : Flight := { f with idx := k }

@[simp] theorem Flight.atElem_vl (f : Flight) (k : Nat) : (f.atElem k).vl = f.vl := rfl
@[simp] theorem Flight.atElem_id (f : Flight) (k : Nat) : (f.atElem k).id = f.id := rfl
@[simp] theorem Flight.atElem_atElem (f : Flight) (k l : Nat) : (f.atElem k).atElem l = f.atElem l := rfl

@[simp] theorem Hart.setFlight_partway (t : Hart) (vd : Reg) (r : VReg × Fl) (f : Flight) (k l : Nat) :
    (t.partway vd r [f.atElem k]).setFlight (f.atElem l) = t.partway vd r [f.atElem l] := by
  simp [Hart.setFlight, Hart.partway]

@[simp] theorem Hart.endFlight_partway (t : Hart) (vd : Reg) (r : VReg × Fl) (f : Flight) (k : Nat) :
    (t.partway vd r [f.atElem k]).endFlight f.id = t.partway vd r [] := by
  simp [Hart.endFlight, Hart.partway]

/-- A flight alone in the chain goes on where its move says that there is more. -/
theorem State.runFlight_of_more {s s' : State} {f f' : Flight} {mv : Flight → State → Move} (h : s.me.chain = [f])
    (hmv : mv f s = .more f' s') (fuel : Nat) :
    s.runFlight mv f.id (fuel + 1) = (s'.onMe (fun t => t.setFlight f')).runFlight mv f.id fuel := by
  simp [State.runFlight, h, hmv]

/-- A flight alone in the chain leaves it where its move says that it is over. -/
theorem State.runFlight_of_over {s s' : State} {f : Flight} {mv : Flight → State → Move} (h : s.me.chain = [f])
    (hmv : mv f s = .over s') (hhold : s'.hold = false) (fuel : Nat) :
    s.runFlight mv f.id (fuel + 1) = s'.onMe (fun t => t.endFlight f.id) := by
  simp [State.runFlight, h, hmv, State.moved, Hart.endWindow, hhold]

/-! One element group. -/

/-- What lets an elementwise instruction run group by group: an element computed when those below it are written is what it
was of the sources as they stood before the instruction, and a masked instruction does not write the mask. -/
structure Groupwise (e : Elementwise) (t : Hart) (f : Flight) (op : ElemOp) : Prop where
  mask : e.m = true → e.vd ≠ 0
  elem : ∀ (h : Hart) (k i : Nat), h.v = t.v.set e.vd.val (e.below t f k).1 e.vd.isLt → k ≤ i → i < f.vl →
    op h (f.atElem k) i = e.op f t i

/-- The elements of a group continue those before it. -/
theorem Flight.range_append_group {f : Flight} {n j : Nat} (hn : 0 < n) (hj : j * n ≤ f.vl) :
    List.range (j * n) ++ (f.atElem (j * n)).group n = List.range (min f.vl ((j + 1) * n)) := by
  have hle : j * n ≤ min f.vl ((j + 1) * n) := le_min hj (Nat.mul_le_mul_right n (Nat.le_succ j))
  simp only [Flight.atElem, Flight.group, Flight.groupEnd, Nat.mul_div_cancel j hn, ← List.range_add,
    Nat.add_sub_cancel' hle]

theorem Flight.mem_group {f : Flight} {n i : Nat} (h : i ∈ f.group n) : f.idx ≤ i ∧ i < f.vl := by
  simp only [Flight.group, List.mem_map, List.mem_range] at h
  omega

section
variable {e : Elementwise} {t t0 : Hart} {f : Flight} {op : ElemOp} {n j : Nat}

/-- An element of a group is the step of the whole instruction. -/
theorem Groupwise.vaElem_eq_step (hg : Groupwise e t0 f op) {h : Hart} {k i : Nat}
    (hv : h.v = t0.v.set e.vd.val (e.below t0 f k).1 e.vd.isLt) (hk : k ≤ i) (hi : i < f.vl) (a : VReg × Fl) :
    h.vaElem (f.atElem k) e.m e.agn e.dsew op a i = e.step t0 f a i := by
  have hact : h.activeAt e.m i = (!e.m || (t0.v.get 0).getLsbD i) := by
    cases hm : e.m with
    | false => rfl
    | true =>
      have h0 := Hart.vget_of_set hv 0
      rw [if_neg (hg.mask hm).symm] at h0
      simp only [Hart.activeAt, maskBit, ← h0]
      rfl
  have hpad : (f.atElem k).pad i = decide (f.vl - f.vpad ≤ i) := rfl
  unfold Hart.vaElem Elementwise.step
  rw [hact, hg.elem h k i hv hk hi]
  cases e.op f t0 i with
  | none => rfl
  | some q => simp only [hpad, decide_eq_true_eq]

/-- A group leaves the destination and the flags of the elements up to its end. -/
theorem Groupwise.foldl_group (hg : Groupwise e t0 f op) (hn : 0 < n) (hj : j * n ≤ f.vl) {h : Hart} {r : VReg × Fl}
    (hv : h.v = t0.v.set e.vd.val (e.below t0 f (j * n)).1 e.vd.isLt)
    (hr : r = ((f.atElem (j * n)).group n).foldl (h.vaElem (f.atElem (j * n)) e.m e.agn e.dsew op) (h.vget e.vd, Fl.none)) :
    (r.1, (e.below t0 f (j * n)).2.or r.2) = e.below t0 f (min f.vl ((j + 1) * n)) := by
  have hget : h.vget e.vd = (e.below t0 f (j * n)).1 := by rw [Hart.vget_of_set hv, if_pos rfl]
  have hstep : r = ((f.atElem (j * n)).group n).foldl (e.step t0 f) ((e.below t0 f (j * n)).1, Fl.none) := by
    rw [hr, hget]
    exact List.foldl_ext _ _ _ fun a i hi => hg.vaElem_eq_step hv (Flight.mem_group hi).1 (Flight.mem_group hi).2 a
  calc (r.1, (e.below t0 f (j * n)).2.or r.2)
      = ((f.atElem (j * n)).group n).foldl (e.step t0 f) (e.below t0 f (j * n)) := by
        rw [hstep, ← Elementwise.foldl_flags]
    _ = e.below t0 f (min f.vl ((j + 1) * n)) := by
        rw [Elementwise.below, Elementwise.below, ← List.foldl_append, Flight.range_append_group hn hj]

/-- One move of an instruction of some elements. -/
theorem vaMove_of_nonempty (m agn : Bool) (vd : Reg) (dsew n : Nat) (op : ElemOp) {f : Flight} {s : State} {r : VReg × Fl}
    (h : f.vl ≠ 0) (hr : r = (f.group n).foldl (s.me.vaElem f m agn dsew op) (s.me.vget vd, Fl.none)) :
    vaMove m agn vd dsew n op f s
      = if f.vl ≤ f.groupEnd n then
          .over (s.onMe (fun t => (t.vset vd (s.me.tailFill agn (f.vl * dsew) r.1)).raise r.2))
        else .more (f.atElem (f.groupEnd n)) (s.onMe (fun t => (t.vset vd r.1).raise r.2)) := by
  subst hr
  by_cases hlast : f.vl ≤ f.groupEnd n <;> simp [vaMove, h, hlast, Flight.atElem]

theorem vaMove_of_empty (m agn : Bool) (vd : Reg) (dsew n : Nat) (op : ElemOp) {f : Flight} (h : f.vl = 0) (s : State) :
    vaMove m agn vd dsew n op f s = .over s := by
  simp [vaMove, h]

/-- One move of an elementwise instruction: a group more, or, with the last one, the whole. -/
theorem Groupwise.vaMove_partway (hg : Groupwise e t0 f op) (hn : 0 < n) (hj : j * n < f.vl) (hv : t.v = t0.v)
    (hcfg : t.vcfgst = t0.vcfgst) (s : State) (l : List Flight) :
    vaMove e.m e.agn e.vd e.dsew n op (f.atElem (j * n)) (s.onMe (fun _ => t.partway e.vd (e.below t0 f (j * n)) l))
      = if f.vl ≤ (j + 1) * n then .over (s.onMe (fun _ => t.partway e.vd (wholeVector t0 f e) l))
        else .more (f.atElem ((j + 1) * n)) (s.onMe (fun _ => t.partway e.vd (e.below t0 f ((j + 1) * n)) l)) := by
  have h0 : f.vl ≠ 0 := Nat.ne_zero_of_lt hj
  have hend : (f.atElem (j * n)).groupEnd n = (j + 1) * n := by
    simp [Flight.atElem, Flight.groupEnd, Nat.mul_div_cancel j hn]
  have hmove := vaMove_of_nonempty e.m e.agn e.vd e.dsew n op (f := f.atElem (j * n))
    (s := s.onMe (fun _ => t.partway e.vd (e.below t0 f (j * n)) l)) h0 rfl
  rw [State.me_onMe, hend, Flight.atElem_vl, Flight.atElem_atElem, State.onMe_onMe, State.onMe_onMe] at hmove
  have hgroup := hg.foldl_group hn hj.le (h := t.partway e.vd (e.below t0 f (j * n)) l)
    (by rw [Hart.partway_v, hv]) rfl
  generalize ((f.atElem (j * n)).group n).foldl _ _ = r at hmove hgroup
  have hfill : (t.partway e.vd (e.below t0 f (j * n)) l).tailFill = t0.tailFill := by
    funext agn lo w
    simp only [Hart.tailFill, Hart.partway_vcfgst, hcfg]
  simp only [Hart.vset_raise_partway, hfill, hgroup] at hmove
  rw [hmove]
  by_cases hlast : f.vl ≤ (j + 1) * n
  · rw [min_eq_left hlast] at hgroup
    rw [if_pos hlast, if_pos hlast, wholeVector_of_nonempty t0 e h0, ← hgroup]
  · rw [min_eq_right (Nat.le_of_not_le hlast)] at hgroup
    rw [if_neg hlast, if_neg hlast, min_eq_right (Nat.le_of_not_le hlast)]

/-! The run. -/

/-- From an element group on, an elementwise instruction runs to the whole. -/
theorem Groupwise.runFlight_from (hg : Groupwise e t0 f op) (hn : 0 < n) (hv : t.v = t0.v) (hcfg : t.vcfgst = t0.vcfgst)
    {mv : Flight → State → Move} (hmv : ∀ k s, mv (f.atElem k) s = vaMove e.m e.agn e.vd e.dsew n op (f.atElem k) s)
    {s : State} (hs : s.hold = false) (fuel : Nat) (hj : j * n < f.vl) (hfuel : f.vl ≤ (j + fuel) * n) :
    (s.onMe (fun _ => t.partway e.vd (e.below t0 f (j * n)) [f.atElem (j * n)])).runFlight mv f.id fuel
      = s.onMe (fun _ => t.partway e.vd (wholeVector t0 f e) []) := by
  induction fuel generalizing j with
  | zero => exact absurd hfuel (Nat.not_le_of_lt hj)
  | succ fuel ih =>
    have hmove := (hmv (j * n) _).trans (hg.vaMove_partway hn hj hv hcfg s [f.atElem (j * n)])
    by_cases hlast : f.vl ≤ (j + 1) * n
    · rw [if_pos hlast] at hmove
      refine (State.runFlight_of_over (by simp) hmove (by simpa using hs) fuel).trans ?_
      simp
    · rw [if_neg hlast] at hmove
      refine (State.runFlight_of_more (by simp) hmove fuel).trans ?_
      simp only [State.onMe_onMe, Hart.setFlight_partway, Flight.atElem_id]
      exact ih (Nat.lt_of_not_le hlast) (by rwa [Nat.add_right_comm])

/-- An elementwise instruction that has been launched runs to the whole (R38, R39). -/
theorem Groupwise.runFlight_whole (hg : Groupwise e t0 f op) (hn : 0 < n) (hv : t.v = t0.v) (hcfg : t.vcfgst = t0.vcfgst)
    {mv : Flight → State → Move} (hmv : ∀ k s, mv (f.atElem k) s = vaMove e.m e.agn e.vd e.dsew n op (f.atElem k) s)
    {s : State} (hs : s.hold = false) (hchain : t.chain = [f]) (hidx : f.idx = 0) {fuel : Nat} (hfuel : f.vl ≤ (fuel + 1) * n) :
    (s.onMe (fun _ => t)).runFlight mv f.id (fuel + 1) = s.onMe (fun _ => t.partway e.vd (wholeVector t0 f e) []) := by
  have hf : f.atElem 0 = f := by rw [← hidx]; rfl
  have hget : t0.vget e.vd = t.vget e.vd := by rw [Hart.vget, Hart.vget, hv]
  have hstart : t.partway e.vd (t0.vget e.vd, Fl.none) [f] = t := by
    rw [hget, ← hchain, Hart.partway_none]
  by_cases h0 : f.vl = 0
  · have hmove : mv f (s.onMe (fun _ => t)) = .over (s.onMe (fun _ => t)) := by
      have := hmv 0 (s.onMe (fun _ => t))
      rwa [hf, vaMove_of_empty _ _ _ _ _ _ h0] at this
    refine (State.runFlight_of_over (by simpa using hchain) hmove (by simpa using hs) fuel).trans ?_
    rw [wholeVector_of_empty t0 e h0, State.onMe_onMe, ← Hart.endFlight_partway t e.vd _ f 0, hf, hstart]
  · have hrun := hg.runFlight_from (j := 0) hn hv hcfg hmv hs (fuel + 1) (by omega) (by simpa using hfuel)
    rwa [Nat.zero_mul, Elementwise.below_zero, hf, hstart] at hrun

end

end Sys2Proof.Machine
end

section
/-! SUPPORT. The issue of a vector instruction on a hardware context that is ready for it, and an elementwise instruction from
its issue to its end (R30, R37, R39, R101, R139). -/

namespace Sys2Proof.Machine

open Sys2Proof

theorem State.sameElse_refl (s : State) : s.sameElse s := ⟨rfl, fun _ => rfl, fun _ _ => rfl⟩

/-- A state that differs in the executing hardware context alone has every field but the cores. -/
theorem State.sameElse_eq {s t : State} (h : s.sameElse t) : t = { s with cores := t.cores } := by
  obtain ⟨hrest, -, -⟩ := h
  rw [← hrest]

theorem State.sameElse_trans {s t u : State} (h1 : s.sameElse t) (h2 : t.sameElse u) : s.sameElse u := by
  have hcur : t.cur = s.cur := by rw [State.sameElse_eq h1]
  obtain ⟨r1, c1, j1⟩ := h1
  obtain ⟨r2, c2, j2⟩ := h2
  refine ⟨?_, fun c => (c2 c).trans (c1 c), fun j hj => (j2 j (hcur ▸ hj)).trans (j1 j hj)⟩
  rw [← r1, ← r2]

theorem State.capmask_of_sameElse {s t : State} (h : s.sameElse t) : t.myCore.capmask = s.myCore.capmask := by
  have hcur : t.cur = s.cur := by rw [State.sameElse_eq h]
  obtain ⟨-, hcore, -⟩ := h
  rw [State.myCore, State.myCore, hcur]
  change (t.core s.cur.core).bare.capmask = (s.core s.cur.core).bare.capmask
  rw [hcore]

/-! Where registers lie. -/

/-- A hardware context whose registers lie elsewhere between pool and annex (R29). -/
def Hart.placed (t : Hart) (res zm : List RegName) : Hart := { t with resident := res, zeroMarks := zm }

/-- A state that differs in where registers of the executing hardware context lie, and in nothing that a program sees (R29,
R32). -/
structure State.PlacedAs (s u : State) : Prop where
  frame : s.sameElse u
  hart : ∃ res zm, u.me = s.me.placed res zm

theorem State.placedAs_onMe (s : State) {g : Hart → Hart} (h : ∃ res zm, g s.me = s.me.placed res zm) :
    s.PlacedAs (s.onMe g) :=
  ⟨State.sameElse_onMe s g, by rwa [State.me_onMe]⟩

theorem State.placedAs_refl (s : State) : s.PlacedAs s := ⟨State.sameElse_refl s, _, _, rfl⟩

/-- A hardware context stays ready wherever its registers lie. -/
theorem vectorReady_of_placedAs {s u : State} {cls : Nat} (hr : vectorReady s cls) (hu : s.PlacedAs u) : vectorReady u cls := by
  obtain ⟨hframe, res, zm, hme⟩ := hu
  obtain ⟨⟨hchain, hwin⟩, hhold, hcfg, hannex, hbad, hsoft, hcap⟩ := hr
  have hcores := State.sameElse_eq hframe
  refine ⟨⟨?_, ?_⟩, ?_, ?_, ?_, ?_, ?_, ?_⟩
  · rw [hme]; exact hchain
  · rw [hme]; exact hwin
  · rw [hcores]; exact hhold
  · rw [hme]; exact hcfg
  · rw [hme, hcores]; exact hannex
  · rw [hcores]; exact hbad
  · rw [hcores]; exact hsoft
  · rw [State.capmask_of_sameElse hframe]; exact hcap

/-! Issue. -/

/-- The annex swap of an instruction that is ready meets no error (R30). -/
theorem State.annexed_ready {s : State} {cls : Nat} (hr : vectorReady s cls) (u : Uses) (k : State → Out) :
    ∃ s1, s.PlacedAs s1 ∧ s.annexed u k = k s1 := by
  obtain ⟨hidle, -, -, hannex, -⟩ := hr
  unfold State.annexed
  dsimp only
  split
  · rw [State.drained_idle hidle, hannex]
    exact ⟨_, State.placedAs_onMe s ⟨_, _, rfl⟩, rfl⟩
  · split
    · exact ⟨_, State.placedAs_onMe s ⟨_, _, rfl⟩, rfl⟩
    · exact ⟨s, State.placedAs_refl s, rfl⟩

/-- A vector instruction that is defined under its format passes the checks of issue where the hardware context is ready. -/
theorem State.issueVec_ready {s : State} {cls : Nat} (hr : vectorReady s cls) (i : Instr) (k : State → Out) :
    ∃ s1, s.PlacedAs s1 ∧ s.issueVec i true true (some cls) k = k s1 := by
  obtain ⟨s1, hplaced, hannexed⟩ :=
    State.annexed_ready hr (s.usesNow i) (fun s1 => s1.classed (some cls) (fun s1 => s1.pooled (s1.usesNow i) k))
  refine ⟨s1, hplaced, ?_⟩
  have hr1 := vectorReady_of_placedAs hr hplaced
  obtain ⟨hidle, -, hcfg, -⟩ := hr
  obtain ⟨-, -, -, -, hbad, hsoft, hcap⟩ := hr1
  calc s.issueVec i true true (some cls) k
      = s.annexed (s.usesNow i) (fun s1 => s1.classed (some cls) (fun s1 => s1.pooled (s1.usesNow i) k)) := by
        simp [State.issueVec, hcfg, State.lookahead_idle hidle]
    _ = s1.classed (some cls) (fun s1 => s1.pooled (s1.usesNow i) k) := hannexed
    _ = k s1 := by simp [State.classed, State.pooled, hcap, hbad, hsoft]

/-- An instruction that goes into flight on an idle hardware context runs at once (log 7). -/
theorem State.fly_idle {s : State} (h : s.idle) (hhold : s.hold = false) (i : Instr) (l : Nat) (windowed : Bool) (xa xb : Word)
    (moves : Nat) (mv : Flight → State → Move) :
    s.fly i l windowed xa xb moves mv
      = .next ((s.onMe (fun _ => s.me.launch i l windowed xa xb)).runFlight mv s.me.nextId moves) := by
  simp only [State.fly, hhold, State.unchained_idle h]
  rfl

theorem Hart.launch_chain_idle {s : State} (h : s.idle) (i : Instr) (xa xb : Word) :
    (s.me.launch i 0 false xa xb).chain = [flightOf s i xa xb] := by
  obtain ⟨hchain, -⟩ := h
  simp [Hart.launch, hchain, flightOf, State.pc]

@[simp] theorem Hart.launch_v (t : Hart) (i : Instr) (l : Nat) (windowed : Bool) (xa xb : Word) :
    (t.launch i l windowed xa xb).v = t.v := rfl
@[simp] theorem Hart.launch_vcfgst (t : Hart) (i : Instr) (l : Nat) (windowed : Bool) (xa xb : Word) :
    (t.launch i l windowed xa xb).vcfgst = t.vcfgst := rfl

/-! From issue to end. -/

/-- What an elementwise instruction has done when it has run to its end: its destination and flags are those of its elements,
and nothing else that a program sees has changed but the pc (R22, R36). -/
def elementwiseDone (s t : State) (f : Flight) (e : Elementwise) : Prop :=
  vectorDone s t ∧ t.me.vget e.vd = (wholeVector s.me f e).1 ∧ t.me.vexc = s.me.vexc ||| (wholeVector s.me f e).2.bits
    ∧ (∀ r, r ≠ e.vd → t.me.vget r = s.me.vget r) ∧ t.me.d = s.me.d ∧ t.me.vsrng = s.me.vsrng

/-- The hardware context once an instruction launched from it has run to a result. -/
theorem Hart.launch_partway {t : Hart} (hwin : t.windows = []) (i : Instr) (xa xb : Word) (vd : Reg) (r : VReg × Fl) :
    (t.launch i 0 false xa xb).partway vd r []
      = { t with pc := t.pc + 4, v := t.v.set vd.val r.1 vd.isLt, vexc := t.vexc ||| r.2.bits, chain := [],
                 nextId := t.nextId + 1, minstret := t.minstret + 1 } := by
  simp [Hart.partway, Hart.vset, Hart.raise, Hart.launch, Hart.complete, Hart.passWindows, hwin]

/-- An instruction launched where registers lie anew, and run to a result, is done. -/
theorem elementwiseDone_of_launch {s u : State} (hidle : s.idle) (hu : s.PlacedAs u) (i : Instr) (xb : Word) (f : Flight)
    (e : Elementwise) :
    elementwiseDone s (u.onMe (fun _ => (u.me.launch i 0 false 0 xb).partway e.vd (wholeVector s.me f e) [])) f e := by
  obtain ⟨hframe, res, zm, hme⟩ := hu
  obtain ⟨-, hwin⟩ := hidle
  have hwin' : u.me.windows = [] := by rw [hme]; exact hwin
  have helse := State.sameElse_trans hframe (State.sameElse_onMe u
    (fun _ => (u.me.launch i 0 false 0 xb).partway e.vd (wholeVector s.me f e) []))
  have hland := State.me_onMe u (fun _ => (u.me.launch i 0 false 0 xb).partway e.vd (wholeVector s.me f e) [])
  rw [Hart.launch_partway hwin', hme] at hland helse ⊢
  generalize u.onMe _ = t at hland helse ⊢
  have hvget (r : Reg) : t.me.vget r = if r = e.vd then (wholeVector s.me f e).1 else s.me.vget r :=
    Hart.vget_of_set (v := s.me.v) (by rw [hland]; rfl) r
  have hx (r : Reg) : t.x r = s.x r := by rw [State.x, hland]; rfl
  have hvd : t.me.vget e.vd = (wholeVector s.me f e).1 := by rw [hvget, if_pos rfl]
  have hothers : ∀ r, r ≠ e.vd → t.me.vget r = s.me.vget r := fun r hr => by rw [hvget, if_neg hr]
  have hdone : vectorDone s t := by
    unfold vectorDone State.pc
    rw [hland]
    exact ⟨rfl, rfl, hwin, hx, rfl, rfl, rfl, rfl, rfl, rfl, rfl, rfl, rfl, rfl, rfl, rfl, helse⟩
  exact ⟨hdone, hvd, by rw [hland]; rfl, hothers, by rw [hland]; rfl, by rw [hland]; rfl⟩

/-- A vector instruction whose moves are element groups runs from its issue to its end (R38, R39, R139). -/
theorem State.vaIssue_elementwise {s : State} {i : Instr} {v : VaSrc} {immAny : Bool} {fmtOk : Fmt → Bool} {cls : Fmt → Nat}
    {mv : Flight → State → Move} {f : Fmt} {fl : Flight} {e : Elementwise} {op : ElemOp} {n : Nat} (hf : s.fmt = some f)
    (hr : vectorReady s (cls f)) (hok : (s.me.fmtFits f && fmtOk f && (immAny || !v.isImm || f.isInt)) = true)
    (hfl : fl = flightOf s i 0 (s.vaScalar v)) (hg : Groupwise e s.me fl op)
    (hmv : ∀ k s, mv (fl.atElem k) s = vaMove e.m e.agn e.vd e.dsew n op (fl.atElem k) s) (hn : 0 < n)
    (hfuel : fl.vl ≤ groupMoves * n) :
    ∃ t, s.vaIssue i v immAny fmtOk cls mv = .next t ∧ elementwiseDone s t fl e := by
  obtain ⟨u, hplaced, hissue⟩ := State.issueVec_ready hr i (fun s => s.fly i 0 false 0 (s.vaScalar v) groupMoves mv)
  obtain ⟨huidle, huhold, -⟩ := vectorReady_of_placedAs hr hplaced
  refine ⟨_, ?_, elementwiseDone_of_launch hr.1 hplaced i (s.vaScalar v) fl e⟩
  obtain ⟨res, zm, hme⟩ := hplaced.hart
  have hscalar : u.vaScalar v = s.vaScalar v := by
    cases v with
    | vx r => rw [State.vaScalar, State.x, hme]; rfl
    | vv r => rfl
    | vi k => rfl
  have hflight : flightOf u i 0 (s.vaScalar v) = fl := by
    rw [hfl]
    simp only [flightOf, State.pc, hme]
    rfl
  have hid : u.me.nextId = fl.id := by rw [← hflight]; rfl
  have hchain : (u.me.launch i 0 false 0 (s.vaScalar v)).chain = [fl] := by rw [Hart.launch_chain_idle huidle, hflight]
  have hrun := hg.runFlight_whole hn (t := u.me.launch i 0 false 0 (s.vaScalar v)) (by rw [Hart.launch_v, hme]; rfl)
    (by rw [Hart.launch_vcfgst, hme]; rfl) hmv huhold hchain (by rw [hfl]; rfl) (fuel := 139) hfuel
  calc s.vaIssue i v immAny fmtOk cls mv
      = s.issueVec i true true (some (cls f)) (fun s => s.fly i 0 false 0 (s.vaScalar v) groupMoves mv) := by
        simp only [State.vaIssue, hf, hok]
    _ = u.fly i 0 false 0 (s.vaScalar v) groupMoves mv := by rw [hissue, hscalar]
    _ = _ := by rw [State.fly_idle huidle huhold, hid]; exact congrArg Host.Outcome.next hrun

end Sys2Proof.Machine
end

section
/-! SUPPORT. The widths of elements, and how many groups a vector has at most (R27, R50, R139). -/

namespace Sys2Proof.Machine

open Sys2Proof

/-- The elements of a format are 4 to 64 bits wide (R50). -/
theorem Fmt.sew_of_code {c : Nat} {f : Fmt} (h : Fmt.ofCode c = some f) : f.sew ∈ [4, 8, 16, 32, 64] := by
  have hint : ∀ k < 4, 8 * 2 ^ k ∈ [4, 8, 16, 32, 64] := by decide
  unfold Fmt.ofCode at h
  split at h
  · cases h
    exact hint c ‹_›
  · split at h
    · cases h
      exact hint (c - 4) (by omega)
    · split at h
      · cases h
        change (if c / 4 % 4 ≤ 1 then 8 else 4) ∈ [4, 8, 16, 32, 64]
        split <;> decide
      · split at h <;> cases h <;> decide

/-- Whole elements fill the 256 bits of a group (R139). -/
theorem perGroup_mul_sew {c : Nat} {f : Fmt} (h : Fmt.ofCode c = some f) : perGroup f.sew * f.sew = 256 := by
  have hwidths : ∀ w ∈ [4, 8, 16, 32, 64], perGroup w * w = 256 := by decide
  exact hwidths f.sew (Fmt.sew_of_code h)

/-- The bits of a vector under a format that fits the configuration lie in its register (R27, R37). -/
theorem Hart.vl_mul_sew_le {t : Hart} {f : Fmt} (hl : t.lengthFits) (hf : t.fmtFits f = true) : t.vl.toNat * f.sew ≤ 16384 := by
  obtain ⟨hbits, hvlen, -⟩ := hl
  have hsew : f.sew ≤ cfgWidth t.vcfgst := by
    simp only [Hart.fmtFits, Bool.and_eq_true, decide_eq_true_eq] at hf
    exact hf.1
  exact (Nat.mul_le_mul_left _ hsew).trans (hbits.trans hvlen)

/-- The element groups of a vector are no more than an instruction may move (R27, R139). -/
theorem Hart.vl_le_groups {t : Hart} {c : Nat} {f : Fmt} (hc : Fmt.ofCode c = some f) (hl : t.lengthFits)
    (hf : t.fmtFits f = true) : t.vl.toNat ≤ groupMoves * perGroup f.sew := by
  have hbits := Hart.vl_mul_sew_le hl hf
  have hgroup := perGroup_mul_sew hc
  have hpos : 0 < f.sew := Nat.pos_of_ne_zero fun h0 => by simp [h0] at hgroup
  refine Nat.le_of_mul_le_mul_right ?_ hpos
  rw [Nat.mul_assoc, hgroup, groupMoves]
  omega

end Sys2Proof.Machine
end

section
/-! CERTIFICATES. The vector arithmetic instructions: vid. -/

namespace Sys2Proof

open Sys2Proof.Machine Sys2Proof.Spec

/-- vid as an elementwise instruction: element i becomes its index, and no flag is raised (R164). -/
def vidElementwise (o : VuArgs) (fl : Flight) : Elementwise :=
  { oneSource o fl (fun _ _ a => (a, Fl.none)) Fmt.isInt Fmt.arithClass with
    op := fun f _ i => some (i % 2 ^ f.sew, Fl.none) }

theorem elementwise_vid (o : VuArgs) (fl : Flight) : elementwise (.vid o) fl = some (vidElementwise o fl) := rfl

/-- The format that a flight captured at issue is the one that it issued under. -/
theorem fmt_flightOf {s : State} {f : Fmt} (h : s.fmt = some f) (i : Instr) (xa xb : Word) : (flightOf s i xa xb).fmt = f := by
  have hcode : Fmt.ofCode (vtFmt (flightOf s i xa xb).vtype) = some f := h
  rw [Flight.fmt, hcode, Option.getD_some]

theorem sew_flightOf {s : State} {f : Fmt} (h : s.fmt = some f) (i : Instr) (xa xb : Word) :
    (flightOf s i xa xb).sew = f.sew := by
  rw [Flight.sew, fmt_flightOf h]

/-- vid reads no register but the mask, so none of its groups hangs on another. -/
theorem groupwise_vid {o : VuArgs} (hmask : o.maskOk = true) (t : Hart) (fl : Flight) :
    Groupwise (vidElementwise o fl) t fl (fun _ f i => some (i % 2 ^ f.sew, Fl.none)) where
  mask := fun (hm : o.m = true) => show o.vd ≠ 0 by simpa [VuArgs.maskOk, hm] using hmask
  elem := fun _ _ _ _ _ _ => rfl

/-- vid runs from its issue to its end (R164). -/
theorem exec_vid {s : State} {o : VuArgs} {f : Fmt} {fl : Flight} (hmask : o.maskOk = true) (hf : s.fmt = some f)
    (hint : f.isInt = true) (hr : vectorReady s f.arithClass) (hl : s.me.lengthFits) (hfit : s.me.fmtFits f = true)
    (hfl : fl = flightOf s (.vid o) 0 0) :
    ∃ t, exec (.vid o) s = .next t ∧ elementwiseDone s t fl (vidElementwise o fl) := by
  have hsew : fl.sew = f.sew := by rw [hfl, sew_flightOf hf]
  have hpos : 0 < perGroup fl.sew := Nat.pos_of_ne_zero fun h0 => by simpa [← hsew, h0] using perGroup_mul_sew hf
  have hgroups : fl.vl ≤ groupMoves * perGroup fl.sew := by
    rw [hsew, hfl]
    exact Hart.vl_le_groups hf hl hfit
  exact State.vaIssue_elementwise (v := .vv 0) (mv := goVid o) hf hr (by simp [hfit, hint, VaSrc.isImm]) hfl
    (groupwise_vid hmask s.me fl) (fun _ _ => rfl) hpos hgroups

/-- Settles O26: vid runs group by group to the fold of its elements, in which an active one is its index (R164). -/
theorem vidNumbersTheActiveElements : Obligations.VidNumbersTheActiveElements := by
  unfold Obligations.VidNumbersTheActiveElements
  intro s o f hwf hf hint hr hl hfit
  have hwf' : (o.maskOk && o.vs2 == 0) = true := hwf
  obtain ⟨hmask, hvs2⟩ : o.maskOk = true ∧ o.vs2 = 0 := by simpa using hwf'
  obtain ⟨fl, hfl⟩ : ∃ fl, fl = flightOf s (.vid o) 0 0 := ⟨_, rfl⟩
  obtain ⟨t, hexec, hdone, hvd, hvexc, hothers, hd, -⟩ := exec_vid hmask hf hint hr hl hfit hfl
  have hsew : fl.sew = f.sew := by rw [hfl, sew_flightOf hf]
  have hvl : fl.vl = s.me.vl.toNat := by rw [hfl]; rfl
  refine ⟨hvs2, t, hexec, hdone, fun i hi hact => ?_, hothers, hd, ?_⟩
  · have hbits : fl.vl * fl.sew ≤ 16384 := by rw [hvl, hsew]; exact Hart.vl_mul_sew_le hl hfit
    have helem := elemAt_wholeVector (e := vidElementwise o fl) hact rfl (hvl ▸ hi) hbits
    calc elemAt (t.me.vget o.vd) f.sew i
        = elemAt (wholeVector s.me fl (vidElementwise o fl)).1 fl.sew i := by rw [hsew, ← hvd]; rfl
      _ = i % 2 ^ fl.sew % 2 ^ fl.sew := helem
      _ = i % 2 ^ f.sew := by rw [Nat.mod_mod, hsew]
  · have hflags : (wholeVector s.me fl (vidElementwise o fl)).2 = Fl.none :=
      wholeVector_flags_none fun i q hq => by cases hq; rfl
    rw [hvexc, hflags, Fl.bits_none]
    exact BitVec.or_zero

end Sys2Proof
end

section
/-! SUPPORT. The decoder on the bytes of a word put together from its fields (R81, R83, R101). -/

namespace Sys2Proof

/-! One field of a word, past those below it. -/

theorem Parts.op_toWord (p : Parts) : p.toWord.extractLsb' 0 7 = p.op := BitVec.extractLsb'_append_eq_right

theorem Parts.toWord_above_op (p : Parts) (n len : Nat) :
    p.toWord.extractLsb' (n + 7) len = (p.f7 ++ p.b ++ p.a ++ p.f3 ++ p.d).extractLsb' n len :=
  BitVec.extractLsb'_append_eq_of_le (Nat.le_add_left 7 n)

theorem Parts.d_toWord (p : Parts) : p.toWord.extractLsb' 7 5 = p.d :=
  (p.toWord_above_op 0 5).trans BitVec.extractLsb'_append_eq_right

theorem Parts.toWord_above_d (p : Parts) (n len : Nat) :
    p.toWord.extractLsb' (n + 12) len = (p.f7 ++ p.b ++ p.a ++ p.f3).extractLsb' n len :=
  (p.toWord_above_op (n + 5) len).trans (BitVec.extractLsb'_append_eq_of_le (Nat.le_add_left 5 n))

theorem Parts.f3_toWord (p : Parts) : p.toWord.extractLsb' 12 3 = p.f3 :=
  (p.toWord_above_d 0 3).trans BitVec.extractLsb'_append_eq_right

theorem Parts.toWord_above_f3 (p : Parts) (n len : Nat) :
    p.toWord.extractLsb' (n + 15) len = (p.f7 ++ p.b ++ p.a).extractLsb' n len :=
  (p.toWord_above_d (n + 3) len).trans (BitVec.extractLsb'_append_eq_of_le (Nat.le_add_left 3 n))

theorem Parts.a_toWord (p : Parts) : p.toWord.extractLsb' 15 5 = p.a :=
  (p.toWord_above_f3 0 5).trans BitVec.extractLsb'_append_eq_right

theorem Parts.toWord_above_a (p : Parts) (n len : Nat) :
    p.toWord.extractLsb' (n + 20) len = (p.f7 ++ p.b).extractLsb' n len :=
  (p.toWord_above_f3 (n + 5) len).trans (BitVec.extractLsb'_append_eq_of_le (Nat.le_add_left 5 n))

theorem Parts.b_toWord (p : Parts) : p.toWord.extractLsb' 20 5 = p.b :=
  (p.toWord_above_a 0 5).trans BitVec.extractLsb'_append_eq_right

theorem Parts.f7_toWord (p : Parts) : p.toWord.extractLsb' 25 7 = p.f7 :=
  (p.toWord_above_a 5 7).trans BitVec.extractLsb'_append_eq_left

/-- A word is cut into the fields it was put together from. -/
@[simp] theorem Parts.ofWord_toWord (p : Parts) : Parts.ofWord p.toWord = p := by
  simp only [Parts.ofWord, p.f7_toWord, p.b_toWord, p.a_toWord, p.f3_toWord, p.d_toWord, p.op_toWord]

/-- The four bytes of a word, lowest address first (R10). -/
theorem bytesLE_four (w : BitVec 32) :
    bytesLE 4 w.toNat = [w.extractLsb' 0 8, w.extractLsb' 8 8, w.extractLsb' 16 8, w.extractLsb' 24 8] := rfl

/-- Four bytes of a word are the word again (R81). -/
theorem parcels_append (w : BitVec 32) :
    parcel (w.extractLsb' 16 8) (w.extractLsb' 24 8) ++ parcel (w.extractLsb' 0 8) (w.extractLsb' 8 8) = w := by
  have hhi : parcel (w.extractLsb' 16 8) (w.extractLsb' 24 8) = w.extractLsb' 16 16 :=
    BitVec.extractLsb'_append_extractLsb'_eq_extractLsb' rfl
  have hlo : parcel (w.extractLsb' 0 8) (w.extractLsb' 8 8) = w.extractLsb' 0 16 :=
    BitVec.extractLsb'_append_extractLsb'_eq_extractLsb' rfl
  rw [hhi, hlo]
  exact (BitVec.extractLsb'_append_extractLsb'_eq_extractLsb' rfl).trans BitVec.extractLsb'_eq_self

/-- A word that ends in ones is read whole (R81). -/
theorem decode_bytesLE {w : BitVec 32} {i : Instr} (hlow : w.extractLsb' 0 2 = 3) (hw : decode32 w = .ok i) :
    decode (bytesLE 4 w.toNat) = .ok { instr := i, len := 4, bits := w } := by
  have hbyte : (w.extractLsb' 0 8).extractLsb' 0 2 = 3 := by
    rw [← hlow]
    ext j hj
    simp
  simp only [bytesLE_four, decode, hbyte, parcels_append, hw, if_pos]

/-- An opcode that carries something is none of those of the longer lengths (R81, R83). -/
theorem majorCarries_short {op : BitVec 7} : majorCarries op = true → op.extractLsb' 2 3 ≠ 7 := by
  revert op
  decide

/-- An opcode that carries something ends in ones (R81, R83). -/
theorem majorCarries_lowBits {op : BitVec 7} : majorCarries op = true → op.extractLsb' 0 2 = 3 := by
  revert op
  decide

/-- The bytes of a word of fields decode to the instruction of the fields (R101). -/
theorem decode_toWord {p : Parts} {i : Instr} (hop : majorCarries p.op = true) (hfields : decodeMajor p = some i)
    (hwf : i.wf = true) : decode (bytesLE 4 p.toWord.toNat) = .ok { instr := i, len := 4, bits := p.toWord } := by
  refine decode_bytesLE ?_ ?_
  · exact (BitVec.extractLsb'_append_eq_of_add_le (by decide)).trans (majorCarries_lowBits hop)
  · simp only [decode32, Parts.ofWord_toWord, if_neg (majorCarries_short hop), hop, hfields, hwf, if_true]

@[simp] theorem regOf_bitsOf (r : Reg) : regOf (bitsOf r) = r := by
  ext
  simp [regOf, bitsOf]

@[simp] theorem dregOf_dbits (d : DReg8) : dregOf (dbits d) = some d := by
  have hlt : d.val < 32 := Nat.lt_trans d.isLt (by decide)
  simp [dregOf, dbits, Nat.mod_eq_of_lt hlt]

/-- The fields of dtag (R95, R228). -/
def dtagParts (l : BitVec 4) (d : DReg8) (a : Reg) : Parts where
  f7 := l ++ 0b000#3
  b := 0
  a := bitsOf a
  f3 := 0b010
  d := dbits d
  op := 0b1011011

theorem encodeParts_dtag (l : BitVec 4) (d : DReg8) (a : Reg) : encodeParts (.dtag l d a) = some (dtagParts l d a) := rfl

theorem decodeMajor_dtagParts (l : BitVec 4) (d : DReg8) (a : Reg) : decodeMajor (dtagParts l d a) = some (.dtag l d a) := by
  have hlook : (dtagParts l d a).f7.extractLsb' 3 4 = l := BitVec.extractLsb'_append_eq_left
  have hf3b : (dtagParts l d a).f7.extractLsb' 0 3 = 0 := BitVec.extractLsb'_append_eq_right
  calc decodeMajor (dtagParts l d a)
      = decodeDistMove (dtagParts l d a) := rfl
    _ = (dregOf (dbits d)).map (fun d => .dtag l d (regOf (bitsOf a))) := by
        simp only [decodeDistMove, hlook, hf3b]
        rfl
    _ = some (.dtag l d a) := by simp

end Sys2Proof
end

section
/-! SUPPORT. What a change of a tag set leaves, and an instruction that goes into flight with a change at issue and ends with
its first move (R46, R47, R218, R220). -/

namespace Sys2Proof.Machine

open Sys2Proof

theorem Hart.tags_setTags (t : Hart) (d q : DReg8) (v : BitVec 16) : (t.setTags d v).tags q = if q = d then v else t.tags q := by
  unfold Hart.tags Hart.setTags
  split
  · rename_i h
    subst h
    exact Vector.getElem_set_self q.isLt
  · rename_i h
    exact Vector.getElem_set_ne d.isLt q.isLt fun e => h (Fin.ext e.symm)

/-- An instruction that goes into flight on an idle hardware context, with a change at issue, runs at once (log 7). -/
theorem State.fly_idle_also {s : State} (h : s.idle) (hhold : s.hold = false) (i : Instr) (l : Nat) (windowed : Bool)
    (xa xb : Word) (moves : Nat) (mv : Flight → State → Move) (also : Hart → Hart) :
    s.fly i l windowed xa xb moves mv also
      = .next ((s.onMe (fun _ => also (s.me.launch i l windowed xa xb))).runFlight mv s.me.nextId moves) := by
  simp only [State.fly, hhold, State.unchained_idle h]
  rfl

/-- A flight whose first move is its last, and changes nothing, leaves what its issue changed. -/
theorem State.fly_idle_of_over {s : State} (h : s.idle) (hhold : s.hold = false) {i : Instr} {xa xb : Word} {also : Hart → Hart}
    (halso : ∀ t, (also t).chain = t.chain) {mv : Flight → State → Move} (hmv : ∀ f s, mv f s = .over s) {moves : Nat}
    (hmoves : moves ≠ 0) (l : Nat) (windowed : Bool) :
    s.fly i l windowed xa xb moves mv also
      = .next (s.onMe (fun _ => (also (s.me.launch i l windowed xa xb)).endFlight s.me.nextId)) := by
  obtain ⟨more, rfl⟩ := Nat.exists_eq_succ_of_ne_zero hmoves
  have hchain : (s.onMe (fun _ => also (s.me.launch i l windowed xa xb))).me.chain = [flightOf s i xa xb] := by
    rw [State.me_onMe, halso]
    exact Hart.launch_chain_idle h i xa xb
  have hrun := State.runFlight_of_over hchain (hmv _ _) hhold more
  rw [State.onMe_onMe] at hrun
  rw [State.fly_idle_also h hhold]
  exact congrArg Host.Outcome.next hrun

/-- A distribution instruction passes the checks of its registers where they are configured (R219). -/
theorem State.distOk_of {s : State} {ds : List DReg8} (hfmt : vtFmt s.me.vtype = 0x0A) (hfits : s.me.fmtFits (.fp .fp32) = true)
    (hds : ∀ d ∈ ds, d.val < cfgNd s.me.vcfgst) : s.distOk ds = true := by
  simpa [State.distOk, hfmt, hfits] using hds

/-- What dtag changes at issue (R228). -/
def takeTags (d : DReg8) (a : Reg) (t : Hart) : Hart := t.setTags d ((t.get a).setWidth 16)

/-- Its one turn in the condenser ends it, whatever vl is (R228). -/
theorem goDtag_eq_over (f : Flight) (s : State) : goDtag f s = .over s := rfl

/-- The hardware context once dtag has run to its end. -/
def Hart.tagged (t : Hart) (l : BitVec 4) (d : DReg8) (a : Reg) : Hart :=
  (takeTags d a (t.launch (.dtag l d a) l.toNat true (t.get a) 0)).endFlight t.nextId

/-- dtag runs from its issue to its end (R228). -/
theorem exec_dtag {s : State} (l : BitVec 4) {d : DReg8} (a : Reg) (hr : vectorReady s 60) (hok : s.distOk [d] = true) :
    ∃ u, s.PlacedAs u ∧ exec (.dtag l d a) s = .next (u.onMe (fun _ => u.me.tagged l d a)) := by
  obtain ⟨u, hplaced, hissue⟩ := State.issueVec_ready hr (.dtag l d a)
    (fun s => s.fly (.dtag l d a) l.toNat true (s.x a) 0 elemMoves goDtag (takeTags d a))
  obtain ⟨hidle, hhold, -⟩ := vectorReady_of_placedAs hr hplaced
  refine ⟨u, hplaced, ?_⟩
  calc exec (.dtag l d a) s
      = s.issueVec (.dtag l d a) true (s.distOk [d]) (some 60)
          (fun s => s.fly (.dtag l d a) l.toNat true (s.x a) 0 elemMoves goDtag (takeTags d a)) := rfl
    _ = u.fly (.dtag l d a) l.toNat true (u.x a) 0 elemMoves goDtag (takeTags d a) := by rw [hok, hissue]
    _ = .next (u.onMe (fun _ => u.me.tagged l d a)) :=
        State.fly_idle_of_over (also := takeTags d a) hidle hhold (fun _ => rfl) goDtag_eq_over (by decide) l.toNat true

end Sys2Proof.Machine
end

section
/-! CERTIFICATES. The distribution instructions: dtag. -/

namespace Sys2Proof

open Sys2Proof.Machine Sys2Proof.Spec

/-- Settles O34: its word decodes to it, and its one move in the condenser leaves what its issue wrote (R95, R228). -/
theorem dtagWritesItsTagSet : Obligations.DtagWritesItsTagSet := by
  unfold Obligations.DtagWritesItsTagSet
  intro s l d a
  refine ⟨?_, ?_, ?_⟩
  · exact congrArg (Option.map Parts.toWord) (encodeParts_dtag l d a)
  · exact decode_toWord (p := dtagParts l d a) rfl (decodeMajor_dtagParts l d a) rfl
  · rintro ⟨hready, -⟩ hfmt hfits hnd
    obtain ⟨u, hplaced, hexec⟩ := exec_dtag l a hready (State.distOk_of hfmt hfits (by simpa using hnd))
    obtain ⟨hframe, res, zm, hme⟩ := hplaced
    have hland : (u.onMe (fun _ => u.me.tagged l d a)).me = (s.me.placed res zm).tagged l d a := by
      rw [State.me_onMe, hme]
    have helse := State.sameElse_trans hframe (State.sameElse_onMe u (fun _ => u.me.tagged l d a))
    refine ⟨_, hexec, ?_⟩
    generalize u.onMe _ = t at hland helse
    have htags (q : DReg8) : t.me.tags q = if q = d then (s.x a).extractLsb' 0 16 else s.me.tags q := by
      rw [hland, ← BitVec.setWidth_eq_extractLsb' (by decide)]
      exact Hart.tags_setTags _ d q _
    have hx (r : Reg) : t.x r = s.x r := by rw [State.x, hland]; rfl
    have hpc : t.pc = s.pc + 4 := by rw [State.pc, hland]; rfl
    have hd : t.me.d = s.me.d := by rw [hland]; rfl
    have hv : t.me.v = s.me.v := by rw [hland]; rfl
    have hvexc : t.me.vexc = s.me.vexc := by rw [hland]; rfl
    exact ⟨by rw [htags, if_pos rfl], fun q hq => by rw [htags, if_neg hq], hd, hv, hpc, hx, hvexc, helse⟩

end Sys2Proof
end
